-- ==== Sys2Proof/Word.lean ====
section
/-!
DEFINITION. The word, byte and block types of the Z9 and nothing that a test could show wrong.
-/
namespace Sys2Proof

/-- A 64-bit register value (04 R45). -/
abbrev Word := BitVec 64

/-- The smallest addressable unit (00 R3). -/
abbrev Byte := BitVec 8

end Sys2Proof
end

