-- ==== Sys2Proof/Config.lean ====
section
/-!
DEFINITION. What an implementation fixes and what the spec leaves open: opaque constants, of which no proof sees a value.
-/
namespace Sys2Proof.Config

/-- The nanoseconds of device time that pass with the n-th step: latencies are typical figures only (01 R12, 05 R53). -/
opaque elapsed : Nat → Nat

/-- The cycles beyond the first that an answer made with the n-th step takes to reach its slot (04 R53, 05 R70: typical figures
only). -/
opaque latency : Nat → Nat

/-- The memory error, if any, that comes to be with the n-th step: the key of a line of device memory or of an 8-byte word of a
buffer, and whether it is past correction (09 R191, R193: the spec says what an error does, not when one arises). -/
opaque flaw : Nat → Option (Nat × Bool)

/-- The address and the engine number that the record of an uncorrectable word of a buffer names (09 R183 numbers no buffer). -/
opaque bufferError : Nat → Nat × Nat

/-- Device-unique and fused values of one Z9: its serial (20 R326, R340). -/
opaque serial : BitVec 64

/-- Whether a line that a station holds for mode 3 is evicted with the n-th step, and which of them (09 R169). -/
opaque evict : Nat → Option Nat

/-- The idle cycles of a core from its last gang to the one placed on it with the n-th step: cycles and device time have no stated ratio
(05 R83, 23 R376). -/
opaque idle : Nat → Nat → Nat

/-- The two halves r and s of the attestation signature over the digest of a report, 64 bytes (20 R340, 23 R384). -/
opaque signature : List Byte → List Byte

/-- The certificates of the device, DER-encoded, leaf first (23 R384). -/
opaque certificates : List (List Byte)

/-- A length in 4 bytes, the lowest first. -/
def lengthBytes (n : Nat) : List Byte := (List.range 4).map fun i => BitVec.ofNat 8 (n / 256 ^ i)

/-- The device certificate chain as function 6 writes it: each certificate preceded by its length (23 R384). -/
def certChain : List Byte := certificates.flatMap fun c => lengthBytes c.length ++ c

/-- The controller's core (01 R11; log 87): a byte of its memory as a verified image leaves it there, what its n-th step reads at an
address outside that memory, and where its n-th step goes when it traps. -/
opaque controllerImage : List Byte → Nat → Byte
opaque controllerRead : Nat → BitVec 32 → Byte
opaque controllerTrap : Nat → BitVec 32

/-- The firmware image that a device holds before any is stored (20 R339). -/
opaque firstImage : List Byte

/-- The result of a packet for which the spec states none: of a firmware call, of a packet that fails (20 R332, R338). -/
opaque openResult : Nat → BitVec 64

/-- The detail of a completion entry that reports neither missing sectors nor a failed node (20 R334). -/
opaque openDetail : Nat → Nat

/-- Whether a firmware image's signature verifies (20 R339). -/
opaque firmwareVerifies : List Byte → Bool

/-- The rollback index an image carries (20 R339, 23 R385). -/
opaque rollbackIndex : List Byte → Nat

/-- What a route table says: its chip number, the domain's device time, the chips it can reach (16 R290, 23 R383). Its
byte layout is the Kenvon fabric manager's. -/
opaque routeChip : List Byte → Nat
opaque routeTime : List Byte → Nat
opaque routeDests : List Byte → List Nat

/-- The ports that a route table gives towards a chip: the minimal next ports, and the escape port (16 R290). -/
opaque routePorts : List Byte → Nat → List Nat
opaque routeEscape : List Byte → Nat → Nat

/-- The free buffers, before the n-th step, of the input channel at the other end of a port: those of another chip (16 R291,
R292). -/
opaque freeBuffers : Nat → Nat → Nat

/-- A byte of a stage tile, or of its descriptors, after the mmx fault of a step (13 R257: not defined). -/
opaque stageByte : Nat → Nat → Byte

/-- The stall cycles that counter r of a die gains with the n-th step (21 R358: no rule gives them). -/
opaque stall : Nat → Nat → Nat

/-- The engine number that a halt reports for a mirror write: 09 R183 numbers no synchronisation engine (21 R346). -/
opaque mirrorEngine : Nat → Nat

/-- The junction-independent facts of the reset test: cores on a half array, islands out of service (23 R381, R382). -/
opaque testedHalf : Nat → List Nat
opaque testedOut : Nat → List Nat

/-- Whether the context of another chip's waiter still has q.lock when a lock is handed over, by step and request: that chip's state
(10 R213; log 94). -/
opaque quotaThere : Nat → Nat → Bool

end Sys2Proof.Config
end

