-- ==== Sys2Proof/Syntax.lean ====
section
/-!
DEFINITION. The syntax of the Z9: operand specifiers, the data that inputs carry, and the one inductive of instructions and steps.
-/
namespace Sys2Proof

/-- The 6-bit operand specifier, defined codes only (03 R27). -/
inductive Spec where
  | ptr (n : BitVec 3)
  | mem (n : BitVec 3)
  | post (n : BitVec 3)
  | disp (n : BitVec 3)
  | pre (n : BitVec 3)
  | queue (k : BitVec 2)
  | nxt
  | prv
  | acc
  | imm
  deriving DecidableEq, Repr

/-- The 5-bit specifier of the lane short word, defined codes only (03 R37). -/
inductive ShortSpec where
  | mem (n : BitVec 3)
  | post (n : BitVec 3)
  | pre (n : BitVec 3)
  | queue (k : BitVec 2)
  | nxt
  | prv
  deriving DecidableEq, Repr

/-- The destination of an IMM instruction, defined d4 values only (03 R24). -/
inductive ImmDst where
  | acc
  | ptr (n : BitVec 3)
  | lc
  deriving DecidableEq, Repr

/-- A 64-byte block with its two descriptor bytes, the single-copy atomic unit (07 R123). -/
structure Block where
  data  : List Byte
  fmt   : Byte
  scale : Byte
  deriving DecidableEq, Repr

/-- An operation on a leased object as it reaches its home (06 R95). -/
inductive HomeOp where
  | grant (k : Nat) (d : Word) (w0 w1 : Word)
  | renew (h d : Word)
  | life (h : Word)
  | anchor (h : Word)
  | hinfo (h : Word)
  | sig (h v : Word)
  | sigw (h v : Word)
  | sigm (h addr : Word)
  | barr (h : Word)
  | barw (h v : Word)
  | lk (pa : Nat) (wait : Bool) (d : Word) (room : Bool)
  | dmap (h view backing : Word)
  | withdraw
  deriving DecidableEq, Repr

/-- A request to a home: who asks, for which context, and the request's number (06 R103, 16 R291). -/
structure HomeReq where
  chip : Nat
  core : Nat
  slot : Nat
  ctx  : Nat
  id   : Nat
  op   : HomeOp
  deriving DecidableEq, Repr

/-- A home's reply: the request's number and context, the home's chip and the handle asked for; whether it only says that the
request is queued (10 R213); the value for a, the value for F, the expiry it reports, a fault it reports (06 R103, R109), and
for a path the size and the owner of its destination range (06 R104). -/
structure HomeRep where
  id     : Nat
  ctx    : Nat
  chip   : Nat
  queued : Bool
  h      : Word
  a      : Word
  f      : Bool
  e      : Nat
  fault  : Option (Nat × Word)
  size   : Nat
  owner  : Nat
  deriving DecidableEq, Repr

/-- The reply to a request that left this chip: its number, the block read, the old word of an atomic, or a refusal (04 R53),
whether its integrity tag passes on arrival (16 R309), and whether the access found an uncorrectable error (09 R191, R192). -/
structure MemRep where
  id    : Nat
  block : Block
  old   : Word
  fault : Option (Nat × Word)
  remoteError : Option Nat
  tagOk : Bool
  flawed : Bool
  deriving DecidableEq, Repr

/-- What an access needs of a page (09 R170). -/
inductive AccKind where
  | read
  | write
  | atomic
  deriving DecidableEq, Repr

/-- An access of an engine that a station judges: context, virtual address, kind (09 R167, R170). -/
structure StationReq where
  ctx  : Nat
  va   : Nat
  kind : AccKind
  die  : Nat
  deriving DecidableEq, Repr

/-- An unordered request of another chip (16 R292): read, write of bytes, of a block, of its descriptor, of runs of bytes of a block
(each from its offset) and the block's descriptor, scalar atomic, vector atomic with its (target element, source lane) pairs, a copy descriptor for one of its streamers, the end of the copy
whose descriptor request id brought (09 R177). -/
inductive RemoteOp where
  | read (n : Nat)
  | write (bs : List Byte)
  | writeBlock (b : Block)
  | desc (fmt : Option Byte) (scale : Byte)
  | merge (runs : List (Nat × List Byte)) (fmt scale : Byte)
  | amo (funct : Nat) (size : Nat) (v x : Word)
  | vamo (funct : Nat) (alpha : Bool) (src : Block) (lanes : List (Nat × Nat))
  | copy (engine : Nat) (desc : List Byte)
  | copyEnd (id : Nat)
  deriving DecidableEq, Repr

/-- An unordered request as it arrives: sender, its number there, the physical address here, the operation,
and whether its integrity tag passes (16 R309). -/
structure RemoteReq where
  chip  : Nat
  id    : Nat
  ctx   : Nat
  pa    : Nat
  op    : RemoteOp
  tagOk : Bool
  deriving DecidableEq, Repr

/-- What a path message does at its destination (16 R308). -/
inductive PathBody where
  | word (v : Word)
  | blocks (bs : List Block)
  | signal (h v : Word)
  | offer (srcCtx base size d : Nat) (again : Option Word)
  deriving DecidableEq, Repr

/-- A message of a path (16 R293, R296, R308, R309): its path, its sequence number, the destination slot and the slot that sent
it, its offset, its body, whether its integrity tag passes on arrival, and whether a router marked it. -/
structure PathMsg where
  path  : Word
  seq   : Nat
  chip  : Nat
  core  : Nat
  slot  : Nat
  ds    : Nat
  off   : Nat
  body  : PathBody
  tagOk : Bool
  marked : Bool
  deriving DecidableEq, Repr

/-- An acknowledgement or refusal of a path message (16 R299, R308): with the congestion mark, and for a stub offer the
handle and E or the reason. Under a stub's handle it acknowledges the pull data of the tile seq; with path 0 it acknowledges the
answer to request seq of a chip (16 R292, R309). -/
structure AckMsg where
  chip    : Nat
  path    : Word
  seq     : Nat
  marked  : Bool
  refused : Bool
  handle  : Word
  e       : Nat
  reason  : Nat
  deriving DecidableEq, Repr

/-- A mirror write (10 R210): of a registration at a home of this chip, or as it arrives from a home on another. -/
inductive MirrorStep where
  | home (unit idx mirror : Nat)
  | arrive (core off : Nat) (h v : Word)
  deriving DecidableEq, Repr

/-- A write of some bytes at an X offset of a cluster by an engine or a remote agent (21 R346, R352). -/
structure WatchHit where
  cluster : Nat
  remote  : Bool
  off     : Nat
  bytes   : List Byte
  srcChip : Nat
  src     : Nat
  deriving DecidableEq, Repr

/-- What a read of a memory line found (09 R191). -/
inductive LineError where
  | none
  | corrected
  | uncorrectable (ctx : Nat)
  deriving DecidableEq, Repr

/-- A message for this chip whose integrity tag fails, as far as its answer needs to know it (16 R309): a request to a home here, the
reply of a home, a pull request, or a message that only answers or informs, by the number its chip gave it. Other messages carry their
tag with them. -/
inductive Broken where
  | home (chip id : Nat)
  | homeReply (id : Nat)
  | pull (chip : Nat) (h : Word) (tile : Nat)
  | control (chip id : Nat)
  deriving DecidableEq, Repr

/-- A flit on a link: port, virtual channel, whether its CRC holds, the time it waited with no free buffer downstream, the chip it
goes to, whether it belongs to a path, whether its message is marked, and what message for this chip it ends whose tag fails (16 R291
to R294, R309, 21 R359). -/
structure FlitIn where
  port     : Nat
  vc       : Nat
  crcOk    : Bool
  waitNs   : Nat
  dest     : Nat
  ordered  : Bool
  marked   : Bool
  broken   : Option Broken
  deriving DecidableEq, Repr

/-- One constructor per row of spec/opcode_table.json. The first part holds the encoded instructions (03 R41), with the
fields of their format (03 R22); the second part the steps of the part that no word encodes (packets, engines, arrivals,
the dispatcher, power), run from the agenda. -/
inductive Instr where
  /-- ADD (R54). -/
  | add (s : Spec) (i : BitVec 13)
  /-- ADC (R54). -/
  | adc (s : Spec) (i : BitVec 13)
  /-- SUB (R54). -/
  | sub (s : Spec) (i : BitVec 13)
  /-- SBC (R54). -/
  | sbc (s : Spec) (i : BitVec 13)
  /-- RSUB (R54). -/
  | rsub (s : Spec) (i : BitVec 13)
  /-- AND (R54). -/
  | and (s : Spec) (i : BitVec 13)
  /-- OR (R54). -/
  | or (s : Spec) (i : BitVec 13)
  /-- XOR (R54). -/
  | xor (s : Spec) (i : BitVec 13)
  /-- ANDN (R54). -/
  | andn (s : Spec) (i : BitVec 13)
  /-- SHL (R55). -/
  | shl (s : Spec) (i : BitVec 13)
  /-- SHR (R55). -/
  | shr (s : Spec) (i : BitVec 13)
  /-- SAR (R55). -/
  | sar (s : Spec) (i : BitVec 13)
  /-- ROL (R55). -/
  | rol (s : Spec) (i : BitVec 13)
  /-- MIN (R54). -/
  | min (s : Spec) (i : BitVec 13)
  /-- MAX (R54). -/
  | max (s : Spec) (i : BitVec 13)
  /-- MINN (R54). -/
  | minn (s : Spec) (i : BitVec 13)
  /-- MAXN (R54). -/
  | maxn (s : Spec) (i : BitVec 13)
  /-- CMP (R54). -/
  | cmp (s : Spec) (i : BitVec 13)
  /-- TST (R54). -/
  | tst (s : Spec) (i : BitVec 13)
  /-- NEG (R54). -/
  | neg (s : Spec) (i : BitVec 13)
  /-- NOT (R54). -/
  | not (s : Spec) (i : BitVec 13)
  /-- MUL (R56). -/
  | mul (s : Spec) (i : BitVec 13)
  /-- MULH (R56). -/
  | mulh (s : Spec) (i : BitVec 13)
  /-- MULHN (R56). -/
  | mulhn (s : Spec) (i : BitVec 13)
  /-- DIV (R57). -/
  | div (s : Spec) (i : BitVec 13)
  /-- DIVN (R57). -/
  | divn (s : Spec) (i : BitVec 13)
  /-- REM (R57). -/
  | rem (s : Spec) (i : BitVec 13)
  /-- REMN (R57). -/
  | remn (s : Spec) (i : BitVec 13)
  /-- CLZ (R56). -/
  | clz (s : Spec) (i : BitVec 13)
  /-- CTZ (R56). -/
  | ctz (s : Spec) (i : BitVec 13)
  /-- POPC (R56). -/
  | popc (s : Spec) (i : BitVec 13)
  /-- BSWAP (R56). -/
  | bswap (s : Spec) (i : BitVec 13)
  /-- SEXT (R58). -/
  | sext (s : Spec) (i : BitVec 13)
  /-- ZEXT (R58). -/
  | zext (s : Spec) (i : BitVec 13)
  /-- BEXT (R58). -/
  | bext (s : Spec) (i : BitVec 13)
  /-- BINS (R58). -/
  | bins (s : Spec) (i : BitVec 13)
  /-- LD_B (R59). -/
  | ldB (s : Spec) (i : BitVec 13)
  /-- LD_H (R59). -/
  | ldH (s : Spec) (i : BitVec 13)
  /-- LD_W (R59). -/
  | ldW (s : Spec) (i : BitVec 13)
  /-- LD_D (R59). -/
  | ldD (s : Spec) (i : BitVec 13)
  /-- LD_SB (R59). -/
  | ldSb (s : Spec) (i : BitVec 13)
  /-- LD_SH (R59). -/
  | ldSh (s : Spec) (i : BitVec 13)
  /-- LD_SW (R59). -/
  | ldSw (s : Spec) (i : BitVec 13)
  /-- ST_B (R60). -/
  | stB (s : Spec) (i : BitVec 13)
  /-- ST_H (R60). -/
  | stH (s : Spec) (i : BitVec 13)
  /-- ST_W (R60). -/
  | stW (s : Spec) (i : BitVec 13)
  /-- ST_D (R60). -/
  | stD (s : Spec) (i : BitVec 13)
  /-- XCH (R61). -/
  | xch (s : Spec) (i : BitVec 13)
  /-- LEA (R62). -/
  | lea (s : Spec) (i : BitVec 13)
  /-- LI (R63). -/
  | li (d : ImmDst) (i : BitVec 19)
  /-- LSH (R63). -/
  | lsh (d : ImmDst) (i : BitVec 19)
  /-- ADDI (R63). -/
  | addi (d : ImmDst) (i : BitVec 19)
  /-- PSTEP (R64). -/
  | pstep (n : BitVec 3) (i : BitVec 13)
  /-- PADD (R64). -/
  | padd (n : BitVec 3)
  /-- PSPC (R64). -/
  | pspc (n : BitVec 3)
  /-- PINC (R64). -/
  | pinc (n : BitVec 3)
  /-- SGET (R64). -/
  | sget (n : BitVec 3)
  /-- B (R66). -/
  | b (d : BitVec 21)
  /-- BZ (R66). -/
  | bz (d : BitVec 21)
  /-- BNZ (R66). -/
  | bnz (d : BitVec 21)
  /-- BN (R66). -/
  | bn (d : BitVec 21)
  /-- BNN (R66). -/
  | bnn (d : BitVec 21)
  /-- BC (R66). -/
  | bc (d : BitVec 21)
  /-- BNC (R66). -/
  | bnc (d : BitVec 21)
  /-- BV (R66). -/
  | bv (d : BitVec 21)
  /-- BNV (R66). -/
  | bnv (d : BitVec 21)
  /-- BF (R66). -/
  | bf (d : BitVec 21)
  /-- BNF (R66). -/
  | bnf (d : BitVec 21)
  /-- BGT (R66). -/
  | bgt (d : BitVec 21)
  /-- BLE (R66). -/
  | ble (d : BitVec 21)
  /-- BGE (R66). -/
  | bge (d : BitVec 21)
  /-- BLT (R66). -/
  | blt (d : BitVec 21)
  /-- CALL (R67). -/
  | call (d : BitVec 21)
  /-- LOOP (R68). -/
  | loop (d : BitVec 21)
  /-- JMP (R69). -/
  | jmp (s : Spec) (i : BitVec 13)
  /-- JSR (R69). -/
  | jsr (s : Spec) (i : BitVec 13)
  /-- LCSET (R69). -/
  | lcset (s : Spec) (i : BitVec 13)
  /-- START (R77). -/
  | start (s : Spec) (i : BitVec 13)
  /-- IDR (R76). -/
  | idr (n : BitVec 13)
  /-- VADD (R154). -/
  | vadd (d a b : Spec)
  /-- VSUB (R154). -/
  | vsub (d a b : Spec)
  /-- VMUL (R154). -/
  | vmul (d a b : Spec)
  /-- VFMA (R154). -/
  | vfma (d a b : Spec)
  /-- VFMS (R154). -/
  | vfms (d a b : Spec)
  /-- VMIN (R156). -/
  | vmin (d a b : Spec)
  /-- VMAX (R156). -/
  | vmax (d a b : Spec)
  /-- VABS (R154). -/
  | vabs (d a : Spec)
  /-- VNEG (R154). -/
  | vneg (d a : Spec)
  /-- VAXPY (R154). -/
  | vaxpy (d a b : Spec)
  /-- VSCL (R154). -/
  | vscl (d a : Spec)
  /-- VDIV (R154). -/
  | vdiv (d a b : Spec)
  /-- VSQRT (R154). -/
  | vsqrt (d a : Spec)
  /-- VAND (R158). -/
  | vand (d a b : Spec)
  /-- VOR (R158). -/
  | vor (d a b : Spec)
  /-- VXOR (R158). -/
  | vxor (d a b : Spec)
  /-- VANDN (R158). -/
  | vandn (d a b : Spec)
  /-- VSHL (R158). -/
  | vshl (d a b : Spec)
  /-- VSHR (R158). -/
  | vshr (d a b : Spec)
  /-- VSAR (R158). -/
  | vsar (d a b : Spec)
  /-- VCEQ (R159). -/
  | vceq (d a b : Spec)
  /-- VCLT (R159). -/
  | vclt (d a b : Spec)
  /-- VCLE (R159). -/
  | vcle (d a b : Spec)
  /-- VSEL (R159). -/
  | vsel (d a b : Spec)
  /-- VMOV (R159). -/
  | vmov (d a : Spec)
  /-- VBCAST (R159). -/
  | vbcast (d a : Spec)
  /-- VMSK (R159). -/
  | vmsk (a : Spec)
  /-- VEXP2 (R157). -/
  | vexp2 (d a : Spec)
  /-- VLOG2 (R157). -/
  | vlog2 (d a : Spec)
  /-- VRCP (R157). -/
  | vrcp (d a : Spec)
  /-- VRSQRT (R157). -/
  | vrsqrt (d a : Spec)
  /-- VSINPI (R157). -/
  | vsinpi (d a : Spec)
  /-- VCOSPI (R157). -/
  | vcospi (d a : Spec)
  /-- VTANH (R157). -/
  | vtanh (d a : Spec)
  /-- VSIGM (R157). -/
  | vsigm (d a : Spec)
  /-- VERF (R157). -/
  | verf (d a : Spec)
  /-- VRADD (R160). -/
  | vradd (d a : Spec)
  /-- VRMAX (R160). -/
  | vrmax (d a : Spec)
  /-- VRMIN (R160). -/
  | vrmin (d a : Spec)
  /-- VDOT (R160). -/
  | vdot (d a b : Spec)
  /-- VPERM (R161). -/
  | vperm (d a b : Spec)
  /-- VGATH (R162). -/
  | vgath (d a b : Spec)
  /-- VSCAT (R162). -/
  | vscat (d a b : Spec)
  /-- VCMPR (R161). -/
  | vcmpr (d a : Spec)
  /-- VCVT (R136). -/
  | vcvt (d a : Spec)
  /-- VSCAL (R137). -/
  | vscal (d a : Spec)
  /-- VQNT (R138). -/
  | vqnt (d a b : Spec)
  /-- VDEQ (R139). -/
  | vdeq (d a b : Spec)
  /-- VPACK (R140). -/
  | vpack (d a : Spec)
  /-- VUNPK (R141). -/
  | vunpk (d a : Spec)
  /-- DGET (R130). -/
  | dget (s : Spec) (i : BitVec 13)
  /-- DSET (R131). -/
  | dset (s : Spec) (i : BitVec 13)
  /-- DCHK (R132). -/
  | dchk (s : Spec) (i : BitVec 13)
  /-- FSET (R133). -/
  | fset (s : Spec) (i : BitVec 13)
  /-- QSUB (R147). -/
  | qsub (k : BitVec 2) (s : Spec) (i : BitVec 8)
  /-- QSTAT (R149). -/
  | qstat (k : BitVec 2)
  /-- TLD (R243). -/
  | tld (x : BitVec 3) (p : Bool) (n : BitVec 3)
  /-- TST_TILE (R244). -/
  | tstTile (x : BitVec 3) (p : Bool) (n : BitVec 3)
  /-- TCFG (R245). -/
  | tcfg (x : BitVec 3)
  /-- TCFR (R245). -/
  | tcfr (x : BitVec 3)
  /-- TZERO (R245). -/
  | tzero (x : BitVec 3)
  /-- TMOV (R245). -/
  | tmov (x y : BitVec 3)
  /-- MM (R250). -/
  | mm (c x y r : BitVec 3)
  /-- MMX (R256). -/
  | mmx (c x y r a b : BitVec 3)
  /-- CCLR (R261). -/
  | cclr (c : BitVec 3) (f : BitVec 2)
  /-- CRD (R262). -/
  | crd (c : BitVec 3) (p : Bool) (q : BitVec 3) (n : BitVec 6)
  /-- CWR (R263). -/
  | cwr (c : BitVec 3) (p : Bool) (q : BitVec 3) (n : BitVec 6)
  /-- CADD (R264). -/
  | cadd (c x r : BitVec 3)
  /-- CSTAT (R265). -/
  | cstat (c : BitVec 3)
  /-- CSTAT_R (R265). -/
  | cstatR (c : BitVec 3)
  /-- CSTAT_C (R265). -/
  | cstatC (c : BitVec 3)
  /-- CSCL (R266). -/
  | cscl (c : BitVec 3) (e : BitVec 10)
  /-- GLDV (R175). -/
  | gldv (s : Spec) (i : BitVec 13)
  /-- GSTV (R175). -/
  | gstv (s : Spec) (i : BitVec 13)
  /-- GPREF (R176). -/
  | gpref (s : Spec) (i : BitVec 13)
  /-- CPY (R186). -/
  | cpy (k : BitVec 3) (s : Spec) (i : BitVec 8)
  /-- CPYR (R187). -/
  | cpyr (k : BitVec 3) (s : Spec) (i : BitVec 8)
  /-- WTOK (R188). -/
  | wtok (m : BitVec 8)
  /-- TTOK (R188). -/
  | ttok (k : BitVec 3)
  /-- TOKR (R188). -/
  | tokr (k : BitVec 3)
  /-- AADD (R197). -/
  | aadd (s : Spec) (i : BitVec 13)
  /-- AAND (R197). -/
  | aand (s : Spec) (i : BitVec 13)
  /-- AOR (R197). -/
  | aor (s : Spec) (i : BitVec 13)
  /-- AXOR (R197). -/
  | axor (s : Spec) (i : BitVec 13)
  /-- AMIN (R197). -/
  | amin (s : Spec) (i : BitVec 13)
  /-- AMAX (R197). -/
  | amax (s : Spec) (i : BitVec 13)
  /-- AMINN (R197). -/
  | aminn (s : Spec) (i : BitVec 13)
  /-- AMAXN (R197). -/
  | amaxn (s : Spec) (i : BitVec 13)
  /-- ASWP (R197). -/
  | aswp (s : Spec) (i : BitVec 13)
  /-- ACAS (R197). -/
  | acas (s : Spec) (i : BitVec 13)
  /-- AADDF (R197). -/
  | aaddf (s : Spec) (i : BitVec 13)
  /-- AADD_W (R197). -/
  | aaddW (s : Spec) (i : BitVec 13)
  /-- AAND_W (R197). -/
  | aandW (s : Spec) (i : BitVec 13)
  /-- AOR_W (R197). -/
  | aorW (s : Spec) (i : BitVec 13)
  /-- AXOR_W (R197). -/
  | axorW (s : Spec) (i : BitVec 13)
  /-- AMIN_W (R197). -/
  | aminW (s : Spec) (i : BitVec 13)
  /-- AMAX_W (R197). -/
  | amaxW (s : Spec) (i : BitVec 13)
  /-- AMINN_W (R197). -/
  | aminnW (s : Spec) (i : BitVec 13)
  /-- AMAXN_W (R197). -/
  | amaxnW (s : Spec) (i : BitVec 13)
  /-- ASWP_W (R197). -/
  | aswpW (s : Spec) (i : BitVec 13)
  /-- ACAS_W (R197). -/
  | acasW (s : Spec) (i : BitVec 13)
  /-- AADDF_W (R197). -/
  | aaddfW (s : Spec) (i : BitVec 13)
  /-- VAADD (R200). -/
  | vaadd (d a : Spec)
  /-- VAMIN (R200). -/
  | vamin (d a : Spec)
  /-- VAMAX (R200). -/
  | vamax (d a : Spec)
  /-- VAADD_S (R201). -/
  | vaaddS (d a b : Spec)
  /-- VAMIN_S (R201). -/
  | vaminS (d a b : Spec)
  /-- VAMAX_S (R201). -/
  | vamaxS (d a b : Spec)
  /-- WATCH (R204). -/
  | watch (s : Spec) (i : BitVec 8)
  /-- WATCH_RM (R204). -/
  | watchRm (s : Spec) (i : BitVec 8)
  /-- CBAR (R212). -/
  | cbar (k : BitVec 2)
  /-- BARR (R211). -/
  | barr (s : Spec) (i : BitVec 8)
  /-- BARW (R211). -/
  | barw (s : Spec) (i : BitVec 8)
  /-- SIG (R208). -/
  | sig (s : Spec) (i : BitVec 8)
  /-- SIGW (R208). -/
  | sigw (s : Spec) (i : BitVec 8)
  /-- SIGM (R210). -/
  | sigm (s : Spec) (i : BitVec 8)
  /-- LK (R213). -/
  | lk (k : BitVec 1) (s : Spec) (i : BitVec 8)
  /-- TWAIT (R215). -/
  | twait (k : BitVec 5)
  /-- TREAD (R215). -/
  | tread (k : BitVec 5)
  /-- FENCE (R221). -/
  | fence (o : BitVec 2) (s : BitVec 3)
  /-- GRANT (R104). -/
  | grant (k : BitVec 5) (s : Spec) (i : BitVec 8)
  /-- RENEW (R106). -/
  | renew (s : Spec) (i : BitVec 8)
  /-- LIFE (R107). -/
  | life (s : Spec) (i : BitVec 8)
  /-- ANCHOR (R109). -/
  | anchor (s : Spec) (i : BitVec 8)
  /-- HINFO (R110). -/
  | hinfo (s : Spec) (i : BitVec 8)
  /-- DSBIND (R303). -/
  | dsbind (k : BitVec 4) (s : Spec) (i : BitVec 8)
  /-- FSEND (R304). -/
  | fsend (k : BitVec 4)
  /-- FSENDV (R304). -/
  | fsendv (k : BitVec 4) (s : Spec) (n : BitVec 6)
  /-- FSEEK (R304). -/
  | fseek (k : BitVec 4)
  /-- ALLW (R305). -/
  | allw (k : BitVec 4)
  /-- DSEND (R311). -/
  | dsend (k : BitVec 4) (s : Spec) (i : BitVec 8)
  /-- DMAP (R312). -/
  | dmap (s : Spec) (i : BitVec 8)
  /-- SPULL (R314). -/
  | spull (s : Spec) (i : BitVec 8)
  /-- FSIG (R304). -/
  | fsig (k : BitVec 4) (s : Spec) (i : BitVec 8)
  /-- BAL (R306). -/
  | bal (k : BitVec 4) (t : BitVec 3) (d : BitVec 17)
  /-- BNAL (R306). -/
  | bnal (k : BitVec 4) (t : BitVec 3) (d : BitVec 17)
  /-- MFS (R278). -/
  | mfs (r : BitVec 12)
  /-- MTS (R278). -/
  | mts (r : BitVec 12)
  /-- TRAP (R278). -/
  | trap (n : BitVec 7)
  /-- TRC (R354). -/
  | trc (n : BitVec 7)
  /-- DBGH (R354). -/
  | dbgh (n : BitVec 7)
  /-- SMPL (R354). -/
  | smpl (n : BitVec 7)
  /-- LD_D_SHORT (R35). -/
  | ldDShort (s : Spec) (i : BitVec 4)
  /-- ST_D_SHORT (R35). -/
  | stDShort (s : Spec) (i : BitVec 4)
  /-- ADD_SHORT (R35). -/
  | addShort (s : Spec) (i : BitVec 4)
  /-- SUB_SHORT (R35). -/
  | subShort (s : Spec) (i : BitVec 4)
  /-- AND_SHORT (R35). -/
  | andShort (s : Spec) (i : BitVec 4)
  /-- OR_SHORT (R35). -/
  | orShort (s : Spec) (i : BitVec 4)
  /-- XOR_SHORT (R35). -/
  | xorShort (s : Spec) (i : BitVec 4)
  /-- CMP_SHORT (R35). -/
  | cmpShort (s : Spec) (i : BitVec 4)
  /-- LD_W_SHORT (R35). -/
  | ldWShort (s : Spec) (i : BitVec 4)
  /-- ST_W_SHORT (R35). -/
  | stWShort (s : Spec) (i : BitVec 4)
  /-- SHL_SHORT (R35). -/
  | shlShort (s : Spec) (i : BitVec 4)
  /-- SHR_SHORT (R35). -/
  | shrShort (s : Spec) (i : BitVec 4)
  /-- MUL_SHORT (R35). -/
  | mulShort (s : Spec) (i : BitVec 4)
  /-- XCH_SHORT (R35). -/
  | xchShort (s : Spec) (i : BitVec 4)
  /-- PADD_SHORT (R35). -/
  | paddShort (n : BitVec 3)
  /-- VADD_SHORT (R38). -/
  | vaddShort (d s : ShortSpec)
  /-- VSUB_SHORT (R38). -/
  | vsubShort (d s : ShortSpec)
  /-- VMUL_SHORT (R38). -/
  | vmulShort (d s : ShortSpec)
  /-- VFMA_SHORT (R163). -/
  | vfmaShort (d s : ShortSpec)
  /-- VMIN_SHORT (R38). -/
  | vminShort (d s : ShortSpec)
  /-- VMAX_SHORT (R38). -/
  | vmaxShort (d s : ShortSpec)
  /-- VMOV_SHORT (R38). -/
  | vmovShort (d s : ShortSpec)
  /-- VAND_SHORT (R38). -/
  | vandShort (d s : ShortSpec)
  /-- VOR_SHORT (R38). -/
  | vorShort (d s : ShortSpec)
  /-- VXOR_SHORT (R38). -/
  | vxorShort (d s : ShortSpec)
  /-- VABS_SHORT (R38). -/
  | vabsShort (d s : ShortSpec)
  /-- VNEG_SHORT (R38). -/
  | vnegShort (d s : ShortSpec)
  /-- VSEL_SHORT (R163). -/
  | vselShort (d s : ShortSpec)
  /-- VCVT_SHORT (R38). -/
  | vcvtShort (d s : ShortSpec)
  /-- VSHL_SHORT (R38). -/
  | vshlShort (d s : ShortSpec)
  /-- VSHR_SHORT (R38). -/
  | vshrShort (d s : ShortSpec)
  /-- RET (R69). -/
  | ret
  /-- END (R78). -/
  | endSlot
  /-- YIELD (R80). -/
  | yield
  /-- LIVE (R81). -/
  | live
  /-- FGET (R133). -/
  | fget
  /-- WATCH_CLR (R204). -/
  | watchClr
  /-- SLEEP (R205). -/
  | sleep
  /-- BFENCE (R224). -/
  | bfence
  /-- ISYNC (R235). -/
  | isync
  /-- HGEN (R108). -/
  | hgen
  /-- RTI (R278). -/
  | rti
  /-- WFI (R279). -/
  | wfi
  /-- ICINV (R280). -/
  | icinv
  /-- ICINV_ALL (R280). -/
  | icinvAll
  /-- SSAVE (R281). -/
  | ssave
  /-- SREST (R281). -/
  | srest
  /-- BRK (R348). -/
  | brk
  /-- ABORT_WRITE (R289). -/
  | abortWrite (v : Word)
  /-- BELL_WRITE (R279). -/
  | bellWrite (v : Word)
  /-- DEBUG_REQUEST_WRITE (R342). -/
  | debugRequestWrite
  /-- TRACE_CONTROL_WRITE (R355). -/
  | traceControlWrite (v : Word)
  /-- TRACE_COUNT_READ (R355). -/
  | traceCountRead
  /-- TRACE_SAMPLE (R355). -/
  | traceSample (core : Nat)
  /-- WATCHPOINT_REMOTE_HALT (R352). -/
  | watchpointRemoteHalt (hit : WatchHit)
  /-- STEP_COUNT_HALT (R347). -/
  | stepCountHalt (cluster : Nat)
  /-- QUEUE_KICK (R328). -/
  | queueKick (link q : Nat)
  /-- QUEUE_POLL (R328). -/
  | queuePoll (link q : Nat)
  /-- QUEUE_ENABLE (R327). -/
  | queueEnable (link q : Nat) (v : Word)
  /-- QUEUE_DISABLE (R327). -/
  | queueDisable (link q : Nat)
  /-- COMPLETION_HEAD_WRITE (R334). -/
  | completionHeadWrite (link q : Nat) (v : Word)
  /-- BAR0_REGISTER_WRITE (R326). -/
  | bar0RegisterWrite (link off : Nat) (v : Word)
  /-- COMPLETION_ENTRY_WRITE (R334). -/
  | completionEntryWrite (link q : Nat)
  /-- MSIX_COALESCE_TIMEOUT (R334). -/
  | msixCoalesceTimeout (link q : Nat)
  /-- CONTEXT_GRANT (R333). -/
  | contextGrant (k : Nat)
  /-- CONTEXT_RENEW (R332). -/
  | contextRenew (k : Nat)
  /-- CONTEXT_END (R332). -/
  | contextEnd (k : Nat)
  /-- MEMORY_GRANT_NEW (R333). -/
  | memoryGrantNew (k : Nat)
  /-- MEMORY_GRANT_CHANGE (R333). -/
  | memoryGrantChange (k : Nat)
  /-- LAUNCH_GRAPH (R335). -/
  | launchGraph (k : Nat)
  /-- COPY_PACKET (R332). -/
  | copyPacket (k : Nat)
  /-- SIGNAL_ADD (R332). -/
  | signalAdd (k : Nat)
  /-- SIGNAL_WAIT (R332). -/
  | signalWait (k : Nat)
  /-- SIGNAL_WAIT_TIMEOUT (R332). -/
  | signalWaitTimeout (k : Nat)
  /-- DEBUG_HOLD (R332). -/
  | debugHold (k : Nat)
  /-- DEBUG_RELEASE (R332). -/
  | debugRelease (k : Nat)
  /-- FW_ATTEST (R340). -/
  | fwAttest (k : Nat)
  /-- FW_TIME_SLICE (R338). -/
  | fwTimeSlice (k : Nat)
  /-- FW_POWER_POLICY_SET (R380). -/
  | fwPowerPolicySet (k : Nat)
  /-- FW_POWER_STATUS (R380). -/
  | fwPowerStatus (k : Nat)
  /-- FW_ROUTE_TABLE (R290). -/
  | fwRouteTable (k : Nat)
  /-- FW_ISLAND_SERVICE (R338). -/
  | fwIslandService (k : Nat)
  /-- FW_IDENTITY (R384). -/
  | fwIdentity (k : Nat)
  /-- FW_FIRMWARE_UPDATE (R385). -/
  | fwFirmwareUpdate (k : Nat)
  /-- FW_GINGHAM (R359). -/
  | fwGingham (k : Nat)
  /-- GINGHAM_LATCH (R359). -/
  | ginghamLatch
  /-- BAR2_READ (R341). -/
  | bar2Read (link off n : Nat)
  /-- BAR2_WRITE (R341). -/
  | bar2Write (link off : Nat) (bs : List Byte)
  /-- NODE_READY (R336). -/
  | nodeReady (graph node : Nat)
  /-- GANG_PLACE (R86). -/
  | gangPlace (die : Nat)
  /-- TIME_SLICE_EXPIRY (R88). -/
  | timeSliceExpiry (die ctx : Nat)
  /-- PREEMPT_REQUEST (R282). -/
  | preemptRequest (gang reason : Nat)
  /-- PREEMPT_DRAIN_END (R282). -/
  | preemptDrainEnd (gang : Nat)
  /-- SAVE_IMAGE_COMPLETE (R283). -/
  | saveImageComplete (gang : Nat)
  /-- GANG_RESTORE (R285). -/
  | gangRestore (gang : Nat)
  /-- LEASE_LAPSE (R97). -/
  | leaseLapse (unit idx : Nat)
  /-- HOME_REQUEST (R95). -/
  | homeRequest (r : HomeReq)
  /-- HOME_REPLY (R103). -/
  | homeReply (core slot : Nat) (r : HomeRep)
  /-- REVOCATION_APPLY (R101). -/
  | revocationApply (unit ctx : Nat)
  /-- RANGE_SCRUB_DONE (R100). -/
  | rangeScrubDone (unit idx : Nat)
  /-- DT_BEACON (R12). -/
  | dtBeacon (adj : Nat)
  /-- PATH_SOURCE_DISCARD (R320). -/
  | pathSourceDiscard (h : Word)
  /-- MEMORY_REPLY (R53). -/
  | memoryReply (core slot : Nat) (r : MemRep)
  /-- STATION_ACCESS (R170). -/
  | stationAccess (r : StationReq)
  /-- PAGE_MIGRATION (R173). -/
  | pageMigration (ctx va frame : Nat)
  /-- MIGRATION_WB_TIMEOUT (R173). -/
  | migrationWbTimeout (ctx va : Nat)
  /-- PATROL_SCRUB (R191). -/
  | patrolScrub (line : Nat) (err : LineError)
  /-- COPY_ACCEPT (R179). -/
  | copyAccept (id : Nat)
  /-- COPY_SECTOR (R181). -/
  | copySector (id : Nat)
  /-- COPY_COMPLETE (R188). -/
  | copyComplete (id : Nat)
  /-- QUANT_COMMAND_RUN (R144). -/
  | quantCommandRun (die : Nat)
  /-- QUANT_COMMAND_COMPLETE (R148). -/
  | quantCommandComplete (die : Nat)
  /-- FAULT_RECORD_FORWARD (R337). -/
  | faultRecordForward (ctx : Nat)
  /-- SUPERVISOR_MESSAGE (R279). -/
  | supervisorMessage (core : Nat)
  /-- MIRROR_WRITE (R210). -/
  | mirrorWrite (m : MirrorStep)
  /-- ICACHE_FILL (R387). -/
  | icacheFill (core addr : Nat)
  /-- ICACHE_INVALIDATE_ARRIVAL (R280). -/
  | icacheInvalidateArrival (cluster : Nat)
  /-- CHUNK_STEP_COMPLETE (R255). -/
  | chunkStepComplete (core : Nat)
  /-- RESIDUE_REPLAY (R267). -/
  | residueReplay (core slot : Nat) (again : Bool)
  /-- DAMASK_STEP (R256). -/
  | damaskStep (core slot n : Nat) (c x y r a b : BitVec 3)
  /-- FLIT_RECEIVE (R293). -/
  | flitReceive (f : FlitIn)
  /-- REMOTE_REQUEST_ARRIVAL (R292). -/
  | remoteRequestArrival (r : RemoteReq)
  /-- UNORDERED_RESEND_TIMEOUT (R292). -/
  | unorderedResendTimeout (id : Nat)
  /-- PATH_MESSAGE_ARRIVAL (R295). -/
  | pathMessageArrival (m : PathMsg)
  /-- FSIG_ARRIVAL (R304). -/
  | fsigArrival (m : PathMsg)
  /-- STUB_OFFER_ARRIVAL (R311). -/
  | stubOfferArrival (m : PathMsg)
  /-- ACK_ARRIVAL (R299). -/
  | ackArrival (a : AckMsg)
  /-- GO_BACK_ARRIVAL (R296). -/
  | goBackArrival (path : Word) (seq : Nat)
  /-- HOLD_NOTICE_ARRIVAL (R316). -/
  | holdNoticeArrival (path : Word)
  /-- PATH_RESEND_TIMEOUT (R296). -/
  | pathResendTimeout (path : Word)
  /-- PULL_REQUEST_ARRIVAL (R313). -/
  | pullRequestArrival (h : Word) (tile chip : Nat)
  /-- PULL_DATA_ARRIVAL (R313). -/
  | pullDataArrival (h : Word) (tile : Nat) (bs : List Block) (tagOk : Bool)
  /-- STUB_LINK_ARRIVAL (R315). -/
  | stubLinkArrival (h : Word) (e : Nat)
  /-- PIN_COMPLETION_ARRIVAL (R315). -/
  | pinCompletionArrival (h : Word)
  /-- PIN_EXPIRY (R317). -/
  | pinExpiry (h : Word)
  /-- COLD_RESET (R382). -/
  | coldReset
  /-- FUNCTION_LEVEL_RESET (R382). -/
  | functionLevelReset (link : Nat)
  /-- POWER_PERIOD (R378). -/
  | powerPeriod (watts : Nat)
  /-- THERMAL_PERIOD (R379). -/
  | thermalPeriod (temps : List (Nat × Nat))
  /-- ISLAND_STEP_CHANGE (R377). -/
  | islandStepChange (island step : Nat)
  /-- TILE_TRANSFER_COMPLETE (R246). -/
  | tileTransferComplete (core slot : Nat)
  /-- RESERVED_ENCODING_ISSUE (R43). -/
  | reservedEncodingIssue
  /-- FETCH_SPACE_FAULT (R20). -/
  | fetchSpaceFault
  deriving DecidableEq, Repr

end Sys2Proof
end

