-- ==== Sys2Proof/WellFormed.lean ====
section
/-!
DEFINITION. Which instructions are well formed: the role of each operand (03 R34), the immediate's use (03 R28), and the
numbers a unit has (03 R42). The decoder refuses every other word (03 R43).
-/
namespace Sys2Proof

namespace Spec

/-- The modes that use d or the immediate (03 R28). -/
def usesImm : Spec → Bool
  | .disp _ | .imm => true
  | .ptr _ | .mem _ | .post _ | .pre _ | .queue _ | .nxt | .prv | .acc => false

/-- In a mode that uses neither d nor the immediate, the immediate field is zero (03 R28). -/
def immOk {w : Nat} (s : Spec) (i : BitVec w) : Bool := s.usesImm || i == 0

/-- Scalar source: every defined code (03 R34). -/
def scalarSrc (_ : Spec) : Bool := true

/-- Scalar destination: every defined code but the immediate (03 R34). -/
def scalarDst : Spec → Bool
  | .imm => false
  | .ptr _ | .mem _ | .post _ | .disp _ | .pre _ | .queue _ | .nxt | .prv | .acc => true

/-- Address operand: the four memory modes (03 R34). -/
def address : Spec → Bool
  | .mem _ | .post _ | .disp _ | .pre _ => true
  | .ptr _ | .queue _ | .nxt | .prv | .acc | .imm => false

/-- A memory mode that a format without an immediate field has (03 R28). -/
def memMode : Spec → Bool
  | .mem _ | .post _ | .pre _ => true
  | .ptr _ | .disp _ | .queue _ | .nxt | .prv | .acc | .imm => false

/-- Block destination: a memory mode or a port, not the accumulator (03 R33, R34). -/
def blockDst : Spec → Bool
  | .mem _ | .post _ | .pre _ | .queue _ | .nxt | .prv => true
  | .ptr _ | .disp _ | .acc | .imm => false

/-- Block source: as a destination, or the accumulator (03 R33, R34). -/
def blockSrc : Spec → Bool
  | .mem _ | .post _ | .pre _ | .queue _ | .nxt | .prv | .acc => true
  | .ptr _ | .disp _ | .imm => false

end Spec

/-- The system register numbers that 15 R271 and 21 R342, R355, R358 assign (03 R42). -/
def sysregAssigned (n : Nat) : Bool :=
  n ≤ 0x002 || (0x010 ≤ n && n ≤ 0x017) || n == 0x020 || (0x040 ≤ n && n ≤ 0x04F) || (0x050 ≤ n && n ≤ 0x052) ||
  (0x060 ≤ n && n ≤ 0x065) || (0x088 ≤ n && n ≤ 0x08B) || (0x0C0 ≤ n && n ≤ 0x0C7) || (0x0D0 ≤ n && n ≤ 0x0D5) ||
  (0x400 ≤ n && n ≤ 0x404) || (0x410 ≤ n && n ≤ 0x415) || n == 0x420 || n == 0x422 || n == 0x440 || n == 0x441 ||
  (0x448 ≤ n && n ≤ 0x44F)

/-- Whether an instruction obeys its roles, its immediate rule and its ranges. A step that no word encodes has no field
of its own to check here. -/
def wfBool : Instr → Bool
  | .add s i
  | .adc s i
  | .sub s i
  | .sbc s i
  | .rsub s i
  | .and s i
  | .or s i
  | .xor s i
  | .andn s i
  | .shl s i
  | .shr s i
  | .sar s i
  | .rol s i
  | .min s i
  | .max s i
  | .minn s i
  | .maxn s i
  | .cmp s i
  | .tst s i
  | .neg s i
  | .not s i
  | .mul s i
  | .mulh s i
  | .mulhn s i
  | .div s i
  | .divn s i
  | .rem s i
  | .remn s i
  | .clz s i
  | .ctz s i
  | .popc s i
  | .bswap s i
  | .sext s i
  | .zext s i
  | .bext s i
  | .bins s i
  | .ldB s i
  | .ldH s i
  | .ldW s i
  | .ldD s i
  | .ldSb s i
  | .ldSh s i
  | .ldSw s i
  | .jmp s i
  | .jsr s i
  | .lcset s i
  | .fset s i => s.scalarSrc && s.immOk i
  | .stB s i
  | .stH s i
  | .stW s i
  | .stD s i
  | .xch s i => s.scalarDst && s.immOk i
  | .lea s i
  | .dget s i
  | .dset s i
  | .dchk s i
  | .gldv s i
  | .gstv s i
  | .gpref s i
  | .aadd s i
  | .aand s i
  | .aor s i
  | .axor s i
  | .amin s i
  | .amax s i
  | .aminn s i
  | .amaxn s i
  | .aswp s i
  | .acas s i
  | .aaddf s i
  | .aaddW s i
  | .aandW s i
  | .aorW s i
  | .axorW s i
  | .aminW s i
  | .amaxW s i
  | .aminnW s i
  | .amaxnW s i
  | .aswpW s i
  | .acasW s i
  | .aaddfW s i => s.address && s.immOk i
  | .start s _ => s.scalarSrc && !s.usesImm
  | .idr n => decide (n.toNat ≤ 18)
  | .vadd d a b
  | .vsub d a b
  | .vmul d a b
  | .vfma d a b
  | .vfms d a b
  | .vmin d a b
  | .vmax d a b
  | .vaxpy d a b
  | .vdiv d a b
  | .vceq d a b
  | .vclt d a b
  | .vcle d a b
  | .vsel d a b
  | .vdot d a b
  | .vqnt d a b
  | .vdeq d a b => d.blockDst && a.blockSrc && b.blockSrc
  | .vabs d a
  | .vneg d a
  | .vscl d a
  | .vsqrt d a
  | .vmov d a
  | .vbcast d a
  | .vexp2 d a
  | .vlog2 d a
  | .vrcp d a
  | .vrsqrt d a
  | .vsinpi d a
  | .vcospi d a
  | .vtanh d a
  | .vsigm d a
  | .verf d a
  | .vradd d a
  | .vrmax d a
  | .vrmin d a
  | .vcmpr d a
  | .vcvt d a
  | .vscal d a => d.blockDst && a.blockSrc
  | .vand d a b
  | .vor d a b
  | .vxor d a b
  | .vandn d a b
  | .vshl d a b
  | .vshr d a b
  | .vsar d a b => d.blockDst && a.blockDst && b.blockSrc
  | .vmsk a => a.blockDst
  | .vperm d a b => d.blockDst && a.blockSrc && b.blockDst
  | .vgath d a b => d.blockDst && a.memMode && b.blockDst
  | .vscat d a b => d.memMode && a.blockSrc && b.blockDst
  | .vpack d a => d.blockDst && a.memMode
  | .vunpk d a
  | .vaadd d a
  | .vamin d a
  | .vamax d a => d.memMode && a.blockSrc
  | .qsub _ s i => s.address && s.immOk i
  | .mm _ _ _ r => decide (r.toNat ≤ 4)
  | .mmx _ x y r _ _ => decide (r.toNat ≤ 4) && !(x >>> 1 == y >>> 1)
  | .cadd _ _ r => decide (r.toNat ≤ 4)
  | .cpy _ s i
  | .cpyr _ s i => s.address && s.immOk i
  | .vaaddS d a b
  | .vaminS d a b
  | .vamaxS d a b => d.memMode && a.blockSrc && b.memMode
  | .watch s i
  | .watchRm s i
  | .barr s i
  | .barw s i
  | .sig s i
  | .sigw s i
  | .sigm s i
  | .renew s i
  | .life s i
  | .anchor s i
  | .hinfo s i
  | .dmap s i
  | .spull s i => s.address && s.immOk i
  | .lk _ s i => s.address && s.immOk i
  | .twait k
  | .tread k => decide (k.toNat ≤ 4)
  | .fence _ s => decide (s.toNat ≤ 4)
  | .grant k s i => s.address && s.immOk i && (k == 2 || k == 3 || k == 5 || k == 6)
  | .dsbind _ s i
  | .dsend _ s i
  | .fsig _ s i => s.address && s.immOk i
  | .fsendv _ s _ => s.memMode
  | .mfs r
  | .mts r => sysregAssigned r.toNat
  | .smpl n => decide (n.toNat ≤ 10)
  | .ldDShort s i
  | .addShort s i
  | .subShort s i
  | .andShort s i
  | .orShort s i
  | .xorShort s i
  | .cmpShort s i
  | .ldWShort s i
  | .shlShort s i
  | .shrShort s i
  | .mulShort s i => s.scalarSrc && s.immOk i
  | .stDShort s i
  | .stWShort s i
  | .xchShort s i => s.scalarDst && s.immOk i
  | .vaddShort d s => !(d == .mem 0 && s == .mem 0)
  | .li _ _
  | .lsh _ _
  | .addi _ _
  | .pstep _ _
  | .padd _
  | .pspc _
  | .pinc _
  | .sget _
  | .b _
  | .bz _
  | .bnz _
  | .bn _
  | .bnn _
  | .bc _
  | .bnc _
  | .bv _
  | .bnv _
  | .bf _
  | .bnf _
  | .bgt _
  | .ble _
  | .bge _
  | .blt _
  | .call _
  | .loop _
  | .qstat _
  | .tld _ _ _
  | .tstTile _ _ _
  | .tcfg _
  | .tcfr _
  | .tzero _
  | .tmov _ _
  | .cclr _ _
  | .crd _ _ _ _
  | .cwr _ _ _ _
  | .cstat _
  | .cstatR _
  | .cstatC _
  | .cscl _ _
  | .wtok _
  | .ttok _
  | .tokr _
  | .cbar _
  | .fsend _
  | .fseek _
  | .allw _
  | .bal _ _ _
  | .bnal _ _ _
  | .trap _
  | .trc _
  | .dbgh _
  | .paddShort _
  | .vsubShort _ _
  | .vmulShort _ _
  | .vfmaShort _ _
  | .vminShort _ _
  | .vmaxShort _ _
  | .vmovShort _ _
  | .vandShort _ _
  | .vorShort _ _
  | .vxorShort _ _
  | .vabsShort _ _
  | .vnegShort _ _
  | .vselShort _ _
  | .vcvtShort _ _
  | .vshlShort _ _
  | .vshrShort _ _
  | .ret
  | .endSlot
  | .yield
  | .live
  | .fget
  | .watchClr
  | .sleep
  | .bfence
  | .isync
  | .hgen
  | .rti
  | .wfi
  | .icinv
  | .icinvAll
  | .ssave
  | .srest
  | .brk
  | .abortWrite _
  | .bellWrite _
  | .debugRequestWrite
  | .traceControlWrite _
  | .traceCountRead
  | .traceSample _
  | .watchpointRemoteHalt _
  | .stepCountHalt _
  | .queueKick _ _
  | .queuePoll _ _
  | .queueEnable _ _ _
  | .queueDisable _ _
  | .completionHeadWrite _ _ _
  | .bar0RegisterWrite _ _ _
  | .completionEntryWrite _ _
  | .msixCoalesceTimeout _ _
  | .contextGrant _
  | .contextRenew _
  | .contextEnd _
  | .memoryGrantNew _
  | .memoryGrantChange _
  | .launchGraph _
  | .copyPacket _
  | .signalAdd _
  | .signalWait _
  | .signalWaitTimeout _
  | .debugHold _
  | .debugRelease _
  | .fwAttest _
  | .fwTimeSlice _
  | .fwPowerPolicySet _
  | .fwPowerStatus _
  | .fwRouteTable _
  | .fwIslandService _
  | .fwIdentity _
  | .fwFirmwareUpdate _
  | .fwGingham _
  | .ginghamLatch
  | .bar2Read _ _ _
  | .bar2Write _ _ _
  | .nodeReady _ _
  | .gangPlace _
  | .timeSliceExpiry _ _
  | .preemptRequest _ _
  | .preemptDrainEnd _
  | .saveImageComplete _
  | .gangRestore _
  | .leaseLapse _ _
  | .homeRequest _
  | .homeReply _ _ _
  | .revocationApply _ _
  | .rangeScrubDone _ _
  | .dtBeacon _
  | .pathSourceDiscard _
  | .memoryReply _ _ _
  | .stationAccess _
  | .pageMigration _ _ _
  | .migrationWbTimeout _ _
  | .patrolScrub _ _
  | .copyAccept _
  | .copySector _
  | .copyComplete _
  | .quantCommandRun _
  | .quantCommandComplete _
  | .faultRecordForward _
  | .supervisorMessage _
  | .mirrorWrite _
  | .icacheFill _ _
  | .icacheInvalidateArrival _
  | .chunkStepComplete _
  | .residueReplay _ _ _
  | .damaskStep _ _ _ _ _ _ _ _ _
  | .flitReceive _
  | .remoteRequestArrival _
  | .unorderedResendTimeout _
  | .pathMessageArrival _
  | .fsigArrival _
  | .stubOfferArrival _
  | .ackArrival _
  | .goBackArrival _ _
  | .holdNoticeArrival _
  | .pathResendTimeout _
  | .pullRequestArrival _ _ _
  | .pullDataArrival _ _ _ _
  | .stubLinkArrival _ _
  | .pinCompletionArrival _
  | .pinExpiry _
  | .coldReset
  | .functionLevelReset _
  | .powerPeriod _
  | .thermalPeriod _
  | .islandStepChange _ _
  | .tileTransferComplete _ _
  | .reservedEncodingIssue
  | .fetchSpaceFault => true

/-- The property the checks decide. -/
abbrev Instr.WellFormed (i : Instr) : Prop := wfBool i = true

end Sys2Proof
end

