-- ==== Sys2Proof/Decode.lean ====
section
/-!
DEFINITION. The decoder, total on any bytes, and the encoder, both written from the formats of 03 R22 to R38 and the
opcode map of 03 R41. The decoder is marked noncomputable for one reason only: Lean's compiled code cannot build a constructor
with fields beyond number 244 of a type, and Instr has more (its kernel can, and evaluates the decoder on numerals). A word that names no instruction, or an ill-formed one, is refused (03 R43).
-/
namespace Sys2Proof

/-- 03 R27. -/
def Spec.decode (b : BitVec 6) : Option Spec :=
  let n := b.extractLsb' 0 3
  match (b.extractLsb' 3 3).toNat with
  | 0 => some (.ptr n)
  | 1 => some (.mem n)
  | 2 => some (.post n)
  | 3 => some (.disp n)
  | 4 => some (.pre n)
  | 5 => match n.toNat with
    | 0 | 1 | 2 | 3 => some (.queue (b.extractLsb' 0 2))
    | 4 => some .nxt
    | 5 => some .prv
    | 6 => some .acc
    | _ => none
  | 6 => if n = 0 then some .imm else none
  | _ => none

/-- 03 R27. -/
def Spec.encode : Spec → BitVec 6
  | .ptr n => 0b000#3 ++ n
  | .mem n => 0b001#3 ++ n
  | .post n => 0b010#3 ++ n
  | .disp n => 0b011#3 ++ n
  | .pre n => 0b100#3 ++ n
  | .queue k => 0b1010#4 ++ k
  | .nxt => 0b101100#6
  | .prv => 0b101101#6
  | .acc => 0b101110#6
  | .imm => 0b110000#6

/-- 03 R37. -/
def ShortSpec.decode (b : BitVec 5) : Option ShortSpec :=
  let n := b.extractLsb' 0 3
  match (b.extractLsb' 3 2).toNat with
  | 0 => some (.mem n)
  | 1 => some (.post n)
  | 2 => some (.pre n)
  | _ => match n.toNat with
    | 0 | 1 | 2 | 3 => some (.queue (b.extractLsb' 0 2))
    | 4 => some .nxt
    | 5 => some .prv
    | _ => none

/-- 03 R37. -/
def ShortSpec.encode : ShortSpec → BitVec 5
  | .mem n => 0b00#2 ++ n
  | .post n => 0b01#2 ++ n
  | .pre n => 0b10#2 ++ n
  | .queue k => 0b110#3 ++ k
  | .nxt => 0b11100#5
  | .prv => 0b11101#5

/-- 03 R24: 0 is a, 1 to 8 are p0 to p7, 9 is lc. -/
def ImmDst.decode (b : BitVec 4) : Option ImmDst :=
  if b = 0 then some .acc
  else if b.toNat ≤ 8 then some (.ptr ((b - 1).extractLsb' 0 3))
  else if b = 9 then some .lc
  else none

/-- 03 R24. -/
def ImmDst.encode : ImmDst → BitVec 4
  | .acc => 0
  | .ptr n => n.zeroExtend 4 + 1
  | .lc => 9

/-- ALU, major 1 (03 R41). -/
def decAlu (fn : Nat) (s : Spec) (i : BitVec 13) : Option Instr :=
  match fn with
  | 0 => some (.add s i)
  | 1 => some (.adc s i)
  | 2 => some (.sub s i)
  | 3 => some (.sbc s i)
  | 4 => some (.rsub s i)
  | 5 => some (.and s i)
  | 6 => some (.or s i)
  | 7 => some (.xor s i)
  | 8 => some (.andn s i)
  | 9 => some (.shl s i)
  | 10 => some (.shr s i)
  | 11 => some (.sar s i)
  | 12 => some (.rol s i)
  | 13 => some (.min s i)
  | 14 => some (.max s i)
  | 15 => some (.minn s i)
  | 16 => some (.maxn s i)
  | 17 => some (.cmp s i)
  | 18 => some (.tst s i)
  | 19 => some (.neg s i)
  | 20 => some (.not s i)
  | _ => none

/-- MULBIT, major 2 (03 R41). -/
def decMulbit (fn : Nat) (s : Spec) (i : BitVec 13) : Option Instr :=
  match fn with
  | 0 => some (.mul s i)
  | 1 => some (.mulh s i)
  | 2 => some (.mulhn s i)
  | 3 => some (.div s i)
  | 4 => some (.divn s i)
  | 5 => some (.rem s i)
  | 6 => some (.remn s i)
  | 7 => some (.clz s i)
  | 8 => some (.ctz s i)
  | 9 => some (.popc s i)
  | 10 => some (.bswap s i)
  | 11 => some (.sext s i)
  | 12 => some (.zext s i)
  | 13 => some (.bext s i)
  | 14 => some (.bins s i)
  | _ => none

/-- LD, major 3 (03 R41). -/
def decLd (fn : Nat) (s : Spec) (i : BitVec 13) : Option Instr :=
  match fn with
  | 0 => some (.ldB s i)
  | 1 => some (.ldH s i)
  | 2 => some (.ldW s i)
  | 3 => some (.ldD s i)
  | 4 => some (.ldSb s i)
  | 5 => some (.ldSh s i)
  | 6 => some (.ldSw s i)
  | _ => none

/-- ST, major 4 (03 R41). -/
def decSt (fn : Nat) (s : Spec) (i : BitVec 13) : Option Instr :=
  match fn with
  | 0 => some (.stB s i)
  | 1 => some (.stH s i)
  | 2 => some (.stW s i)
  | 3 => some (.stD s i)
  | _ => none

/-- MOVE, major 5 (03 R41). -/
def decMove (fn : Nat) (s : Spec) (i : BitVec 13) : Option Instr :=
  match fn with
  | 0 => some (.xch s i)
  | 1 => some (.lea s i)
  | _ => none

/-- PTR, major 7: S names a pointer as a value (04 R64). -/
def decPtr (fn : Nat) (s : Spec) (i : BitVec 13) : Option Instr :=
  match fn with
  | 0 => match s with | .ptr n => some (.pstep n i) | _ => none
  | 1 => match s with | .ptr n => if i = 0 then some (.padd n) else none | _ => none
  | 2 => match s with | .ptr n => if i = 0 then some (.pspc n) else none | _ => none
  | 3 => match s with | .ptr n => if i = 0 then some (.pinc n) else none | _ => none
  | 4 => match s with | .ptr n => if i = 0 then some (.sget n) else none | _ => none
  | _ => none

/-- JMP, major 11; ret has S 0b010111 and imm13 zero (05 R69). -/
def decJmp (fn : Nat) (s : Spec) (i : BitVec 13) : Option Instr :=
  match fn with
  | 0 => some (.jmp s i)
  | 1 => some (.jsr s i)
  | 2 => if s = .post 7 ∧ i = 0 then some .ret else none
  | 3 => some (.lcset s i)
  | _ => none

/-- THREAD, major 12 (05 R76 to R81). -/
def decThread (fn : Nat) (s : Spec) (i : BitVec 13) : Option Instr :=
  match fn with
  | 0 => some (.start s i)
  | 1 => if s = .ptr 0 ∧ i = 0 then some .endSlot else none
  | 2 => if s = .ptr 0 ∧ i = 0 then some .yield else none
  | 3 => if s = .ptr 0 then some (.idr i) else none
  | 4 => if s = .ptr 0 ∧ i = 0 then some .live else none
  | _ => none

/-- DESC, major 21 (07 R128). -/
def decDesc (fn : Nat) (s : Spec) (i : BitVec 13) : Option Instr :=
  match fn with
  | 0 => some (.dget s i)
  | 1 => some (.dset s i)
  | 2 => some (.dchk s i)
  | 3 => some (.fset s i)
  | 4 => if s = .ptr 0 ∧ i = 0 then some .fget else none
  | _ => none

/-- GMEM, major 28 (09 R174). -/
def decGmem (fn : Nat) (s : Spec) (i : BitVec 13) : Option Instr :=
  match fn with
  | 0 => some (.gldv s i)
  | 1 => some (.gstv s i)
  | 2 => some (.gpref s i)
  | _ => none

/-- AMO, major 32 (10 R197). -/
def decAmo (fn : Nat) (s : Spec) (i : BitVec 13) : Option Instr :=
  match fn with
  | 0 => some (.aadd s i)
  | 1 => some (.aand s i)
  | 2 => some (.aor s i)
  | 3 => some (.axor s i)
  | 4 => some (.amin s i)
  | 5 => some (.amax s i)
  | 6 => some (.aminn s i)
  | 7 => some (.amaxn s i)
  | 8 => some (.aswp s i)
  | 9 => some (.acas s i)
  | 10 => some (.aaddf s i)
  | 16 => some (.aaddW s i)
  | 17 => some (.aandW s i)
  | 18 => some (.aorW s i)
  | 19 => some (.axorW s i)
  | 20 => some (.aminW s i)
  | 21 => some (.amaxW s i)
  | 22 => some (.aminnW s i)
  | 23 => some (.amaxnW s i)
  | 24 => some (.aswpW s i)
  | 25 => some (.acasW s i)
  | 26 => some (.aaddfW s i)
  | _ => none

/-- LANEA, major 16 (08 R154); one-source forms have S2 zero (03 R38). -/
def decLanea (fn : Nat) (d a b : Spec) : Option Instr :=
  match fn with
  | 0 => some (.vadd d a b)
  | 1 => some (.vsub d a b)
  | 2 => some (.vmul d a b)
  | 3 => some (.vfma d a b)
  | 4 => some (.vfms d a b)
  | 5 => some (.vmin d a b)
  | 6 => some (.vmax d a b)
  | 7 => if b = .ptr 0 then some (.vabs d a) else none
  | 8 => if b = .ptr 0 then some (.vneg d a) else none
  | 9 => some (.vaxpy d a b)
  | 10 => if b = .ptr 0 then some (.vscl d a) else none
  | 11 => some (.vdiv d a b)
  | 12 => if b = .ptr 0 then some (.vsqrt d a) else none
  | _ => none

/-- LANEL, major 17 (08 R158, R159). -/
def decLanel (fn : Nat) (d a b : Spec) : Option Instr :=
  match fn with
  | 0 => some (.vand d a b)
  | 1 => some (.vor d a b)
  | 2 => some (.vxor d a b)
  | 3 => some (.vandn d a b)
  | 4 => some (.vshl d a b)
  | 5 => some (.vshr d a b)
  | 6 => some (.vsar d a b)
  | 7 => some (.vceq d a b)
  | 8 => some (.vclt d a b)
  | 9 => some (.vcle d a b)
  | 10 => some (.vsel d a b)
  | 11 => if b = .ptr 0 then some (.vmov d a) else none
  | 12 => if b = .ptr 0 then some (.vbcast d a) else none
  | 13 => if d = .ptr 0 ∧ b = .ptr 0 then some (.vmsk a) else none
  | _ => none

/-- LANES, major 18 (08 R157). -/
def decLanes (fn : Nat) (d a b : Spec) : Option Instr :=
  match fn with
  | 0 => if b = .ptr 0 then some (.vexp2 d a) else none
  | 1 => if b = .ptr 0 then some (.vlog2 d a) else none
  | 2 => if b = .ptr 0 then some (.vrcp d a) else none
  | 3 => if b = .ptr 0 then some (.vrsqrt d a) else none
  | 4 => if b = .ptr 0 then some (.vsinpi d a) else none
  | 5 => if b = .ptr 0 then some (.vcospi d a) else none
  | 6 => if b = .ptr 0 then some (.vtanh d a) else none
  | 7 => if b = .ptr 0 then some (.vsigm d a) else none
  | 8 => if b = .ptr 0 then some (.verf d a) else none
  | _ => none

/-- LANEP, major 19 (08 R160 to R162). -/
def decLanep (fn : Nat) (d a b : Spec) : Option Instr :=
  match fn with
  | 0 => if b = .ptr 0 then some (.vradd d a) else none
  | 1 => if b = .ptr 0 then some (.vrmax d a) else none
  | 2 => if b = .ptr 0 then some (.vrmin d a) else none
  | 3 => some (.vdot d a b)
  | 4 => some (.vperm d a b)
  | 5 => some (.vgath d a b)
  | 6 => some (.vscat d a b)
  | 7 => if b = .ptr 0 then some (.vcmpr d a) else none
  | _ => none

/-- FORMAT, major 20 (07 R134). -/
def decFormat (fn : Nat) (d a b : Spec) : Option Instr :=
  match fn with
  | 0 => if b = .ptr 0 then some (.vcvt d a) else none
  | 1 => if b = .ptr 0 then some (.vscal d a) else none
  | 2 => some (.vqnt d a b)
  | 3 => some (.vdeq d a b)
  | 4 => if b = .ptr 0 then some (.vpack d a) else none
  | 5 => if b = .ptr 0 then some (.vunpk d a) else none
  | _ => none

/-- VAMO, major 33 (10 R199). -/
def decVamo (fn : Nat) (d a b : Spec) : Option Instr :=
  match fn with
  | 0 => if b = .ptr 0 then some (.vaadd d a) else none
  | 1 => if b = .ptr 0 then some (.vamin d a) else none
  | 2 => if b = .ptr 0 then some (.vamax d a) else none
  | 3 => some (.vaaddS d a b)
  | 4 => some (.vaminS d a b)
  | 5 => some (.vamaxS d a b)
  | _ => none

/-- QUANT, major 22 (07 R147, R149). -/
def decQuant (fn : Nat) (s : Spec) (t : BitVec 5) (i : BitVec 8) : Option Instr :=
  match fn with
  | 0 => if t.toNat < 4 then some (.qsub (t.extractLsb' 0 2) s i) else none
  | 1 => if s = .ptr 0 ∧ i = 0 ∧ t.toNat < 4 then some (.qstat (t.extractLsb' 0 2)) else none
  | _ => none

/-- COPY, major 29 (09 R185). -/
def decCopy (fn : Nat) (s : Spec) (t : BitVec 5) (i : BitVec 8) : Option Instr :=
  match fn with
  | 0 => if t.toNat < 8 then some (.cpy (t.extractLsb' 0 3) s i) else none
  | 1 => if t.toNat < 8 then some (.cpyr (t.extractLsb' 0 3) s i) else none
  | 2 => if s = .ptr 0 ∧ t = 0 then some (.wtok i) else none
  | 3 => if s = .ptr 0 ∧ i = 0 ∧ t.toNat < 8 then some (.ttok (t.extractLsb' 0 3)) else none
  | 4 => if s = .ptr 0 ∧ i = 0 ∧ t.toNat < 8 then some (.tokr (t.extractLsb' 0 3)) else none
  | _ => none

/-- SYNC, major 34 (10 R204 to R215). -/
def decSync (fn : Nat) (s : Spec) (t : BitVec 5) (i : BitVec 8) : Option Instr :=
  match fn with
  | 0 => match t.toNat with
    | 0 => some (.watch s i)
    | 1 => some (.watchRm s i)
    | 2 => if s = .ptr 0 ∧ i = 0 then some .watchClr else none
    | _ => none
  | 1 => if s = .ptr 0 ∧ i = 0 ∧ t = 0 then some .sleep else none
  | 2 => if s = .ptr 0 ∧ i = 0 ∧ t.toNat < 4 then some (.cbar (t.extractLsb' 0 2)) else none
  | 3 => if t = 0 then some (.barr s i) else none
  | 4 => if t = 0 then some (.barw s i) else none
  | 5 => if t = 0 then some (.sig s i) else none
  | 6 => if t = 0 then some (.sigw s i) else none
  | 7 => if t = 0 then some (.sigm s i) else none
  | 8 => if t.toNat < 2 then some (.lk (t.extractLsb' 0 1) s i) else none
  | 9 => if s = .ptr 0 ∧ i = 0 then some (.twait t) else none
  | 10 => if s = .ptr 0 ∧ i = 0 then some (.tread t) else none
  | _ => none

/-- LEASE, major 36 (06 R102). -/
def decLease (fn : Nat) (s : Spec) (t : BitVec 5) (i : BitVec 8) : Option Instr :=
  match fn with
  | 0 => some (.grant t s i)
  | 1 => if t = 0 then some (.renew s i) else none
  | 2 => if t = 0 then some (.life s i) else none
  | 3 => if s = .ptr 0 ∧ i = 0 ∧ t = 0 then some .hgen else none
  | 4 => if t = 0 then some (.anchor s i) else none
  | 5 => if t = 0 then some (.hinfo s i) else none
  | _ => none

/-- FABRIC, major 40 (16 R301). -/
def decFabric (fn : Nat) (s : Spec) (t : BitVec 5) (i : BitVec 8) : Option Instr :=
  match fn with
  | 0 => if t.toNat < 16 then some (.dsbind (t.extractLsb' 0 4) s i) else none
  | 1 => if s = .ptr 0 ∧ i = 0 ∧ t.toNat < 16 then some (.fsend (t.extractLsb' 0 4)) else none
  | 2 => if i.toNat < 64 ∧ t.toNat < 16 then some (.fsendv (t.extractLsb' 0 4) s (i.extractLsb' 0 6)) else none
  | 3 => if s = .ptr 0 ∧ i = 0 ∧ t.toNat < 16 then some (.fseek (t.extractLsb' 0 4)) else none
  | 4 => if s = .ptr 0 ∧ i = 0 ∧ t.toNat < 16 then some (.allw (t.extractLsb' 0 4)) else none
  | 5 => if t.toNat < 16 then some (.dsend (t.extractLsb' 0 4) s i) else none
  | 6 => if t = 0 then some (.dmap s i) else none
  | 7 => if t = 0 then some (.spull s i) else none
  | 8 => if t.toNat < 16 then some (.fsig (t.extractLsb' 0 4) s i) else none
  | _ => none

/-- TILE, major 24 (13 R242). -/
def decTile (fn : Nat) (c x y r : BitVec 3) (i : BitVec 10) : Option Instr :=
  match fn with
  | 0 => if c = 0 ∧ y = 0 ∧ r = 0 ∧ i.extractLsb' 4 6 = 0 then some (.tld x (i.getLsbD 3) (i.extractLsb' 0 3)) else none
  | 1 => if c = 0 ∧ y = 0 ∧ r = 0 ∧ i.extractLsb' 4 6 = 0 then some (.tstTile x (i.getLsbD 3) (i.extractLsb' 0 3)) else none
  | 2 => if c = 0 ∧ y = 0 ∧ r = 0 ∧ i = 0 then some (.tcfg x) else none
  | 3 => if c = 0 ∧ y = 0 ∧ r = 0 ∧ i = 0 then some (.tcfr x) else none
  | 4 => if c = 0 ∧ y = 0 ∧ r = 0 ∧ i = 0 then some (.tzero x) else none
  | 5 => if c = 0 ∧ r = 0 ∧ i = 0 then some (.tmov x y) else none
  | _ => none

/-- MATRIX, major 25 (13 R249). -/
def decMatrix (fn : Nat) (c x y r : BitVec 3) (i : BitVec 10) : Option Instr :=
  match fn with
  | 0 => if i = 0 then some (.mm c x y r) else none
  | 1 => if i.extractLsb' 6 4 = 0 then some (.mmx c x y r (i.extractLsb' 0 3) (i.extractLsb' 3 3)) else none
  | _ => none

/-- ACC, major 26 (13 R260). -/
def decAcc (fn : Nat) (c x y r : BitVec 3) (i : BitVec 10) : Option Instr :=
  match fn with
  | 0 => if x = 0 ∧ y = 0 ∧ r = 0 ∧ i.extractLsb' 2 8 = 0 then some (.cclr c (i.extractLsb' 0 2)) else none
  | 1 => if x = 0 ∧ y = 0 ∧ r = 0 then some (.crd c (i.getLsbD 3) (i.extractLsb' 0 3) (i.extractLsb' 4 6)) else none
  | 2 => if x = 0 ∧ y = 0 ∧ r = 0 then some (.cwr c (i.getLsbD 3) (i.extractLsb' 0 3) (i.extractLsb' 4 6)) else none
  | 3 => if y = 0 ∧ i = 0 then some (.cadd c x r) else none
  | 4 => if x = 0 ∧ y = 0 ∧ r = 0 then (match i.toNat with
    | 0 => some (.cstat c)
    | 1 => some (.cstatR c)
    | 2 => some (.cstatC c)
    | _ => none) else none
  | 5 => if x = 0 ∧ y = 0 ∧ r = 0 then some (.cscl c i) else none
  | _ => none

/-- SYS, major 48 (15 R277). -/
def decSys (fn : Nat) (n : BitVec 12) (i : BitVec 7) : Option Instr :=
  match fn with
  | 0 => if i = 0 then some (.mfs n) else none
  | 1 => if i = 0 then some (.mts n) else none
  | 2 => if n = 0 then some (.trap i) else none
  | 3 => if n = 0 ∧ i = 0 then some .rti else none
  | 4 => if n = 0 ∧ i = 0 then some .wfi else none
  | 5 => if n = 0 then (match i.toNat with
    | 0 => some .icinv
    | 1 => some .icinvAll
    | _ => none) else none
  | 6 => if n = 0 ∧ i = 0 then some .ssave else none
  | 7 => if n = 0 ∧ i = 0 then some .srest else none
  | _ => none

/-- DEBUG, major 49 (21 R353). -/
def decDebug (fn : Nat) (n : BitVec 12) (i : BitVec 7) : Option Instr :=
  match fn with
  | 0 => if n = 0 then some (.trc i) else none
  | 1 => if n = 0 then some (.dbgh i) else none
  | 2 => if n = 0 then some (.smpl i) else none
  | _ => none

/-- BCC, major 8, by cond4 (03 R40). -/
def decBcc (fn : Nat) (d : BitVec 21) : Option Instr :=
  match fn with
  | 0 => some (.b d)
  | 1 => some (.bz d)
  | 2 => some (.bnz d)
  | 3 => some (.bn d)
  | 4 => some (.bnn d)
  | 5 => some (.bc d)
  | 6 => some (.bnc d)
  | 7 => some (.bv d)
  | 8 => some (.bnv d)
  | 9 => some (.bf d)
  | 10 => some (.bnf d)
  | 11 => some (.bgt d)
  | 12 => some (.ble d)
  | 13 => some (.bge d)
  | 14 => some (.blt d)
  | _ => none

/-- IMM, major 6, by kind (03 R24). -/
def decImm (fn : Nat) (e : ImmDst) (i : BitVec 19) : Option Instr :=
  match fn with
  | 0 => some (.li e i)
  | 1 => some (.lsh e i)
  | 2 => some (.addi e i)
  | _ => none

/-- FENCE, major 35, by kind (03 R25). -/
def decFence (fn : Nat) (s : BitVec 3) (o : BitVec 2) (z : BitVec 18) : Option Instr :=
  match fn with
  | 0 => if z = 0 then some (.fence o s) else none
  | 1 => if z = 0 ∧ s = 0 ∧ o = 0 then some .bfence else none
  | 2 => if z = 0 ∧ s = 0 ∧ o = 0 then some .isync else none
  | _ => none

/-- The scalar short word, by op4; op4 15 is brk's (03 R35, R36). -/
def decShort (fn : Nat) (s : Spec) (i : BitVec 4) : Option Instr :=
  match fn with
  | 0 => some (.ldDShort s i)
  | 1 => some (.stDShort s i)
  | 2 => some (.addShort s i)
  | 3 => some (.subShort s i)
  | 4 => some (.andShort s i)
  | 5 => some (.orShort s i)
  | 6 => some (.xorShort s i)
  | 7 => some (.cmpShort s i)
  | 8 => some (.ldWShort s i)
  | 9 => some (.stWShort s i)
  | 10 => some (.shlShort s i)
  | 11 => some (.shrShort s i)
  | 12 => some (.mulShort s i)
  | 13 => some (.xchShort s i)
  | 14 => match s with | .ptr n => if i = 0 then some (.paddShort n) else none | _ => none
  | _ => none

/-- The lane short word, by op4 (03 R38). -/
noncomputable def decLaneShort (fn : Nat) (d s : ShortSpec) : Option Instr :=
  match fn with
  | 0 => some (.vaddShort d s)
  | 1 => some (.vsubShort d s)
  | 2 => some (.vmulShort d s)
  | 3 => some (.vfmaShort d s)
  | 4 => some (.vminShort d s)
  | 5 => some (.vmaxShort d s)
  | 6 => some (.vmovShort d s)
  | 7 => some (.vandShort d s)
  | 8 => some (.vorShort d s)
  | 9 => some (.vxorShort d s)
  | 10 => some (.vabsShort d s)
  | 11 => some (.vnegShort d s)
  | 12 => some (.vselShort d s)
  | 13 => some (.vcvtShort d s)
  | 14 => some (.vshlShort d s)
  | 15 => some (.vshrShort d s)
  | _ => none

/-- The instruction a 32-bit word names, before the checks of roles and ranges (03 R22, R41). -/
def decodeRaw32 (w : BitVec 32) : Option Instr :=
  let fn := (w.extractLsb' 13 6).toNat
  let i13 := w.extractLsb' 19 13
  let opA (k : Nat → Spec → BitVec 13 → Option Instr) : Option Instr :=
    (Spec.decode (w.extractLsb' 7 6)).bind fun s => k fn s i13
  let opV (k : Nat → Spec → Spec → Spec → Option Instr) : Option Instr :=
    (Spec.decode (w.extractLsb' 7 6)).bind fun d =>
    (Spec.decode (w.extractLsb' 13 6)).bind fun a =>
    (Spec.decode (w.extractLsb' 19 6)).bind fun b => k (w.extractLsb' 25 7).toNat d a b
  let opE (k : Nat → Spec → BitVec 5 → BitVec 8 → Option Instr) : Option Instr :=
    (Spec.decode (w.extractLsb' 7 6)).bind fun s =>
    k (w.extractLsb' 18 6).toNat s (w.extractLsb' 13 5) (w.extractLsb' 24 8)
  let opT (k : Nat → BitVec 3 → BitVec 3 → BitVec 3 → BitVec 3 → BitVec 10 → Option Instr) : Option Instr :=
    k (w.extractLsb' 19 3).toNat (w.extractLsb' 7 3) (w.extractLsb' 10 3) (w.extractLsb' 13 3) (w.extractLsb' 16 3)
      (w.extractLsb' 22 10)
  let opX (k : Nat → BitVec 12 → BitVec 7 → Option Instr) : Option Instr :=
    k (w.extractLsb' 19 6).toNat (w.extractLsb' 7 12) (w.extractLsb' 25 7)
  let cond := w.extractLsb' 7 4
  let d21 := w.extractLsb' 11 21
  match (w.extractLsb' 1 6).toNat with
  | 1 => opA decAlu
  | 2 => opA decMulbit
  | 3 => opA decLd
  | 4 => opA decSt
  | 5 => opA decMove
  | 6 => (ImmDst.decode cond).bind fun d => decImm (w.extractLsb' 11 2).toNat d (w.extractLsb' 13 19)
  | 7 => opA decPtr
  | 8 => decBcc cond.toNat d21
  | 9 => if cond = 0 then some (.call d21) else none
  | 10 => if cond = 0 then some (.loop d21) else none
  | 11 => opA decJmp
  | 12 => opA decThread
  | 16 => opV decLanea
  | 17 => opV decLanel
  | 18 => opV decLanes
  | 19 => opV decLanep
  | 20 => opV decFormat
  | 21 => opA decDesc
  | 22 => opE decQuant
  | 24 => opT decTile
  | 25 => opT decMatrix
  | 26 => opT decAcc
  | 28 => opA decGmem
  | 29 => opE decCopy
  | 32 => opA decAmo
  | 33 => opV decVamo
  | 34 => opE decSync
  | 35 => decFence (w.extractLsb' 12 2).toNat (w.extractLsb' 7 3) (w.extractLsb' 10 2) (w.extractLsb' 14 18)
  | 36 => opE decLease
  | 40 => opE decFabric
  | 41 => let k := w.extractLsb' 7 4
          let t := w.extractLsb' 11 3
          let d := w.extractLsb' 15 17
          if w.getLsbD 14 then some (.bnal k t d) else some (.bal k t d)
  | 48 => opX decSys
  | 49 => opX decDebug
  | _ => none

/-- The instruction a 16-bit word names, before the checks of roles (03 R35 to R38). -/
noncomputable def decodeRaw16 (h : BitVec 16) : Option Instr :=
  let op := (h.extractLsb' 2 4).toNat
  if h = 0xFFFE#16 then some .brk
  else if h.getLsbD 1 then
    (Spec.decode (h.extractLsb' 6 6)).bind fun s => decShort op s (h.extractLsb' 12 4)
  else
    (ShortSpec.decode (h.extractLsb' 6 5)).bind fun d =>
    (ShortSpec.decode (h.extractLsb' 11 5)).bind fun s => decLaneShort op d s

/-- Keep an instruction only when it is well formed (03 R43). -/
def keepWf (o : Option Instr) : Option Instr := o.filter wfBool

/-- The instruction of a 32-bit word; none is the illegal-instruction trap (03 R43). -/
def decode32 (w : BitVec 32) : Option Instr := keepWf (decodeRaw32 w)

/-- The instruction of a 16-bit word (03 R43). -/
noncomputable def decode16 (h : BitVec 16) : Option Instr := keepWf (decodeRaw16 h)

/-- Little-endian value of bytes (00 R3). -/
def leNat : List Byte → Nat
  | [] => 0
  | b :: bs => b.toNat + 256 * leNat bs

/-- Whether a word is 32 bits long: bit 0 of its first halfword (03 R19). -/
def isLong (h : BitVec 16) : Bool := h.getLsbD 0

/-- The instruction at the head of some bytes, with its length in bytes (03 R19). -/
noncomputable def decode (bs : List Byte) : Option (Instr × Nat) :=
  if bs.length < 2 then none
  else
    let h : BitVec 16 := BitVec.ofNat 16 (leNat (bs.take 2))
    if isLong h then
      if bs.length < 4 then none
      else (decode32 (BitVec.ofNat 32 (leNat (bs.take 4)))).map (·, 4)
    else (decode16 h).map (·, 2)

/-- n bytes of a number, little-endian (00 R3). -/
def leBytes : Nat → Nat → List Byte
  | 0, _ => []
  | n + 1, v => BitVec.ofNat 8 v :: leBytes n (v / 256)

/-- The instruction the decoder reads from a word whose bits are numbered as the opcode table numbers them: bit 0 is the
least significant bit of the first halfword, and bits above nbits are zero. -/
noncomputable def decodeTableWord (nbits w : Nat) : Option Instr := (decode (leBytes 4 (w % 2 ^ nbits))).map (·.1)

/-- What an instruction encodes to: nothing for a step that no word names, a 16-bit word, or a 32-bit word. -/
inductive Encoded where
  | none
  | half (h : BitVec 16)
  | full (w : BitVec 32)
  deriving DecidableEq, Repr

/-- Format A (03 R22). -/
def fmtA (major fn : BitVec 6) (s : BitVec 6) (i : BitVec 13) : Encoded := .full (i ++ fn ++ s ++ major ++ 1#1)

/-- Format B (03 R22). -/
def fmtB (major : BitVec 6) (cond : BitVec 4) (d : BitVec 21) : Encoded := .full (d ++ cond ++ major ++ 1#1)

/-- Format I (03 R22). -/
def fmtI (kind : BitVec 2) (d : BitVec 4) (i : BitVec 19) : Encoded := .full (i ++ kind ++ d ++ 6#6 ++ 1#1)

/-- Format V (03 R22). -/
def fmtV (major : BitVec 6) (fn : BitVec 7) (d a b : BitVec 6) : Encoded := .full (fn ++ b ++ a ++ d ++ major ++ 1#1)

/-- Format T (03 R22). -/
def fmtT (major : BitVec 6) (sub c x y r : BitVec 3) (i : BitVec 10) : Encoded :=
  .full (i ++ sub ++ r ++ y ++ x ++ c ++ major ++ 1#1)

/-- Format E (03 R22). -/
def fmtE (major fn : BitVec 6) (t : BitVec 5) (s : BitVec 6) (i : BitVec 8) : Encoded :=
  .full (i ++ fn ++ t ++ s ++ major ++ 1#1)

/-- Format X (03 R22). -/
def fmtX (major fn : BitVec 6) (n : BitVec 12) (i : BitVec 7) : Encoded := .full (i ++ fn ++ n ++ major ++ 1#1)

/-- Format F (03 R22). -/
def fmtF (kind o : BitVec 2) (s : BitVec 3) : Encoded := .full (0#18 ++ kind ++ o ++ s ++ 35#6 ++ 1#1)

/-- Format L (03 R22). -/
def fmtL (d : BitVec 17) (neg : BitVec 1) (t : BitVec 3) (k : BitVec 4) : Encoded :=
  .full (d ++ neg ++ t ++ k ++ 41#6 ++ 1#1)

/-- The scalar short word (03 R35). -/
def fmtS (op : BitVec 4) (s : BitVec 6) (i : BitVec 4) : Encoded := .half (i ++ s ++ op ++ 0b10#2)

/-- The lane short word (03 R37). -/
def fmtQ (op : BitVec 4) (d s : BitVec 5) : Encoded := .half (s ++ d ++ op ++ 0b00#2)

/-- The encoder (03 R22, R35, R37, R41): the word of a well-formed instruction. -/
def encode : Instr → Encoded
  | .add s i => fmtA 1 0 s.encode i
  | .adc s i => fmtA 1 1 s.encode i
  | .sub s i => fmtA 1 2 s.encode i
  | .sbc s i => fmtA 1 3 s.encode i
  | .rsub s i => fmtA 1 4 s.encode i
  | .and s i => fmtA 1 5 s.encode i
  | .or s i => fmtA 1 6 s.encode i
  | .xor s i => fmtA 1 7 s.encode i
  | .andn s i => fmtA 1 8 s.encode i
  | .shl s i => fmtA 1 9 s.encode i
  | .shr s i => fmtA 1 10 s.encode i
  | .sar s i => fmtA 1 11 s.encode i
  | .rol s i => fmtA 1 12 s.encode i
  | .min s i => fmtA 1 13 s.encode i
  | .max s i => fmtA 1 14 s.encode i
  | .minn s i => fmtA 1 15 s.encode i
  | .maxn s i => fmtA 1 16 s.encode i
  | .cmp s i => fmtA 1 17 s.encode i
  | .tst s i => fmtA 1 18 s.encode i
  | .neg s i => fmtA 1 19 s.encode i
  | .not s i => fmtA 1 20 s.encode i
  | .mul s i => fmtA 2 0 s.encode i
  | .mulh s i => fmtA 2 1 s.encode i
  | .mulhn s i => fmtA 2 2 s.encode i
  | .div s i => fmtA 2 3 s.encode i
  | .divn s i => fmtA 2 4 s.encode i
  | .rem s i => fmtA 2 5 s.encode i
  | .remn s i => fmtA 2 6 s.encode i
  | .clz s i => fmtA 2 7 s.encode i
  | .ctz s i => fmtA 2 8 s.encode i
  | .popc s i => fmtA 2 9 s.encode i
  | .bswap s i => fmtA 2 10 s.encode i
  | .sext s i => fmtA 2 11 s.encode i
  | .zext s i => fmtA 2 12 s.encode i
  | .bext s i => fmtA 2 13 s.encode i
  | .bins s i => fmtA 2 14 s.encode i
  | .ldB s i => fmtA 3 0 s.encode i
  | .ldH s i => fmtA 3 1 s.encode i
  | .ldW s i => fmtA 3 2 s.encode i
  | .ldD s i => fmtA 3 3 s.encode i
  | .ldSb s i => fmtA 3 4 s.encode i
  | .ldSh s i => fmtA 3 5 s.encode i
  | .ldSw s i => fmtA 3 6 s.encode i
  | .stB s i => fmtA 4 0 s.encode i
  | .stH s i => fmtA 4 1 s.encode i
  | .stW s i => fmtA 4 2 s.encode i
  | .stD s i => fmtA 4 3 s.encode i
  | .xch s i => fmtA 5 0 s.encode i
  | .lea s i => fmtA 5 1 s.encode i
  | .li d i => fmtI 0 d.encode i
  | .lsh d i => fmtI 1 d.encode i
  | .addi d i => fmtI 2 d.encode i
  | .pstep n i => fmtA 7 0 (Spec.ptr n).encode i
  | .padd n => fmtA 7 1 (Spec.ptr n).encode 0
  | .pspc n => fmtA 7 2 (Spec.ptr n).encode 0
  | .pinc n => fmtA 7 3 (Spec.ptr n).encode 0
  | .sget n => fmtA 7 4 (Spec.ptr n).encode 0
  | .b d => fmtB 8 0 d
  | .bz d => fmtB 8 1 d
  | .bnz d => fmtB 8 2 d
  | .bn d => fmtB 8 3 d
  | .bnn d => fmtB 8 4 d
  | .bc d => fmtB 8 5 d
  | .bnc d => fmtB 8 6 d
  | .bv d => fmtB 8 7 d
  | .bnv d => fmtB 8 8 d
  | .bf d => fmtB 8 9 d
  | .bnf d => fmtB 8 10 d
  | .bgt d => fmtB 8 11 d
  | .ble d => fmtB 8 12 d
  | .bge d => fmtB 8 13 d
  | .blt d => fmtB 8 14 d
  | .call d => fmtB 9 0 d
  | .loop d => fmtB 10 0 d
  | .jmp s i => fmtA 11 0 s.encode i
  | .jsr s i => fmtA 11 1 s.encode i
  | .lcset s i => fmtA 11 3 s.encode i
  | .start s i => fmtA 12 0 s.encode i
  | .idr n => fmtA 12 3 0 n
  | .vadd d a b => fmtV 16 0 d.encode a.encode b.encode
  | .vsub d a b => fmtV 16 1 d.encode a.encode b.encode
  | .vmul d a b => fmtV 16 2 d.encode a.encode b.encode
  | .vfma d a b => fmtV 16 3 d.encode a.encode b.encode
  | .vfms d a b => fmtV 16 4 d.encode a.encode b.encode
  | .vmin d a b => fmtV 16 5 d.encode a.encode b.encode
  | .vmax d a b => fmtV 16 6 d.encode a.encode b.encode
  | .vabs d a => fmtV 16 7 d.encode a.encode 0
  | .vneg d a => fmtV 16 8 d.encode a.encode 0
  | .vaxpy d a b => fmtV 16 9 d.encode a.encode b.encode
  | .vscl d a => fmtV 16 10 d.encode a.encode 0
  | .vdiv d a b => fmtV 16 11 d.encode a.encode b.encode
  | .vsqrt d a => fmtV 16 12 d.encode a.encode 0
  | .vand d a b => fmtV 17 0 d.encode a.encode b.encode
  | .vor d a b => fmtV 17 1 d.encode a.encode b.encode
  | .vxor d a b => fmtV 17 2 d.encode a.encode b.encode
  | .vandn d a b => fmtV 17 3 d.encode a.encode b.encode
  | .vshl d a b => fmtV 17 4 d.encode a.encode b.encode
  | .vshr d a b => fmtV 17 5 d.encode a.encode b.encode
  | .vsar d a b => fmtV 17 6 d.encode a.encode b.encode
  | .vceq d a b => fmtV 17 7 d.encode a.encode b.encode
  | .vclt d a b => fmtV 17 8 d.encode a.encode b.encode
  | .vcle d a b => fmtV 17 9 d.encode a.encode b.encode
  | .vsel d a b => fmtV 17 10 d.encode a.encode b.encode
  | .vmov d a => fmtV 17 11 d.encode a.encode 0
  | .vbcast d a => fmtV 17 12 d.encode a.encode 0
  | .vmsk a => fmtV 17 13 0 a.encode 0
  | .vexp2 d a => fmtV 18 0 d.encode a.encode 0
  | .vlog2 d a => fmtV 18 1 d.encode a.encode 0
  | .vrcp d a => fmtV 18 2 d.encode a.encode 0
  | .vrsqrt d a => fmtV 18 3 d.encode a.encode 0
  | .vsinpi d a => fmtV 18 4 d.encode a.encode 0
  | .vcospi d a => fmtV 18 5 d.encode a.encode 0
  | .vtanh d a => fmtV 18 6 d.encode a.encode 0
  | .vsigm d a => fmtV 18 7 d.encode a.encode 0
  | .verf d a => fmtV 18 8 d.encode a.encode 0
  | .vradd d a => fmtV 19 0 d.encode a.encode 0
  | .vrmax d a => fmtV 19 1 d.encode a.encode 0
  | .vrmin d a => fmtV 19 2 d.encode a.encode 0
  | .vdot d a b => fmtV 19 3 d.encode a.encode b.encode
  | .vperm d a b => fmtV 19 4 d.encode a.encode b.encode
  | .vgath d a b => fmtV 19 5 d.encode a.encode b.encode
  | .vscat d a b => fmtV 19 6 d.encode a.encode b.encode
  | .vcmpr d a => fmtV 19 7 d.encode a.encode 0
  | .vcvt d a => fmtV 20 0 d.encode a.encode 0
  | .vscal d a => fmtV 20 1 d.encode a.encode 0
  | .vqnt d a b => fmtV 20 2 d.encode a.encode b.encode
  | .vdeq d a b => fmtV 20 3 d.encode a.encode b.encode
  | .vpack d a => fmtV 20 4 d.encode a.encode 0
  | .vunpk d a => fmtV 20 5 d.encode a.encode 0
  | .dget s i => fmtA 21 0 s.encode i
  | .dset s i => fmtA 21 1 s.encode i
  | .dchk s i => fmtA 21 2 s.encode i
  | .fset s i => fmtA 21 3 s.encode i
  | .qsub k s i => fmtE 22 0 (k.zeroExtend 5) s.encode i
  | .qstat k => fmtE 22 1 (k.zeroExtend 5) 0 0
  | .tld x p n => fmtT 24 0 0 x 0 0 (0#6 ++ BitVec.ofBool p ++ n)
  | .tstTile x p n => fmtT 24 1 0 x 0 0 (0#6 ++ BitVec.ofBool p ++ n)
  | .tcfg x => fmtT 24 2 0 x 0 0 0
  | .tcfr x => fmtT 24 3 0 x 0 0 0
  | .tzero x => fmtT 24 4 0 x 0 0 0
  | .tmov x y => fmtT 24 5 0 x y 0 0
  | .mm c x y r => fmtT 25 0 c x y r 0
  | .mmx c x y r a b => fmtT 25 1 c x y r (0#4 ++ b ++ a)
  | .cclr c f => fmtT 26 0 c 0 0 0 (f.zeroExtend 10)
  | .crd c p q n => fmtT 26 1 c 0 0 0 (n ++ BitVec.ofBool p ++ q)
  | .cwr c p q n => fmtT 26 2 c 0 0 0 (n ++ BitVec.ofBool p ++ q)
  | .cadd c x r => fmtT 26 3 c x 0 r 0
  | .cstat c => fmtT 26 4 c 0 0 0 0
  | .cstatR c => fmtT 26 4 c 0 0 0 1
  | .cstatC c => fmtT 26 4 c 0 0 0 2
  | .cscl c e => fmtT 26 5 c 0 0 0 e
  | .gldv s i => fmtA 28 0 s.encode i
  | .gstv s i => fmtA 28 1 s.encode i
  | .gpref s i => fmtA 28 2 s.encode i
  | .cpy k s i => fmtE 29 0 (k.zeroExtend 5) s.encode i
  | .cpyr k s i => fmtE 29 1 (k.zeroExtend 5) s.encode i
  | .wtok m => fmtE 29 2 0 0 m
  | .ttok k => fmtE 29 3 (k.zeroExtend 5) 0 0
  | .tokr k => fmtE 29 4 (k.zeroExtend 5) 0 0
  | .aadd s i => fmtA 32 0 s.encode i
  | .aand s i => fmtA 32 1 s.encode i
  | .aor s i => fmtA 32 2 s.encode i
  | .axor s i => fmtA 32 3 s.encode i
  | .amin s i => fmtA 32 4 s.encode i
  | .amax s i => fmtA 32 5 s.encode i
  | .aminn s i => fmtA 32 6 s.encode i
  | .amaxn s i => fmtA 32 7 s.encode i
  | .aswp s i => fmtA 32 8 s.encode i
  | .acas s i => fmtA 32 9 s.encode i
  | .aaddf s i => fmtA 32 10 s.encode i
  | .aaddW s i => fmtA 32 16 s.encode i
  | .aandW s i => fmtA 32 17 s.encode i
  | .aorW s i => fmtA 32 18 s.encode i
  | .axorW s i => fmtA 32 19 s.encode i
  | .aminW s i => fmtA 32 20 s.encode i
  | .amaxW s i => fmtA 32 21 s.encode i
  | .aminnW s i => fmtA 32 22 s.encode i
  | .amaxnW s i => fmtA 32 23 s.encode i
  | .aswpW s i => fmtA 32 24 s.encode i
  | .acasW s i => fmtA 32 25 s.encode i
  | .aaddfW s i => fmtA 32 26 s.encode i
  | .vaadd d a => fmtV 33 0 d.encode a.encode 0
  | .vamin d a => fmtV 33 1 d.encode a.encode 0
  | .vamax d a => fmtV 33 2 d.encode a.encode 0
  | .vaaddS d a b => fmtV 33 3 d.encode a.encode b.encode
  | .vaminS d a b => fmtV 33 4 d.encode a.encode b.encode
  | .vamaxS d a b => fmtV 33 5 d.encode a.encode b.encode
  | .watch s i => fmtE 34 0 0 s.encode i
  | .watchRm s i => fmtE 34 0 1 s.encode i
  | .cbar k => fmtE 34 2 (k.zeroExtend 5) 0 0
  | .barr s i => fmtE 34 3 0 s.encode i
  | .barw s i => fmtE 34 4 0 s.encode i
  | .sig s i => fmtE 34 5 0 s.encode i
  | .sigw s i => fmtE 34 6 0 s.encode i
  | .sigm s i => fmtE 34 7 0 s.encode i
  | .lk k s i => fmtE 34 8 (k.zeroExtend 5) s.encode i
  | .twait k => fmtE 34 9 k 0 0
  | .tread k => fmtE 34 10 k 0 0
  | .fence o s => fmtF 0 o s
  | .grant k s i => fmtE 36 0 k s.encode i
  | .renew s i => fmtE 36 1 0 s.encode i
  | .life s i => fmtE 36 2 0 s.encode i
  | .anchor s i => fmtE 36 4 0 s.encode i
  | .hinfo s i => fmtE 36 5 0 s.encode i
  | .dsbind k s i => fmtE 40 0 (k.zeroExtend 5) s.encode i
  | .fsend k => fmtE 40 1 (k.zeroExtend 5) 0 0
  | .fsendv k s n => fmtE 40 2 (k.zeroExtend 5) s.encode (n.zeroExtend 8)
  | .fseek k => fmtE 40 3 (k.zeroExtend 5) 0 0
  | .allw k => fmtE 40 4 (k.zeroExtend 5) 0 0
  | .dsend k s i => fmtE 40 5 (k.zeroExtend 5) s.encode i
  | .dmap s i => fmtE 40 6 0 s.encode i
  | .spull s i => fmtE 40 7 0 s.encode i
  | .fsig k s i => fmtE 40 8 (k.zeroExtend 5) s.encode i
  | .bal k t d => fmtL d 0 t k
  | .bnal k t d => fmtL d 1 t k
  | .mfs r => fmtX 48 0 r 0
  | .mts r => fmtX 48 1 r 0
  | .trap n => fmtX 48 2 0 n
  | .trc n => fmtX 49 0 0 n
  | .dbgh n => fmtX 49 1 0 n
  | .smpl n => fmtX 49 2 0 n
  | .ldDShort s i => fmtS 0 s.encode i
  | .stDShort s i => fmtS 1 s.encode i
  | .addShort s i => fmtS 2 s.encode i
  | .subShort s i => fmtS 3 s.encode i
  | .andShort s i => fmtS 4 s.encode i
  | .orShort s i => fmtS 5 s.encode i
  | .xorShort s i => fmtS 6 s.encode i
  | .cmpShort s i => fmtS 7 s.encode i
  | .ldWShort s i => fmtS 8 s.encode i
  | .stWShort s i => fmtS 9 s.encode i
  | .shlShort s i => fmtS 10 s.encode i
  | .shrShort s i => fmtS 11 s.encode i
  | .mulShort s i => fmtS 12 s.encode i
  | .xchShort s i => fmtS 13 s.encode i
  | .paddShort n => fmtS 14 (Spec.ptr n).encode 0
  | .vaddShort d s => fmtQ 0 d.encode s.encode
  | .vsubShort d s => fmtQ 1 d.encode s.encode
  | .vmulShort d s => fmtQ 2 d.encode s.encode
  | .vfmaShort d s => fmtQ 3 d.encode s.encode
  | .vminShort d s => fmtQ 4 d.encode s.encode
  | .vmaxShort d s => fmtQ 5 d.encode s.encode
  | .vmovShort d s => fmtQ 6 d.encode s.encode
  | .vandShort d s => fmtQ 7 d.encode s.encode
  | .vorShort d s => fmtQ 8 d.encode s.encode
  | .vxorShort d s => fmtQ 9 d.encode s.encode
  | .vabsShort d s => fmtQ 10 d.encode s.encode
  | .vnegShort d s => fmtQ 11 d.encode s.encode
  | .vselShort d s => fmtQ 12 d.encode s.encode
  | .vcvtShort d s => fmtQ 13 d.encode s.encode
  | .vshlShort d s => fmtQ 14 d.encode s.encode
  | .vshrShort d s => fmtQ 15 d.encode s.encode
  | .ret => fmtA 11 2 (Spec.post 7).encode 0
  | .endSlot => fmtA 12 1 0 0
  | .yield => fmtA 12 2 0 0
  | .live => fmtA 12 4 0 0
  | .fget => fmtA 21 4 0 0
  | .watchClr => fmtE 34 0 2 0 0
  | .sleep => fmtE 34 1 0 0 0
  | .bfence => fmtF 1 0 0
  | .isync => fmtF 2 0 0
  | .hgen => fmtE 36 3 0 0 0
  | .rti => fmtX 48 3 0 0
  | .wfi => fmtX 48 4 0 0
  | .icinv => fmtX 48 5 0 0
  | .icinvAll => fmtX 48 5 0 1
  | .ssave => fmtX 48 6 0 0
  | .srest => fmtX 48 7 0 0
  | .brk => .half 0xFFFE#16
  | .abortWrite _
  | .bellWrite _
  | .debugRequestWrite
  | .traceControlWrite _
  | .traceCountRead
  | .traceSample _
  | .watchpointRemoteHalt _
  | .stepCountHalt _
  | .queueKick _ _
  | .queuePoll _ _
  | .queueEnable _ _ _
  | .queueDisable _ _
  | .completionHeadWrite _ _ _
  | .bar0RegisterWrite _ _ _
  | .completionEntryWrite _ _
  | .msixCoalesceTimeout _ _
  | .contextGrant _
  | .contextRenew _
  | .contextEnd _
  | .memoryGrantNew _
  | .memoryGrantChange _
  | .launchGraph _
  | .copyPacket _
  | .signalAdd _
  | .signalWait _
  | .signalWaitTimeout _
  | .debugHold _
  | .debugRelease _
  | .fwAttest _
  | .fwTimeSlice _
  | .fwPowerPolicySet _
  | .fwPowerStatus _
  | .fwRouteTable _
  | .fwIslandService _
  | .fwIdentity _
  | .fwFirmwareUpdate _
  | .fwGingham _
  | .ginghamLatch
  | .bar2Read _ _ _
  | .bar2Write _ _ _
  | .nodeReady _ _
  | .gangPlace _
  | .timeSliceExpiry _ _
  | .preemptRequest _ _
  | .preemptDrainEnd _
  | .saveImageComplete _
  | .gangRestore _
  | .leaseLapse _ _
  | .homeRequest _
  | .homeReply _ _ _
  | .revocationApply _ _
  | .rangeScrubDone _ _
  | .dtBeacon _
  | .pathSourceDiscard _
  | .memoryReply _ _ _
  | .stationAccess _
  | .pageMigration _ _ _
  | .migrationWbTimeout _ _
  | .patrolScrub _ _
  | .copyAccept _
  | .copySector _
  | .copyComplete _
  | .quantCommandRun _
  | .quantCommandComplete _
  | .faultRecordForward _
  | .supervisorMessage _
  | .mirrorWrite _
  | .icacheFill _ _
  | .icacheInvalidateArrival _
  | .chunkStepComplete _
  | .residueReplay _ _ _
  | .damaskStep _ _ _ _ _ _ _ _ _
  | .flitReceive _
  | .remoteRequestArrival _
  | .unorderedResendTimeout _
  | .pathMessageArrival _
  | .fsigArrival _
  | .stubOfferArrival _
  | .ackArrival _
  | .goBackArrival _ _
  | .holdNoticeArrival _
  | .pathResendTimeout _
  | .pullRequestArrival _ _ _
  | .pullDataArrival _ _ _ _
  | .stubLinkArrival _ _
  | .pinCompletionArrival _
  | .pinExpiry _
  | .coldReset
  | .functionLevelReset _
  | .powerPeriod _
  | .thermalPeriod _
  | .islandStepChange _ _
  | .tileTransferComplete _ _
  | .reservedEncodingIssue
  | .fetchSpaceFault => .none

/-- The bytes of an encoded instruction as L stores them (03 R19). -/
def Encoded.bytes : Encoded → List Byte
  | .none => []
  | .half h => leBytes 2 h.toNat
  | .full w => leBytes 4 w.toNat

/-- Decode an encoded word. -/
noncomputable def Encoded.decode : Encoded → Option Instr
  | .none => Option.none
  | .half h => if isLong h then Option.none else decode16 h
  | .full w => if isLong (w.extractLsb' 0 16) then decode32 w else Option.none

end Sys2Proof
end

