-- ==== Sys2Proof/Machine/State.lean ====
section
/-!
DEFINITION. The state of one Z9 package as plain data, the reasons a step can stop, and the state after reset. Tables that
are sparse are lists of (index, value) with rising indices; an index not listed holds the table's default.
-/
namespace Sys2Proof.Machine

/-- A table with a default value: (index, value) pairs. -/
abbrev Table (α : Type) := List (Nat × α)

/-- A park reason, in the order of the counters 0x040 to 0x04B (05 R83). -/
inductive Reason where
  | mem | allw | sleep | bar | mtx | tok | pin | queue | ring | tline | trap | join
  deriving DecidableEq, Repr

/-- What a parked slot waits on, where an order among waiters is stated (03 R32, 10 R212, R213, 13 R255, 16 R300): a tile (0 to 7)
or accumulator tile (8 to 15) that it reads is use n, one that it writes use 16 + n (13 R259); again: no such thing, and the
instruction is executed anew when a pre-emption finds it parked (15 R282). -/
inductive Resource where
  | none
  | port (p : Nat) (write : Bool)
  | array
  | use (n : Nat)
  | ds (k : Nat)
  | cbar (k : Nat)
  | tile (h : Word) (k : Nat)
  | bell
  | again
  deriving DecidableEq, Repr

/-- What ends a park: the slot's own condition, tested again each cycle; a reply; or a cycle that is reached. -/
inductive Wake where
  | poll
  | reply
  | till (cycle : Nat)
  deriving DecidableEq, Repr

/-- A parked slot: its reason, the cycle in which it parked, what it waits on, what ends the park, and whether its event has
been delivered, so that it is ready but has not had its turn (05 R83). -/
structure Park where
  reason : Reason
  seq    : Nat
  res    : Resource
  wake   : Wake
  woken  : Bool
  deriving DecidableEq, Repr

/-- A copy token (09 R188, 15 R284). -/
structure Tok where
  busy   : Bool
  desc   : Nat
  crec   : Nat
  status : Nat
  moved  : Word
  deriving DecidableEq, Repr

/-- A page table entry of a context: the virtual address of its page, the 64 bits of 09 R168, and the lease (key and
generation) it stands under, a range's or a view's. -/
structure PageEntry where
  ctx   : Nat
  va    : Nat
  pte   : Word
  lease : Nat
  gen   : Nat
  deriving DecidableEq, Repr

/-- Where an accepted access to G goes (09 R169): a frame of this chip, a frame of another, or host memory. -/
inductive Route where
  | here (pa : Nat)
  | chip (c pa : Nat)
  | host (l a : Nat)
  deriving DecidableEq, Repr

/-- What an address was found to be, checked: a byte of a buffer (win: reached through the window X), a system register, or a
G address with its route and the entry under which the station accepted it. -/
inductive Loc where
  | buf (win : Bool) (b g off : Nat)
  | sys (n : Nat)
  | glob (r : Route) (e : PageEntry) (va : Nat)
  deriving DecidableEq, Repr

/-- One entry of the log of an instruction that waits: what an access, a check or a question it has already made came to. The
instruction is run again when its wait ends, and takes these in their order instead of asking anew (04 R53, 06 R95): a value read,
a block read, a place found (w: for a write), a touch that waits for its tile, a fault that comes with the reply, an address of a copy
that is refused, with the page it counts at (09 R183), the reply of a peer's memory, the answer of a home, an effect that has been
made. -/
inductive Reply where
  | num (v : Nat)
  | block (b : Block)
  | place (l : Loc) (w : Bool)
  | touch (key tile : Nat) (e : PageEntry) (va : Nat)
  | fault (code : Nat) (addr : Word)
  | refused (cause page size : Nat)
  | mem (chip pa : Nat) (r : MemRep)
  | home (r : HomeRep)
  | done
  deriving DecidableEq, Repr

/-- A line that the instruction cache misses, read from L for a slot: whether it is still to be installed (15 R280), and whether its
words have come (11 R387). -/
structure LineFill where
  addr    : Nat
  bytes   : List Byte
  install : Bool
  here    : Bool
  deriving DecidableEq, Repr

/-- One slot (04 R45 to R49, 07 R124, 10 R203, 15 R271). The flags f are bits W E F V C N Z from 6 down to 0 (04 R47). Of an
instruction that waits: word holds its bytes, issued the cycle in which it issued, replies its log, ports the ports it waits on
or holds (03 R32), lane the first lane of a scatter atomic not yet accepted (10 R202). -/
structure Slot where
  a       : Word
  p       : Table Word
  step    : Table (BitVec 16)
  lc      : BitVec 32
  f       : BitVec 7
  vf      : BitVec 19
  priv    : Bool
  ka      : Word
  kp7     : Word
  ks7     : BitVec 16
  kf      : BitVec 7
  pc      : Word
  live    : Bool
  epc     : Word
  cause   : Word
  faddr   : Word
  rdet    : Word
  restart : Option Nat
  tok     : Table Tok
  watch   : List Nat
  fired   : Bool
  restored : Bool
  banks   : BitVec 512
  park    : Option Park
  readyAt : Nat
  fbuf    : Option (Nat × List Byte)
  fill    : Option LineFill
  exempt  : Option Word
  replies : List Reply
  ports   : List Resource
  issued  : Option Nat
  word    : List Byte
  lane    : Option Nat
  yields  : List Nat
  cbar    : Option (Nat × Bool)
  asked   : Nat
  mark    : Option Nat
  deriving DecidableEq, Repr

/-- One destination slot (16 R297): path, bound, cursor, W, IF, g, hd. -/
structure DSlot where
  path   : Word
  bound  : Bool
  cursor : Word
  win    : Nat
  inFl   : Nat
  good   : Nat
  hold   : Nat
  deriving DecidableEq, Repr

/-- Status word and masks of one accumulator tile; its cells stand in memory (13 R247, R265). Bit 5 of the status is
computed when it is read. -/
structure AccTile where
  status : BitVec 8
  rmask  : BitVec 64
  cmask  : BitVec 64
  deriving DecidableEq, Repr

/-- A transfer that uses a tile (0 to 7) or an accumulator tile (8 to 15) until a cycle, for a slot (13 R246, R259). -/
structure Use where
  slot  : Nat
  tile  : Nat
  write : Bool
  till  : Nat
  deriving DecidableEq, Repr

/-- The chunk step that the array works on, to its last cycle (13 R255, R267). -/
structure ArrayStep where
  slot     : Nat
  c        : Nat
  x        : Nat
  y        : Nat
  sr       : Nat
  till     : Nat
  replayed : Bool
  deriving DecidableEq, Repr

/-- A macro-operation: its slot, the number of its next step, its operands, and the cycle in which that step ends (13 R256). -/
structure Damask where
  slot     : Nat
  n        : Nat
  c        : Nat
  x        : Nat
  y        : Nat
  sr       : Nat
  a        : Nat
  b        : Nat
  till     : Nat
  replayed : Bool
  deriving DecidableEq, Repr

/-- One core: what its eleven slots share (01 R6, 03 R32, 13 R240, R247, 15 R271, 16 R297, 21 R355). -/
structure Core where
  slots   : Table Slot
  queues  : Table (List Word)
  ds      : Table DSlot
  shape   : Table (BitVec 23)
  acc     : Table AccTile
  live    : BitVec 20
  sprot   : BitVec 16
  tvec    : Word
  kstk    : Word
  bell    : Word
  ctr     : Table Word
  tbase   : Word
  tctl    : BitVec 16
  twr     : Word
  tdrop   : Word
  sample  : Nat
  stepCnt : Nat
  stepped : Nat
  done    : Bool
  last    : Nat
  cycle   : Nat
  uses    : List Use
  array   : Option ArrayStep
  damask  : Option Damask
  deriving DecidableEq, Repr

/-- One line of a cluster instruction cache (11 R387). -/
structure ILine where
  core  : Nat
  addr  : Nat
  bytes : List Byte
  deriving DecidableEq, Repr

/-- One cluster: instruction cache (most recently used line first), rings (index 4 × direction + receiving core, direction 0 nxt,
1 prv), barrier arrival bits, debug registers, the gang placed on it, the context of its last gang (03 R32, 10 R212, 11 R387, 15
R285, 21 R342). -/
structure Cluster where
  icache : List ILine
  rings  : Table (List Word)
  cbar   : Table (BitVec 4)
  dctl   : Word
  wpa    : Table Word
  wpc    : Table Word
  gang   : Option Nat
  frozen : Bool
  halt   : Bool
  lastCtx : Option Nat
  deriving DecidableEq, Repr

/-- A path at its destination (16 R295, R296, R309, R316): the source chip, the destination range, the sequence number
expected, the recorded scales of blocks poisoned by a failed message, and the messages held by a stall, each with the device
addresses that it writes, none for one that is refused. -/
structure PathDst where
  src      : Nat
  range    : Word
  expect   : Nat
  poisoned : List (Nat × Byte)
  held     : List (PathMsg × Option (List Nat))
  deriving DecidableEq, Repr

/-- A stub at its receiver (16 R311 to R317): the sender's chip, the region's size, the view's base, the backing range, the
tiles pulled, those under way with the failures of their tags, and those whose pull was refused. -/
structure Stub where
  src      : Nat
  size     : Nat
  view     : Option Nat
  backing  : Word
  pulled   : List Nat
  pulling  : List (Nat × Nat)
  dead     : List Nat
  complete : Bool
  deriving DecidableEq, Repr

/-- What a lease record holds beside its expiry, by class (06 R92, R104, R105; 10 R208 to R213; 16 R294, R296, R309,
R311 to R313). -/
inductive LeaseData where
  | none
  | range (va size page : Nat) (striped : Bool)
  | svar (v : Word) (mirrors : List (Nat × Nat))
  | lock (pa : Nat)
  | barrier (p arrivals : Nat) (phase : Word)
  | path (x : PathDst)
  | stub (x : Stub)
  deriving DecidableEq, Repr

/-- One lease record of a Calico unit or a synchronisation engine (06 R93, R94, R99). -/
structure Lease where
  cls      : Nat
  gen      : Nat
  e        : Nat
  anchored : Bool
  owner    : Nat
  inUse    : Bool
  data     : LeaseData
  deriving DecidableEq, Repr

/-- A ring in host memory and the device's staging for it (09 R172, R183; 20 R337). -/
structure HostRing where
  base   : Nat
  size   : Nat
  wr     : Nat
  ovf    : Nat
  staged : List (List Byte)
  deriving DecidableEq, Repr

/-- One context (20 R333): its lease index is its identifier. -/
structure Context where
  live     : Bool
  level    : Nat
  link     : Nat
  quota    : Table Nat
  fq       : HostRing
  nq       : HostRing
  vector   : Nat
  saveBase : Nat
  saveSize : Nat
  tlGiven  : Nat
  tlDone   : List Nat
  deriving DecidableEq, Repr

/-- A path message sent and not yet answered: how often it was resent, whether its last resend is not yet answered, its number among
what left the chip, whether its answer still counts at the destination slot that sent it (15 R283), and its owner's number (Records.lean).
-/
structure Flight where
  msg    : PathMsg
  tries  : Nat
  fresh  : Bool
  id     : Nat
  counts : Bool
  owner  : Nat
  deriving DecidableEq, Repr

/-- The source's record of a path (06 R104, R106; 16 R294, R296). -/
structure PathSrc where
  h       : Word
  owner   : Nat
  ed      : Nat
  size    : Nat
  dstCtx  : Nat
  seq     : Nat
  unacked : List Flight
  since   : Nat
  gone    : Bool
  deriving DecidableEq, Repr

/-- A pin of a deferred tensor at its sender (16 R311, R315 to R317): its stub, 0 until the offer is answered; the
destination is 1024 × chip + context; keys are the grants under which its pages stood, by lease key and generation; by is the slot
whose dsend has set it and not yet sent its offer, as 16 × core + slot; early are pulls, of a handle, a tile and a chip, that have come
ahead of the offer's answer. -/
structure Pin where
  h      : Word
  ctx    : Nat
  dstCtx : Nat
  base   : Nat
  size   : Nat
  ep     : Nat
  frozen : Bool
  ended  : Bool
  keys   : List (Nat × Nat)
  by_    : Option Nat
  early  : List (Word × Nat × Nat)
  deriving DecidableEq, Repr

/-- A stub that an offer of this chip has made: its handle, the sender's context, the destination as in Pin, the region, and its E as last
heard of (16 R311, R318). -/
structure Sent where
  h      : Word
  ctx    : Nat
  dstCtx : Nat
  base   : Nat
  size   : Nat
  e      : Nat
  deriving DecidableEq, Repr

/-- A lock lease of a context here whose home is on another chip: it counts against the quota here (06 R90, R92). -/
structure Away where
  h   : Word
  ctx : Nat
  e   : Nat
  deriving DecidableEq, Repr

/-- A request to a home of another chip that is not yet answered (16 R292), and its owner's number (Records.lean). -/
structure HomeOut where
  chip   : Nat
  owner  : Nat
  req    : HomeReq
  resend : Nat
  fails  : Nat
  since  : Nat
  deriving DecidableEq, Repr

/-- A pull request to another chip that is not yet answered (16 R292). -/
structure PullOut where
  id     : Nat
  h      : Word
  tile   : Nat
  chip   : Nat
  resend : Nat
  fails  : Nat
  since  : Nat
  deriving DecidableEq, Repr

/-- Pull data sent and not yet acknowledged, kept for resending (16 R309). -/
structure TileOut where
  h    : Word
  tile : Nat
  chip : Nat
  bs   : List Block
  deriving DecidableEq, Repr

/-- Pull data that waits for its pages to be unblocked (16 R316). -/
structure TileIn where
  h     : Word
  tile  : Nat
  bs    : List Block
  tagOk : Bool
  deriving DecidableEq, Repr

/-- A frame that a change of pages took from a range before its scrub (06 R100, 20 R333): the range's key and generation, the
frame's device address and size. -/
structure Dirty where
  lease : Nat
  gen   : Nat
  pa    : Nat
  size  : Nat
  deriving DecidableEq, Repr

/-- An unordered request this chip has sent and not had answered (16 R292). fill is the die and the line's address where the reply
fills a line of a station's copy (09 R169); fails counts the integrity failures of its copies (16 R309). -/
structure RemoteOut where
  id     : Nat
  core   : Nat
  slot   : Nat
  ctx    : Nat
  chip   : Nat
  pa     : Nat
  op     : RemoteOp
  resend : Nat
  since  : Nat
  fill   : Option (Nat × Nat)
  fails  : Nat
  deriving DecidableEq, Repr

/-- A reply that came back to an engine of this chip. The owner's number is 1024 + die for a quantisation engine, 2048 + its
number for a copy. -/
structure EngineReply where
  owner : Nat
  chip  : Nat
  pa    : Nat
  rep   : MemRep
  deriving DecidableEq, Repr

/-- A fault page of a copy pass; its record is appended once the last sector that touches it, at position last of the pass, has been
judged (09 R183, 12 R238). -/
structure CopyFault where
  page  : Nat
  size  : Nat
  va    : Nat
  cause : Nat
  side  : Nat
  first : Nat
  count : Nat
  last  : Nat
  deriving DecidableEq, Repr

/-- A destination block of a copy that more than one sector may write: its lowest written byte, the descriptor that byte
gives, and whether a poisoned byte was written (09 R182). -/
structure CopyBlock where
  addr   : Nat
  low    : Nat
  fmt    : Byte
  scale  : Byte
  poison : Bool
  deriving DecidableEq, Repr

/-- A copy in an engine's queue (09 R177 to R189). The engine number is that of 09 R183, with the chip in bits [31:16]. log holds
what the accesses of its present sector have come to; cleared are the sectors of a replay that moved while its gang was saved; guest is
the request that took its place in the queue of another chip's engine; spoiled are the blocks of other chips, by chip and device
address, in which a merge of the copy has met an uncorrectable error (09 R192). -/
structure Copy where
  core      : Nat
  slot      : Nat
  tok       : Nat
  ctx       : Nat
  gang      : Nat
  desc      : List Byte
  descAt    : Nat
  engine    : Nat
  accepted  : Bool
  suspended : Bool
  ended     : Bool
  status    : Nat
  next      : Nat
  todo      : List Nat
  moved     : Nat
  missing   : List Nat
  faults    : List CopyFault
  blocks    : List CopyBlock
  replay    : Bool
  packet    : Option Nat
  log       : List Reply
  cleared   : List Nat
  guest     : Option Nat
  spoiled   : List (Nat × Nat)
  deriving DecidableEq, Repr

/-- A copy of another chip that takes a place in the queue of an engine here (09 R177): the chip, the request that brought its
descriptor, the engine. -/
structure Guest where
  chip   : Nat
  id     : Nat
  engine : Nat
  deriving DecidableEq, Repr

/-- A quantisation command (07 R143, R144, R147). Once begun, it has the width of its sources and its zero points, and next is the
group it works on; log holds what the accesses of its present step have come to; recorded says that its statistics are written. -/
structure QuantCmd where
  ctx    : Nat
  gang   : Nat
  core   : Nat
  slot   : Nat
  ticket : Nat
  desc   : List Byte
  descAt : Nat
  ran    : Bool
  status : Nat
  amax   : Nat
  done   : Nat
  nsat   : Nat
  nnan   : Nat
  npois  : Nat
  nskip  : Nat
  begun  : Option (Nat × Option Block)
  next   : Nat
  log    : List Reply
  recorded : Bool
  deriving DecidableEq, Repr

/-- One quantisation engine: its queue, the context served last and, per context, tickets given, timeline count, last bad ticket
and status. -/
structure QuantEngine where
  queue   : List QuantCmd
  served  : Nat
  tickets : Table Nat
  tline   : Table Nat
  bad     : Table (Nat × Nat)
  deriving DecidableEq, Repr

/-- A packet that has been accepted (20 R329, R331): its 64-byte units, its timeline number, the DT at which it started. -/
structure Packet where
  link  : Nat
  q     : Nat
  kind  : Nat
  fence : Bool
  seq   : Nat
  ctx   : Nat
  tag   : Word
  body  : List Byte
  tl    : Nat
  at_   : Nat
  deriving DecidableEq, Repr

/-- A command queue of a link (20 R326 to R328, R334): accepted are the packets not yet started, polled the DT of the last read of
a header, pending and since the entries that no message covers yet and the DT of the oldest. -/
structure HostQueue where
  qbase   : Word
  qctl    : Word
  qread   : Nat
  cbase   : Word
  chead   : Nat
  ctail   : Nat
  coal    : Word
  msix    : Word
  crcBad  : Bool
  expect  : Nat
  pending : Nat
  since   : Nat
  polled  : Nat
  accepted : List Packet
  deriving DecidableEq, Repr

/-- A link: its BAR0 registers and queues (20 R326). -/
structure Link where
  ebase   : Word
  ectl    : Word
  ewr     : Nat
  erd     : Nat
  eovf    : Nat
  bar2win : Word
  queues  : Table HostQueue
  staged  : List (List Byte)
  deriving DecidableEq, Repr

/-- A completion entry not yet written (20 R334). -/
structure Completion where
  link   : Nat
  q      : Nat
  tag    : Word
  result : Word
  seq    : Nat
  kind   : Nat
  status : Nat
  detail : Nat
  tl     : Nat
  deriving DecidableEq, Repr

/-- A node of a launch graph (20 R335, R336): state 0 not ready, 1 in the pool, 2 completed, 3 failed; order is its place among the
entries into the pool, 0 before it has one; log holds what the reads of its image have come to. -/
structure Node where
  image : Nat
  ident : Word
  preds : List Nat
  state : Nat
  order : Nat
  log   : List Reply
  deriving DecidableEq, Repr

/-- A launch graph (20 R335). -/
structure Graph where
  ctx    : Nat
  link   : Nat
  q      : Nat
  number : Nat
  total  : Nat
  nodes  : Table Node
  packet : Option Nat
  whole  : Bool
  deriving DecidableEq, Repr

/-- A launch in the pool (05 R71, R72). -/
structure Launch where
  ctx    : Nat
  graph  : Nat
  node   : Nat
  ident  : Word
  ngang  : Nat
  record : List Byte
  order  : Nat
  left   : Nat
  failed : Bool
  deriving DecidableEq, Repr

/-- Where a gang is in its life (05 R71, R89; 15 R282; 21 R346). -/
inductive GangState where
  | waiting | running | halting | saving | saved | held | retired | dead
  deriving DecidableEq, Repr

/-- What is kept of a slot of a saved gang beside its image: its tokens, whose state is the engines' (15 R281), and whether it
waits in a round of a barrier (10 R212, 15 R282). -/
structure Keep where
  core : Nat
  slot : Nat
  tok  : Table Tok
  cbar : Option (Nat × Bool)
  deriving DecidableEq, Repr

/-- A gang (05 R71, R86, R89; 15 R282, R283). packets are the debug packets that wait for its image (20 R330, R332). -/
structure Gang where
  launch  : Nat
  index   : Nat
  die     : Nat
  cluster : Nat
  state   : GangState
  reason  : Nat
  hold    : Bool
  image   : Nat
  reqDt   : Nat
  placed  : Nat
  order   : Nat
  keep    : List Keep
  packets : List Nat
  deriving DecidableEq, Repr

/-- A line that a station caches for mode 3 (09 R169). -/
structure CachedLine where
  die   : Nat
  stn   : Nat
  ctx   : Nat
  va    : Nat
  block : Block
  deriving DecidableEq, Repr

/-- A power policy: the limit in W, the window in µs, the floor step, the short window's permission (23 R380). -/
structure Policy where
  limit  : Nat
  window : Nat
  floor  : Nat
  short  : Bool
  deriving DecidableEq, Repr

/-- Power and temperature (23 R378 to R380): the policy, one that applies from the next period, the measurements of the window
with the latest first, the step that the power rule and the thermal rule ask of each island, the islands that stay hot until
they read below 100 °C, the last reading of each sensor in tenths of a degree, and the dies in thermal emergency. -/
structure Power where
  now     : Policy
  next    : Option Policy
  samples : List Nat
  overs   : Nat
  demand  : Table Nat
  heat    : Table Nat
  hot     : List Nat
  temps   : Table Nat
  emerg   : BitVec 4
  deriving DecidableEq, Repr

/-- The Filhel controller's core, of RV32IMC: pc, registers, and the bytes written to its tightly coupled memory since the firmware
was loaded (01 R11). -/
structure Filhel where
  pc   : BitVec 32
  regs : Table (BitVec 32)
  tcm  : Table Byte
  deriving DecidableEq, Repr

/-- Gingham (21 R359, R360): base 0 is stopped; the number of the last grid, and the DT of its latch or of the start; the writes of its
slot that are done, 0 when no slot is being written, and its contents. -/
structure Gingham where
  link     : Nat
  base     : Nat
  interval : Nat
  n        : Nat
  k        : Nat
  at_      : Nat
  phase    : Nat
  image    : List Byte
  deriving DecidableEq, Repr

/-- What leaves the chip: over the fabric, or to the host (16 R291, R308; 20 R334). -/
inductive OutMsg where
  | request (chip : Nat) (r : RemoteReq)
  | reply (chip id : Nat) (r : MemRep)
  | home (chip : Nat) (r : HomeReq)
  | homeReply (chip core slot : Nat) (r : HomeRep)
  | path (chip : Nat) (m : PathMsg)
  | ack (chip : Nat) (m : AckMsg)
  | goBack (chip : Nat) (path : Word) (seq : Nat)
  | holdNotice (chip : Nat) (path : Word)
  | pull (chip : Nat) (h : Word) (tile : Nat)
  | pullData (chip : Nat) (h : Word) (tile : Nat) (bs : List Block)
  | pullRefused (chip : Nat) (h : Word) (tile : Nat)
  | link (chip : Nat) (h : Word) (e : Nat)
  | pinDone (chip : Nat) (h : Word)
  | mirror (chip core off : Nat) (h v : Word)
  | revoke (chip ctx : Nat)
  | msix (link vector : Nat)
  | linkDown (port : Nat)
  | flit (port vc : Nat) (f : FlitIn)
  deriving DecidableEq, Repr

/-- A message that only answers or informs, kept by its number for a go-back request: times it was sent again, DT of its last
sending (16 R309; log 96). -/
structure Note where
  id    : Nat
  msg   : OutMsg
  tries : Nat
  at_   : Nat
  deriving DecidableEq, Repr

/-- A step outside instruction issue that the package itself has made due; Step.lean runs it as its row of the table. -/
inductive Due where
  | gangPlace (die : Nat)
  | nodeReady (graph node : Nat)
  | revocationApply (unit ctx : Nat)
  | packet (k : Nat)
  | path (m : PathMsg)
  | ack (m : AckMsg)
  | goBack (path : Word) (seq : Nat)
  | holdNotice (path : Word)
  | pull (h : Word) (tile chip : Nat)
  | pullData (h : Word) (tile : Nat) (bs : List Block)
  | link (h : Word) (e : Nat)
  | pinDone (h : Word)
  | preemptDrain (gang : Nat)
  | saveImage (gang : Nat)
  | mirror (unit idx mirror : Nat)
  | forward (ctx : Nat)
  | icacheArrival (cluster : Nat)
  | quantRun (die : Nat)
  | quantDone (die : Nat)
  | copyAccept (id : Nat)
  | copySector (id : Nat)
  | copyComplete (id : Nat)
  | lapse (unit idx : Nat)
  | scrubDone (unit idx : Nat)
  | pinExpiry (h : Word)
  | pathDiscard (h : Word)
  | sliceEnd (die ctx : Nat)
  | completion (link q : Nat)
  | fsig (m : PathMsg)
  | offer (m : PathMsg)
  | resend (id : Nat)
  | pathResend (h : Word)
  | pathGo (h : Word)
  | remote (r : RemoteReq)
  | msixDue (link q : Nat)
  | poll (link q : Nat)
  | gingham
  | stepChange (island step : Nat)
  | migTimeout (ctx va : Nat)
  | signalLimit (k : Nat)
  | hop (channel : Nat)
  | tileGo (h : Word) (tile : Nat)
  deriving DecidableEq, Repr

/-- Who moves next: a core, for one cycle, or a step outside instruction issue. -/
inductive Turn where
  | core (n : Nat)
  | event (i : Instr)
  | due (d : Due)
  deriving DecidableEq, Repr

/-- The package. healing are the recorded scales of the blocks that failed copies of a request of another chip have poisoned, by
the request (16 R309). While an instruction runs, trail is the part of its log that it has taken or made, claims the ports it
uses; both are empty between steps. flaws are the lines of device memory and the words of L, A and W whose ECC finds an error, by
key, and whether it is past correction; corrected counts what was corrected, by die and stack (09 R191 to R193). Memory is one
list of cells with rising keys: device physical memory, the buffers of the cores, host memory, and the descriptor bytes of all
blocks (Ops.lean gives the keys). -/
structure State where
  mem       : List Host.Cell
  cores     : Table Core
  clusters  : Table Cluster
  leases    : Table Lease
  contexts  : Table Context
  entries   : List PageEntry
  counted   : List (Nat × Nat × Nat)
  migrations : List (Nat × Nat × Nat)
  cached    : List CachedLine
  paths     : List PathSrc
  pins      : List Pin
  sent      : List Sent
  remote    : List RemoteOut
  performed : List (Nat × MemRep)
  stalled   : List RemoteReq
  fetched   : List EngineReply
  waiting   : List HomeReq
  asked     : List (Nat × Nat)
  mirrors   : List (Nat × Nat × Word)
  away      : List Away
  nextId    : Nat
  copies    : Table Copy
  guests    : List Guest
  quant     : Table QuantEngine
  links     : Table Link
  started   : Table Packet
  finished  : List Completion
  graphs    : Table Graph
  launches  : Table Launch
  gangs     : Table Gang
  slices    : Table Nat
  turns     : List Nat
  sliceLen  : Nat
  dieCtr    : Table Word
  portCtr   : Table (Nat × Nat)
  replays   : Table Nat
  downPorts : List Nat
  step      : Table Nat
  outOf     : List Nat
  half      : List Nat
  power     : Power
  gingham   : Gingham
  filhel    : Filhel
  dt        : Nat
  dtSlew    : Nat
  chip      : Nat
  joined    : Bool
  everCtx   : Bool
  routes    : List Nat
  routeBytes : List Byte
  bootBad   : Bool
  powered   : Bool
  resets    : Nat
  firmware  : Option (List Byte)
  storedFw  : Option (List Byte)
  rollback  : Nat
  hostRead  : List Byte × Bool
  outbox    : List OutMsg
  agenda    : List Turn
  curCore   : Nat
  curSlot   : Nat
  homeOut   : List HomeOut
  homeDone  : List ((Nat × Nat) × HomeRep)
  dirty     : List Dirty
  hops      : Table (List Nat × Nat)
  router    : Table (List FlitIn)
  stuck     : List OutMsg
  notes     : List Note
  noted     : Nat
  tilesOut  : List TileOut
  tilesIn   : List TileIn
  pullsOut  : List PullOut
  healing   : List (Nat × List (Nat × Byte))
  trail     : List Reply
  claims    : List Resource
  flaws     : List (Nat × Bool)
  corrected : Table Nat
  dtRem     : Nat
  lastCore  : Nat
  ticks     : Nat
  born      : Nat
  deriving DecidableEq, Repr

/-- A reason for a stop. There is one, raised by the meaning of an event row that names a unit, a link or a queue the
package does not have (01 R7, R10): the spec describes no such input. Safe: the machine has no such step. -/
inductive Fault where
  | noSuchUnit
  deriving DecidableEq, Repr

/-- A refusal: raised by an arm of exec whose instruction has no meaning yet. Safe. -/
inductive Refusal where
  | notModelled (mnemonic : String)
  deriving DecidableEq, Repr

/-- A token never used: idle, status 0, moved 0 (09 R188). -/
def Tok.idle : Tok := { busy := false, desc := 0, crec := 0, status := 0, moved := 0 }

/-- A slot at reset: nothing runs (04 R47, R48, 07 R124, 15 R271). The privileged copies and pc have no reset value in
the spec: DESIGN CHOICE zero, unsafe (log 3). -/
def Slot.reset : Slot :=
  { a := 0, p := [], step := [], lc := 0, f := 0, vf := 0, priv := false, ka := 0, kp7 := 0, ks7 := 0, kf := 0, pc := 0,
    live := false, epc := 0, cause := 0, faddr := 0, rdet := 0, restart := none, tok := [], watch := [], fired := false,
    restored := false, banks := 0, park := none, readyAt := 0, fbuf := none, fill := none, exempt := none, replies := [], ports := [],
    issued := none, word := [], lane := none, yields := [],
    cbar := none, asked := 0, mark := none }

/-- A destination slot at kernel entry (16 R297). -/
def DSlot.reset : DSlot :=
  { path := 0, bound := false, cursor := 0, win := 16, inFl := 0, good := 0, hold := 0 }

/-- An accumulator tile at kernel entry: kind a56, masks clear (13 R247). -/
def AccTile.reset : AccTile := { status := 0, rmask := 0, cmask := 0 }

/-- A core at reset (15 R271, 21 R355). The slot that issued last has no reset value: DESIGN CHOICE slot 10, so that slot
0 stands first, safe (log 5). -/
def Core.reset : Core :=
  { slots := [], queues := [], ds := [], shape := [], acc := [], live := 0xFFFFF, sprot := 0xC010, tvec := 0x30000,
    kstk := 0x34000, bell := 0, ctr := [], tbase := 0, tctl := 0, twr := 0, tdrop := 0, sample := 0, stepCnt := 0,
    stepped := 0, done := false, last := 10, cycle := 0, uses := [], array := none, damask := none }

/-- A cluster at reset (21 R342). -/
def Cluster.reset : Cluster :=
  { icache := [], rings := [], cbar := [], dctl := 0, wpa := [], wpc := [], gang := none, frozen := false, halt := false,
    lastCtx := none }

/-- An index never used: generation 0 is never issued (06 R93, R94). -/
def Lease.unused : Lease :=
  { cls := 0, gen := 0, e := 0, anchored := false, owner := 0, inUse := false, data := .none }

def HostRing.empty : HostRing := { base := 0, size := 0, wr := 0, ovf := 0, staged := [] }

/-- A context identifier never granted. -/
def Context.unused : Context :=
  { live := false, level := 0, link := 0, quota := [], fq := .empty, nq := .empty, vector := 0,
    saveBase := 0, saveSize := 0, tlGiven := 0, tlDone := [] }

def QuantEngine.reset : QuantEngine := { queue := [], served := 0, tickets := [], tline := [], bad := [] }

/-- A queue at reset (20 R326, R327). -/
def HostQueue.reset : HostQueue :=
  { qbase := 0, qctl := 0, qread := 0, cbase := 0, chead := 0, ctail := 0, coal := 0x0FA00020, msix := 0, crcBad := false,
    expect := 0, pending := 0, since := 0, polled := 0, accepted := [] }

/-- A link at reset (20 R326). -/
def Link.reset : Link :=
  { ebase := 0, ectl := 0, ewr := 0, erd := 0, eovf := 0, bar2win := 0, queues := [], staged := [] }

/-- The policy at reset (23 R380). -/
def Power.reset : Power :=
  { now := { limit := 2400, window := 1000, floor := 5, short := false }, next := none, samples := [], overs := 0, demand := [],
    heat := [], hot := [], temps := [], emerg := 0 }

/-- The machine right after reset (23 R382, R383): no context, no gang, DT 0 at its own rate (dtSlew is the correction in ppm plus
100), a domain of one chip numbered 0, memory zero with descriptors (0x00, 127), time slice 2 ms (05 R88), islands at step 0 and
in service. -/
def State.reset : State :=
  { mem := [], cores := [], clusters := [], leases := [], contexts := [], entries := [], counted := [], migrations := [], cached := [],
    paths := [], pins := [], sent := [], remote := [], performed := [], stalled := [], fetched := [], waiting := [], asked := [], mirrors := [], away := [],
    nextId := 1, copies := [], guests := [], quant := [], links := [],
    started := [], finished := [], graphs := [], launches := [], gangs := [], slices := [], turns := [], sliceLen := 2000000,
    dieCtr := [], portCtr := [], replays := [], downPorts := [], step := [], outOf := [], half := [], power := .reset,
    gingham := { link := 0, base := 0, interval := 0, n := 0, k := 0, at_ := 0, phase := 0, image := [] },
    filhel := { pc := 0, regs := [], tcm := [] }, dt := 0, dtSlew := 100, chip := 0, joined := false,
    everCtx := false, routes := [], routeBytes := [], bootBad := false, powered := true, resets := 0,
    firmware := none, storedFw := none, rollback := Config.rollbackIndex Config.firstImage, hostRead := ([], false), outbox := [], agenda := [], curCore := 0, curSlot := 0,
    homeOut := [], homeDone := [], dirty := [], hops := [], router := [], stuck := [], notes := [], noted := 0, tilesOut := [], tilesIn := [],
    pullsOut := [], healing := [],
    trail := [], claims := [], flaws := [], corrected := [], dtRem := 0, lastCore := 0,
    ticks := 0, born := 0 }

end Sys2Proof.Machine
end

