-- ==== Sys2Proof/Machine/Store.lean ====
section
/-!
DEFINITION. Sparse tables, the one memory with its keys, blocks, and the accessors of cores, slots and their registers.
-/
namespace Sys2Proof.Machine

/-- The value at index k, d where none is listed. -/
def tget (d : α) : Table α → Nat → α
  | [], _ => d
  | (j, v) :: t, k => if k = j then v else tget d t k

/-- Set the value at index k, in rising order of indices. -/
def tput : Table α → Nat → α → Table α
  | [], k, v => [(k, v)]
  | (j, w) :: t, k, v =>
    if k < j then (k, v) :: (j, w) :: t
    else if k = j then (k, v) :: t
    else (j, w) :: tput t k v

/-- Remove index k. -/
def tdel (t : Table α) (k : Nat) : Table α := t.filter fun e => e.1 != k

/-- The keys of the blocks' descriptors begin here; the scale of a block stands at an odd key. -/
def descBase : Nat := 2 ^ 68

/-- What an address that lists no byte reads as: a scale is 127, every other byte 0 (07 R119, 23 R382; log 2). -/
def initByte (k : Nat) : Byte := if descBase ≤ k ∧ k % 2 = 1 then 127 else 0

/-- One byte of memory. -/
def mget (m : List Host.Cell) (k : Nat) : Byte := tget (initByte k) m k

/-- Write one byte of memory; a byte equal to what an unlisted address reads as is not listed. -/
def mput (m : List Host.Cell) (k : Nat) (b : Byte) : List Host.Cell :=
  if b = initByte k then tdel m k else tput m k b

/-- The canonical form: rising keys, and no entry equal to what an unlisted address reads as. -/
def Memory.wf : List Host.Cell → Bool
  | [] => true
  | [(k, b)] => b != initByte k
  | (k, b) :: (j, c) :: t => b != initByte k && decide (k < j) && Memory.wf ((j, c) :: t)

/-- n bytes from key k. -/
def mgets (m : List Host.Cell) (k : Nat) : Nat → List Byte
  | 0 => []
  | n + 1 => mget m k :: mgets m (k + 1) n

/-- Write bytes from key k. -/
def mputs (m : List Host.Cell) (k : Nat) : List Byte → List Host.Cell
  | [] => m
  | b :: bs => mputs (mput m k b) (k + 1) bs

/-- Give the n bytes from key k the value an unlisted byte has. -/
def mclear (m : List Host.Cell) (k n : Nat) : List Host.Cell := m.filter fun c => c.1 < k || k + n ≤ c.1

/-- The key of the format byte of the block that holds key k; the scale byte follows it (07 R114, R119). -/
def fmtKey (k : Nat) : Nat := descBase + 2 * (k / 64)

def scaleKey (k : Nat) : Nat := fmtKey k + 1

/-- Zero data and descriptor (0x00, 127) for the n bytes from key k, whole blocks (06 R100, 15 R285). -/
def mscrub (m : List Host.Cell) (k n : Nat) : List Host.Cell := mclear (mclear m k n) (fmtKey k) (2 * (n / 64))

/-- The block at key k, with its descriptor (07 R123). -/
def blockAt (m : List Host.Cell) (k : Nat) : Block :=
  { data := mgets m k 64, fmt := mget m (fmtKey k), scale := mget m (scaleKey k) }

def putBlock (m : List Host.Cell) (k : Nat) (b : Block) : List Host.Cell :=
  mput (mput (mputs m k b.data) (fmtKey k) b.fmt) (scaleKey k) b.scale

/-- Whether the block at key k is poisoned (07 R122). -/
def poisoned (m : List Host.Cell) (k : Nat) : Bool := mget m (scaleKey k) == 255

/-- n bytes read as a little-endian number (00 R3). -/
def mread (m : List Host.Cell) (k n : Nat) : Nat := leNat (mgets m k n)

def mwrite (m : List Host.Cell) (k n v : Nat) : List Host.Cell := mputs m k (leBytes n v)

/-- 640 GiB of device physical memory, 160 GiB a die (09 R386). -/
def hbmSize : Nat := 687194767360

def dieSize : Nat := 171798691840

def dieOfPa (pa : Nat) : Nat := pa / dieSize

/-- The keys of a core's buffers (01 R6, 13 R240, R248). -/
def coreBase (g : Nat) : Nat := 2 ^ 41 + g * 2 ^ 22

def lKey (g off : Nat) : Nat := coreBase g + off
def aKey (g off : Nat) : Nat := coreBase g + 0x80000 + off
def wKey (g off : Nat) : Nat := coreBase g + 0x100000 + off
def cKey (g off : Nat) : Nat := coreBase g + 0x180000 + off
def tileKey (g t : Nat) : Nat := coreBase g + 0x1C0000 + t * 4096

/-- The key of an address of the memory behind host link l. -/
def hostKey (l a : Nat) : Nat := 2 ^ 64 * (1 + l) + a % 2 ^ 64

/-- Where a pointer leads (04 R46): a byte of a buffer, a G address, a system register, or nowhere. -/
inductive Place where
  | buf (b : Nat) (g : Nat) (off : Nat)
  | glob (va : Nat)
  | sys (off : Nat)
  | bad
  deriving DecidableEq, Repr

/-- The buffers: L 0, A 1, W 2, C 3. -/
def bufKey (b g off : Nat) : Nat :=
  match b with
  | 0 => lKey g off
  | 1 => aKey g off
  | 2 => wKey g off
  | _ => cKey g off

/-- The space tag and the offset of a pointer (04 R45). -/
def tagOf (p : Word) : Nat := p.toNat / 2 ^ 60

def offOf (p : Word) : Nat := p.toNat % 2 ^ 60

/-- Resolve a pointer of core g (04 R46). -/
def place (g : Nat) (p : Word) : Place :=
  let off := offOf p
  match tagOf p with
  | 0 => if off < 0x40000 then .buf 0 g off else .bad
  | 1 => if off < 0x80000 then .buf 1 g off else .bad
  | 2 => if off < 0x80000 then .buf 2 g off else .bad
  | 3 => if off < 0x38000 then .buf 3 g off else .bad
  | 4 =>
    let c := off / 0x100000
    let o := off % 0x100000
    if c < 4 then
      if o < 0x40000 then .buf 0 (4 * (g / 4) + c) o
      else if 0x80000 ≤ o then .buf 1 (4 * (g / 4) + c) (o - 0x80000)
      else .bad
    else .bad
  | 8 => if off < 2 ^ 57 then .glob off else .bad
  | 15 => .sys off
  | _ => .bad

/-- Add d to bits [59:0] modulo 2^60; the tag stays (03 R29). -/
def ptrAdd (p : Word) (d : Int) : Word :=
  BitVec.ofNat 64 (tagOf p * 2 ^ 60 + (((offOf p : Int) + d) % (2 ^ 60 : Int)).toNat)

/-- The registers of a slot as its mode sees them (04 R49). -/
def Slot.acc (x : Slot) : Word := if x.priv then x.ka else x.a

def Slot.setAcc (x : Slot) (v : Word) : Slot := if x.priv then { x with ka := v } else { x with a := v }

def Slot.ptr (x : Slot) (n : Nat) : Word := if x.priv && n == 7 then x.kp7 else tget 0 x.p n

def Slot.setPtr (x : Slot) (n : Nat) (v : Word) : Slot :=
  if x.priv && n == 7 then { x with kp7 := v } else { x with p := tput x.p n v }

def Slot.stepOf (x : Slot) (n : Nat) : BitVec 16 := if x.priv && n == 7 then x.ks7 else tget 0 x.step n

def Slot.setStep (x : Slot) (n : Nat) (v : BitVec 16) : Slot :=
  if x.priv && n == 7 then { x with ks7 := v } else { x with step := tput x.step n v }

def Slot.flags (x : Slot) : BitVec 7 := if x.priv then x.kf else x.f

def Slot.setFlags (x : Slot) (v : BitVec 7) : Slot := if x.priv then { x with kf := v } else { x with f := v }

/-- Cores, slots and clusters of the package. -/
def State.core (s : State) (g : Nat) : Core := tget .reset s.cores g

def State.setCore (s : State) (g : Nat) (c : Core) : State := { s with cores := tput s.cores g c }

def State.slot (s : State) (g k : Nat) : Slot := tget .reset (s.core g).slots k

def State.setSlot (s : State) (g k : Nat) (x : Slot) : State :=
  s.setCore g { s.core g with slots := tput (s.core g).slots k x }

def State.cluster (s : State) (n : Nat) : Cluster := tget .reset s.clusters n

def State.setCluster (s : State) (n : Nat) (c : Cluster) : State := { s with clusters := tput s.clusters n c }

/-- The slot whose instruction runs. -/
def State.cur (s : State) : Slot := s.slot s.curCore s.curSlot

def State.setCur (s : State) (x : Slot) : State := s.setSlot s.curCore s.curSlot x

def State.curCoreOf (s : State) : Core := s.core s.curCore

def State.setCurCore (s : State) (c : Core) : State := s.setCore s.curCore c

/-- The accumulator, pointers and lc of the slot that runs. -/
def State.acc (s : State) : Word := s.cur.acc

def State.setAcc (s : State) (v : Word) : State := s.setCur (s.cur.setAcc v)

def State.ptr (s : State) (n : Nat) : Word := s.cur.ptr n

def State.setPtr (s : State) (n : Nat) (v : Word) : State := s.setCur (s.cur.setPtr n v)

/-- pN ← pN + d on bits [59:0] (03 R29). -/
def State.stepPtr (s : State) (n : Nat) (d : Int) : State := s.setPtr n (ptrAdd (s.ptr n) d)

def State.setLc (s : State) (v : BitVec 32) : State := s.setCur { s.cur with lc := v }

/-- Units (01 R7). -/
def clusterOf (g : Nat) : Nat := g / 4

def dieOf (g : Nat) : Nat := g / 256

/-- The units of lease records: the Calico of die d is unit d, its synchronisation engine unit 4 + d. -/
def leaseKey (unit idx : Nat) : Nat := unit * 2 ^ 20 + idx

def State.lease (s : State) (unit idx : Nat) : Lease := tget .unused s.leases (leaseKey unit idx)

def State.setLease (s : State) (unit idx : Nat) (l : Lease) : State :=
  { s with leases := tput s.leases (leaseKey unit idx) l }

def State.context (s : State) (c : Nat) : Context := tget .unused s.contexts c

def State.setContext (s : State) (c : Nat) (x : Context) : State := { s with contexts := tput s.contexts c x }

def State.link (s : State) (l : Nat) : Link := tget .reset s.links l

def State.setLink (s : State) (l : Nat) (x : Link) : State := { s with links := tput s.links l x }

/-- A gang, a launch or a graph never made. -/
def Gang.none : Gang :=
  { launch := 0, index := 0, die := 0, cluster := 0, state := .retired, reason := 0, hold := false, image := 0,
    reqDt := 0, placed := 0, order := 0, keep := [], packets := [] }

def Launch.none : Launch :=
  { ctx := 0, graph := 0, node := 0, ident := 0, ngang := 0, record := [], order := 0, left := 0, failed := false }

def State.gang (s : State) (n : Nat) : Gang := tget .none s.gangs n

def State.setGang (s : State) (n : Nat) (x : Gang) : State := { s with gangs := tput s.gangs n x }

def State.launch (s : State) (n : Nat) : Launch := tget .none s.launches n

/-- The gang on the cluster of core g, its launch, and its context (05 R76). -/
def State.gangOf (s : State) (g : Nat) : Gang :=
  match (s.cluster (clusterOf g)).gang with
  | .some n => s.gang n
  | .none => .none

def State.launchOf (s : State) (g : Nat) : Launch := s.launch (s.gangOf g).launch

def State.ctxOf (s : State) (g : Nat) : Nat := (s.launchOf g).ctx

/-- Die counters 0x0C0 to 0x0D5, indexed die × 256 + number (21 R358). -/
def State.bumpDie (s : State) (die num : Nat) : State :=
  let k := die * 256 + num
  { s with dieCtr := tput s.dieCtr k (tget 0 s.dieCtr k + 1) }

/-- Write bytes and block descriptors of memory. -/
def State.write (s : State) (k n v : Nat) : State := { s with mem := mwrite s.mem k n v }

def State.writeBytes (s : State) (k : Nat) (bs : List Byte) : State := { s with mem := mputs s.mem k bs }

/-- Flits of a path message (16 R308). -/
def bodyFlits : PathBody → Nat
  | .blocks bs => bs.length
  | _ => 1

/-- The chip a message goes to, its class and its flits (16 R291, R308); none for what does not use the fabric. -/
def OutMsg.flits : OutMsg → Option (Nat × Nat × Nat)
  | .request c _ => some (c, 0, 1)
  | .reply c _ _ => some (c, 1, 1)
  | .home c _ => some (c, 0, 1)
  | .homeReply c _ _ _ => some (c, 1, 1)
  | .path c m => some (c, 0, bodyFlits m.body)
  | .ack c _ => some (c, 1, 1)
  | .goBack c _ _ => some (c, 1, 1)
  | .holdNotice c _ => some (c, 1, 1)
  | .pull c _ _ => some (c, 0, 1)
  | .pullData c _ _ _ => some (c, 1, 64)
  | .pullRefused c _ _ => some (c, 1, 1)
  | .link c _ _ => some (c, 1, 1)
  | .pinDone c _ => some (c, 1, 1)
  | .mirror c _ _ _ _ => some (c, 1, 1)
  | .revoke c _ => some (c, 0, 1)
  | .msix _ _ => none
  | .linkDown _ => none
  | .flit _ _ _ => none

/-- A message of a path: it follows the chain of escape ports (16 R294). -/
def OutMsg.ordered : OutMsg → Bool
  | .path _ _ => true
  | _ => false

/-- The free buffers that a port's next channel has: at most 16 (16 R291). -/
def State.freeAt (s : State) (vc p : Nat) : Nat := min 16 (Config.freeBuffers s.ticks (8 * p + vc))

/-- The port with the most free buffers, the lowest of several (16 R292). -/
def State.freest (s : State) (vc : Nat) : List Nat → Option Nat
  | [] => none
  | p :: ps =>
    match s.freest vc ps with
    | none => some p
    | some q =>
      let a := s.freeAt vc p
      let b := s.freeAt vc q
      some (if b < a || a == b && p < q then p else q)

/-- THE HOP DECISION (16 R292, R294), by the table in force: a path message takes the escape port; any other the minimal port
that is up with the most free buffers, the escape port where all of them are down. None: it waits at the router. -/
def State.hopPort (s : State) (ordered : Bool) (dest vc : Nat) : Option Nat :=
  let h := tget ([], 0) s.hops dest
  let esc := if s.downPorts.contains h.2 then none else some h.2
  if ordered then esc
  else match s.freest vc ((h.1.take 4).filter fun p => !s.downPorts.contains p) with
    | some p => some p
    | none => esc

/-- n flits leave at a port on a channel (21 R359). -/
def State.countOut (s : State) (port vc n : Nat) : State :=
  let v := 8 * port + vc
  let old := tget (0, 0) s.portCtr v
  { s with portCtr := tput s.portCtr v ((old.1 + n) % 2 ^ 64, old.2) }

/-- A message leaves by the hop decision of its first link; its flits count at the port it takes, on the channel of its class and
hop 0 (16 R291, 21 R359). One for which no port is up waits. -/
def State.leave (s : State) (m : OutMsg) : State :=
  match m.flits with
  | none => { s with outbox := s.outbox ++ [m] }
  | some (c, k, n) =>
    match s.hopPort m.ordered c (4 * k) with
    | some p => { s with outbox := s.outbox ++ [m] }.countOut p (4 * k) n
    | none => { s with stuck := s.stuck ++ [m] }

/-- The timer of the fabric, ns (16 R292, R296). -/
def resendNs : Nat := 100000

/-- A message that only answers or informs: it carries no number of its own by which it could be asked for (16 R309). -/
def OutMsg.control : OutMsg → Bool
  | .ack _ _ | .goBack _ _ _ | .holdNotice _ _ | .pullRefused _ _ _ | .link _ _ _ | .pinDone _ _ | .mirror _ _ _ _ _ | .revoke _ _ => true
  | _ => false

/-- A message of that kind is numbered and kept for as long as a go-back request for it may come, and while it waits here (16 R309;
log 96). -/
def State.keepNote (s : State) (m : OutMsg) : State :=
  if m.control then
    { s with
      notes := (s.notes.filter fun n => decide (s.dt < n.at_ + resendNs) || s.stuck.contains n.msg) ++
        [{ id := s.noted, msg := m, tries := 0, at_ := s.dt }]
      noted := s.noted + 1 }
  else s

/-- A new message leaves (16 R291). -/
def State.emit (s : State) (m : OutMsg) : State := (s.leave m).keepNote m

def State.emitAll (s : State) : List OutMsg → State
  | [] => s
  | m :: ms => (s.emit m).emitAll ms

/-- Messages that waited for a port leave (16 R292). -/
def State.leaveAll (s : State) : List OutMsg → State
  | [] => s
  | m :: ms => (s.leave m).leaveAll ms

/-- A step that the package makes due takes its turn after those already due. -/
def State.later (s : State) (d : Due) : State := { s with agenda := s.agenda ++ [.due d] }

def State.laterAll (s : State) (ds : List Due) : State := { s with agenda := s.agenda ++ ds.map Turn.due }

end Sys2Proof.Machine
end

