-- ==== Sys2Proof/Machine/Formats.lean ====
section
/-!
DEFINITION. Number formats, exact numbers, and the conversion of one element (07 R114 to R127).
-/
namespace Sys2Proof.Machine

/-- An exact number: (-1)^neg × m × 2^e, an infinity, or NaN. A zero keeps its sign. -/
inductive Num where
  | nan
  | inf (neg : Bool)
  | fin (neg : Bool) (m : Nat) (e : Int)
  deriving DecidableEq, Repr

/-- The kinds of format (07 R114). -/
inductive FmtKind where
  | narrow
  | integer
  | wide
  deriving DecidableEq, Repr

/-- A defined numeric format: kind, width, unsigned, exponent bits, mantissa bits, bits below the element (a56: 8). -/
structure Fmt where
  kind  : FmtKind
  width : Nat
  uns   : Bool
  e     : Nat
  m     : Nat
  low   : Nat
  deriving DecidableEq, Repr

/-- The numeric format of a code; none for 0x00 and for reserved codes (07 R114). -/
def fmtOf (c : Nat) : Option Fmt :=
  let hi := c / 64
  let w := if c / 32 % 2 = 1 then 4 else 8
  let u := c / 16 % 2 = 1
  let e := c % 16
  if hi = 1 then
    if 1 ≤ e ∧ e ≤ (if u then w else w - 1) then
      some { kind := .narrow, width := w, uns := u, e := e, m := (if u then w - e else w - 1 - e), low := 0 }
    else none
  else if hi = 2 then
    if e = 0 then some { kind := .integer, width := w, uns := u, e := 0, m := 0, low := 0 } else none
  else if c = 0xC0 then some { kind := .wide, width := 16, uns := false, e := 5, m := 10, low := 0 }
  else if c = 0xC1 then some { kind := .wide, width := 16, uns := false, e := 8, m := 7, low := 0 }
  else if c = 0xC2 then some { kind := .wide, width := 32, uns := false, e := 8, m := 23, low := 0 }
  else if c = 0xC3 then some { kind := .wide, width := 64, uns := false, e := 11, m := 44, low := 8 }
  else none

/-- A reserved code: neither 0x00 nor a numeric format (07 R114). -/
def fmtReserved (c : Nat) : Bool := c != 0 && (fmtOf c).isNone

/-- The element width of a code, 0x00 taken as 8 (07 R114, 09 R178). -/
def widthOf (c : Nat) : Nat := ((fmtOf c).map (·.width)).getD 8

/-- Elements of a block at a width (07 R115). -/
def lanesOf (w : Nat) : Nat := 512 / w

def Fmt.bias (f : Fmt) : Int := (2 ^ (f.e - 1) : Nat) - 1

/-- The exponent of the least step of a format (07 R116); of an integer format 0. -/
def Fmt.qmin (f : Fmt) : Int := if f.kind = .integer then 0 else 1 - f.bias - f.m

/-- 8-bit narrow and wide formats have a NaN (07 R116, R118). -/
def Fmt.hasNaN (f : Fmt) : Bool := f.kind == .wide || (f.kind == .narrow && f.width == 8)

/-- The canonical NaN (07 R116, R118). -/
def Fmt.nan (f : Fmt) : Nat :=
  if f.kind = .wide then ((2 ^ f.e - 1) * 2 ^ f.m + 2 ^ (f.m - 1)) * 2 ^ f.low else if f.uns then 0xFF else 0x7F

/-- The largest finite magnitude n × 2^q (07 R119); of an integer format its largest positive value. -/
def Fmt.top (f : Fmt) : Nat × Int :=
  match f.kind with
  | .integer => ((if f.uns then 2 ^ f.width else 2 ^ (f.width - 1)) - 1, 0)
  | .wide => (2 ^ (f.m + 1) - 1, (2 ^ f.e - 2 : Nat) - f.bias - f.m)
  | .narrow =>
    let x := 2 ^ f.e - 1
    if f.width = 4 then (2 ^ (f.m + 1) - 1, (x : Int) - f.bias - f.m)
    else if f.m = 0 then (1, (x : Int) - 1 - f.bias)
    else (2 ^ (f.m + 1) - 2, (x : Int) - f.bias - f.m)

/-- Read one element (07 R116 to R118). -/
def Fmt.read (f : Fmt) (raw : Nat) : Num :=
  let bits := raw / 2 ^ f.low
  match f.kind with
  | .integer =>
    if f.uns then .fin false bits 0
    else if bits < 2 ^ (f.width - 1) then .fin false bits 0 else .fin true (2 ^ f.width - bits) 0
  | _ =>
    let neg := !f.uns && bits / 2 ^ (f.e + f.m) % 2 == 1
    let x := bits / 2 ^ f.m % 2 ^ f.e
    let mm := bits % 2 ^ f.m
    let ones := x == 2 ^ f.e - 1
    if f.kind = .wide ∧ ones then (if mm = 0 then .inf neg else .nan)
    else if f.kind = .narrow ∧ f.width = 8 ∧ ones ∧ mm = 2 ^ f.m - 1 then .nan
    else if x = 0 then .fin neg mm f.qmin
    else .fin neg (2 ^ f.m + mm) ((x : Int) - f.bias - f.m)

/-- Multiply by a power of two. -/
def Num.scale (x : Num) (k : Int) : Num :=
  match x with
  | .fin n m e => .fin n m (e + k)
  | y => y

/-- The real value of an element of a block with scale byte s (07 R121). -/
def Num.under (x : Num) (s : Nat) : Num := x.scale ((s : Int) - 127)

def Num.isZero : Num → Bool
  | .fin _ m _ => m == 0
  | _ => false

def Num.negate : Num → Num
  | .fin n m e => .fin (!n) m e
  | .inf n => .inf (!n)
  | .nan => .nan

def Num.sign : Num → Bool
  | .fin n _ _ => n
  | .inf n => n
  | .nan => false

def Num.absolute : Num → Num
  | .fin _ m e => .fin false m e
  | .inf _ => .inf false
  | .nan => .nan

def Num.isNaN : Num → Bool
  | .nan => true
  | _ => false

/-- m × 2^(e − q) for q ≤ e. -/
def lift (m : Nat) (e q : Int) : Nat := m * 2 ^ (e - q).toNat

/-- Compare two magnitudes m × 2^e. -/
def cmpMag (m : Nat) (e : Int) (n : Nat) (d : Int) : Ordering :=
  let q := min e d
  compare (lift m e q) (lift n d q)

/-- Compare two numbers neither of which is NaN; −0 equals +0. -/
def Num.cmp : Num → Num → Ordering
  | .nan, _ => .eq
  | _, .nan => .eq
  | .inf a, .inf b => if a = b then .eq else if a then .lt else .gt
  | .inf a, .fin .. => if a then .lt else .gt
  | .fin .., .inf b => if b then .gt else .lt
  | .fin a m e, .fin b n d =>
    let q := min e d
    let x : Int := if a then -(lift m e q : Int) else lift m e q
    let y : Int := if b then -(lift n d q : Int) else lift n d q
    compare x y

/-- Exact sum of two finite numbers; a zero sum is +0 unless down is set or both are −0. -/
def Num.addFin (down : Bool) (a : Bool) (m : Nat) (e : Int) (b : Bool) (n : Nat) (d : Int) : Num :=
  let q := min e d
  let x : Int := if a then -(lift m e q : Int) else lift m e q
  let y : Int := if b then -(lift n d q : Int) else lift n d q
  let z := x + y
  if z = 0 then
    (if m = 0 ∧ n = 0 ∧ a = b then .fin a 0 q else .fin down 0 q)
  else .fin (decide (z < 0)) z.natAbs q

/-- IEEE sum, exact (08 R155): an exact zero sum of non-zeros is −0 only under RDN. -/
def Num.add (down : Bool) : Num → Num → Num
  | .nan, _ => .nan
  | _, .nan => .nan
  | .inf a, .inf b => if a = b then .inf a else .nan
  | .inf a, .fin .. => .inf a
  | .fin .., .inf b => .inf b
  | .fin a m e, .fin b n d => Num.addFin down a m e b n d

/-- IEEE product, exact. -/
def Num.mul : Num → Num → Num
  | .nan, _ => .nan
  | _, .nan => .nan
  | .inf a, .inf b => .inf (a != b)
  | .inf a, .fin b n _ => if n = 0 then .nan else .inf (a != b)
  | .fin a m _, .inf b => if m = 0 then .nan else .inf (a != b)
  | .fin a m e, .fin b n d => .fin (a != b) (m * n) (e + d)

/-- Rounding modes: RNE 0, RTZ 1, RDN 2, RUP 3 (07 R124). -/
def roundUp (mode : Nat) (neg odd : Bool) (rest half2 : Nat) : Bool :=
  -- rest is the part below the step, doubled against half2, the whole step
  match mode with
  | 0 => half2 < 2 * rest || (2 * rest == half2 && odd)
  | 1 => false
  | 2 => neg && rest != 0
  | _ => !neg && rest != 0

/-- Round the magnitude m × 2^e to a multiple n × 2^q. -/
def roundTo (mode : Nat) (neg : Bool) (m : Nat) (e q : Int) : Nat :=
  if q ≤ e then lift m e q
  else
    let d := 2 ^ (q - e).toNat
    let n := m / d
    if roundUp mode neg (n % 2 == 1) (m % d) d then n + 1 else n

/-- The step of a format at a magnitude m × 2^e: m bits of mantissa, subnormals kept. -/
def Fmt.step (f : Fmt) (m : Nat) (e : Int) : Int :=
  if f.kind = .integer then 0 else max f.qmin (e + Nat.log2 m - f.m)

/-- Encode n × 2^q, a value of the format, with its sign. -/
def Fmt.pack (f : Fmt) (neg : Bool) (n : Nat) (q : Int) : Nat :=
  match f.kind with
  | .integer => if neg ∧ n ≠ 0 then (2 ^ f.width - n) % 2 ^ f.width else n
  | _ =>
    let s := if neg && !f.uns then 2 ^ (f.e + f.m) else 0
    if n = 0 then s * 2 ^ f.low
    else
      -- normalise to m + 1 bits where the exponent allows it
      let k := Nat.log2 n
      let top : Int := q + k
      if top - f.m < f.qmin then (s + lift n q f.qmin) * 2 ^ f.low
      else (s + (top + f.bias).toNat * 2 ^ f.m + (lift n q (min q (top - f.m)) / 2 ^ ((top - f.m) - min q (top - f.m)).toNat - 2 ^ f.m))
        * 2 ^ f.low

/-- The infinity of a wide format. -/
def Fmt.infBits (f : Fmt) (neg : Bool) : Nat :=
  ((if neg then 2 ^ (f.e + f.m) else 0) + (2 ^ f.e - 1) * 2 ^ f.m) * 2 ^ f.low

/-- The result of a conversion: the bits, whether E is set, whether the block is poisoned. -/
structure Conv where
  bits   : Nat
  e      : Bool
  poison : Bool
  deriving DecidableEq, Repr

/-- Beyond the largest finite value (07 R125): narrow and integer formats saturate, wide ones overflow as IEEE. -/
def Fmt.over (f : Fmt) (mode : Nat) (neg : Bool) : Conv :=
  let t := f.top
  if f.kind = .wide then
    let toInf := mode = 0 ∨ (mode = 2 ∧ neg) ∨ (mode = 3 ∧ ¬ neg)
    { bits := if toInf then f.infBits neg else f.pack neg t.1 t.2, e := false, poison := false }
  else if neg ∧ f.uns then { bits := 0, e := true, poison := false }
  else if neg ∧ f.kind = .integer then { bits := 2 ^ (f.width - 1), e := true, poison := false }
  else { bits := f.pack neg t.1 t.2, e := true, poison := false }

/-- Convert one element to a format under a mode and a destination scale (07 R125). -/
def Fmt.convert (f : Fmt) (mode s : Nat) (x : Num) : Conv :=
  match x with
  | .nan => if f.hasNaN then { bits := f.nan, e := false, poison := false } else { bits := 0, e := true, poison := true }
  | .inf neg => if f.kind = .wide then { bits := f.infBits neg, e := false, poison := false } else f.over mode neg
  | .fin neg m e0 =>
    let e := e0 + 127 - (s : Int)
    if m = 0 then { bits := f.pack (neg && !(f.kind == .integer) && !f.uns) 0 0, e := false, poison := false }
    else
      let q := f.step m e
      let n := roundTo mode neg m e q
      if n ≠ 0 ∧ neg ∧ f.uns then { bits := 0, e := true, poison := false }
      else if f.kind = .integer ∧ neg ∧ ¬ f.uns then
        (if n ≤ 2 ^ (f.width - 1) then { bits := f.pack true n q, e := false, poison := false } else f.over mode neg)
      else if cmpMag n q f.top.1 f.top.2 = .gt then f.over mode neg
      else { bits := f.pack (neg && !f.uns) n q, e := false, poison := false }

/-- The greatest magnitude of the finite numbers of a list. -/
def maxMag : List Num → Nat × Int
  | [] => (0, 0)
  | .fin _ m e :: t =>
    let r := maxMag t
    if cmpMag m e r.1 r.2 = .gt then (m, e) else r
  | _ :: t => maxMag t

/-- The smallest s from s on with M ≤ top × 2^(s − 127), or 254 (07 R127). -/
def fitScale (m : Nat) (e : Int) (top : Nat × Int) : Nat → Nat → Nat
  | 0, _ => 254
  | fuel + 1, s =>
    if cmpMag m e top.1 (top.2 + s - 127) != .gt then s else fitScale m e top fuel (s + 1)

def Fmt.autoScale (f : Fmt) (xs : List Num) : Nat :=
  let r := maxMag xs
  if r.1 = 0 then 127 else fitScale r.1 r.2 f.top 255 0

/-- Element i of a block's data at a width (07 R115). -/
def elemAt (d : List Byte) (w i : Nat) : Nat :=
  if w = 4 then (d.getD (i / 2) 0).toNat / (if i % 2 = 1 then 16 else 1) % 16
  else leNat ((d.drop (i * (w / 8))).take (w / 8))

def elemsOf (d : List Byte) (w : Nat) : List Nat := (List.range (lanesOf w)).map (elemAt d w)

/-- Pack elements into bytes (07 R115). -/
def packNibbles : List Nat → List Byte
  | a :: b :: t => BitVec.ofNat 8 (a % 16 + 16 * (b % 16)) :: packNibbles t
  | [a] => [BitVec.ofNat 8 (a % 16)]
  | [] => []

def packElems (w : Nat) (es : List Nat) : List Byte :=
  if w = 4 then packNibbles es else es.flatMap fun x => leBytes (w / 8) (x % 2 ^ w)

/-- The numbers a block holds: elements with the block's scale applied (07 R121). -/
def blockNums (f : Fmt) (b : Block) : List Num := (elemsOf b.data f.width).map fun r => (f.read r).under b.scale.toNat

def zeroData : List Byte := List.replicate 64 0

/-- A poisoned destination block of a format (07 R122). -/
def poisonBlock (fmt : Byte) : Block := { data := zeroData, fmt := fmt, scale := 255 }

/-- The fields of vf (07 R124). -/
def vfFmt (v : BitVec 19) : Nat := v.toNat % 256
def vfMode (v : BitVec 19) : Nat := v.toNat / 256 % 4
def vfAuto (v : BitVec 19) : Bool := v.getLsbD 10
def vfScale (v : BitVec 19) : Nat := v.toNat / 2048

/-- Convert the lanes of one destination block under a result format word: the block and whether E is set (07 R124 to
R127). -/
def convertBlock (f : Fmt) (code : Byte) (vf : BitVec 19) (xs : List Num) : Block × Bool :=
  let s := if vfAuto vf then f.autoScale xs else vfScale vf
  if s = 255 then (poisonBlock code, true)
  else
    let cs := xs.map (f.convert (vfMode vf) s)
    let e := cs.any fun c => c.e
    if cs.any fun c => c.poison then (poisonBlock code, true)
    else ({ data := packElems f.width (cs.map fun c => c.bits), fmt := code, scale := BitVec.ofNat 8 s }, e)

end Sys2Proof.Machine
end

