-- ==== Sys2Proof/Machine/Exact.lean ====
section
/-!
DEFINITION. Exact lane arithmetic (08 R154 to R156) and the special functions of 08 R157, correctly rounded to binary32.
-/
namespace Sys2Proof.Machine

/-- binary32, and a[31:0] read as one (08 R152). -/
def fmt32 : Fmt := { kind := .wide, width := 32, uns := false, e := 8, m := 23, low := 0 }

def num32 (w : Word) : Num := fmt32.read (w.toNat % 2 ^ 32)

/-- Round a number RNE to binary32, as bits (08 R160). -/
def bits32 (x : Num) : Nat := (fmt32.convert 0 127 x).bits

/-- n × 2^e with a mark below its last bit where it was cut: every rounding to fewer bits sees the exact side. -/
def sticky (neg : Bool) (n : Nat) (cut : Bool) (e : Int) : Num := .fin neg (2 * n + cut.toNat) (e - 1)

/-- x / y (08 R155). The quotient carries 130 bits and the mark. -/
def Num.quot : Num → Num → Num
  | .nan, _ => .nan
  | _, .nan => .nan
  | .inf _, .inf _ => .nan
  | .inf a, .fin b _ _ => .inf (a != b)
  | .fin a _ _, .inf b => .fin (a != b) 0 0
  | .fin a m e, .fin b n d =>
    if n = 0 then (if m = 0 then .nan else .inf (a != b))
    else if m = 0 then .fin (a != b) 0 0
    else
      let k := 130 + Nat.log2 n - Nat.log2 m
      sticky (a != b) (m * 2 ^ k / n) (m * 2 ^ k % n != 0) (e - d - k)

/-- The integer square root, bit by bit from bit k down. -/
def isqrtFrom (n : Nat) : Nat → Nat → Nat
  | 0, r => r
  | k + 1, r =>
    let t := r + 2 ^ k
    isqrtFrom n k (if t * t ≤ n then t else r)

def isqrt (n : Nat) : Nat := isqrtFrom n (Nat.log2 n / 2 + 1) 0

/-- The square root of m × 2^e, with 2k more bits and the mark. -/
def rootFin (m : Nat) (e : Int) (k : Nat) : Num :=
  let odd := e % 2 = 1
  let mm := if odd then 2 * m else m
  let ee := if odd then e - 1 else e
  let n := mm * 2 ^ (2 * k)
  let r := isqrt n
  sticky false r (r * r != n) (ee / 2 - k)

/-- √x (08 R155). -/
def Num.root : Num → Num
  | .nan => .nan
  | .inf n => if n then .nan else .inf false
  | .fin n m e => if m = 0 then .fin n 0 0 else if n then .nan else rootFin m e 140

/-- min and max with −0 below +0, and one NaN absent (08 R156). -/
def Num.below (x y : Num) : Bool :=
  match x.cmp y with
  | .lt => true
  | .gt => false
  | .eq => x.sign && !y.sign

def Num.least (x y : Num) : Num := if x.isNaN then y else if y.isNaN then x else if y.below x then y else x

def Num.greatest (x y : Num) : Num := if x.isNaN then y else if y.isNaN then x else if x.below y then y else x

/-! Fixed-point values with n fractional bits stand for v / 2^n; an interval (lo, hi) holds the exact value. -/

/-- An interval of integers. -/
abbrev Iv := Int × Int

def iadd (a b : Iv) : Iv := (a.1 + b.1, a.2 + b.2)

def ineg (a : Iv) : Iv := (-a.2, -a.1)

/-- Floor and ceiling of a division by a positive number. -/
def fdiv (a : Int) (b : Nat) : Int := Int.fdiv a b

def cdiv (a : Int) (b : Nat) : Int := -(Int.fdiv (-a) b)

/-- Product of two intervals at n fractional bits, outward. -/
def imul (n : Nat) (a b : Iv) : Iv :=
  let p := a.1 * b.1
  let q := a.1 * b.2
  let r := a.2 * b.1
  let s := a.2 * b.2
  (fdiv (min (min p q) (min r s)) (2 ^ n), cdiv (max (max p q) (max r s)) (2 ^ n))

/-- Division of an interval by a positive whole number, outward. -/
def idivn (a : Iv) (k : Nat) : Iv := (fdiv a.1 k, cdiv a.2 k)

/-- 2^(2n) divided by a positive interval, outward. -/
def irecip (n : Nat) (a : Iv) : Iv :=
  (fdiv (2 ^ (2 * n) : Int) a.2.toNat, cdiv (2 ^ (2 * n) : Int) a.1.toNat)

/-- Σ from term k on: term_{j+1} = term_j × z / d(j+1), with alternating or constant sign, and a bound on the tail. -/
def series (n : Nat) (z : Iv) (neg : Bool) (d : Nat → Nat) : Nat → Nat → Iv → Iv → Iv
  | 0, _, t, acc =>
    let m := max t.1.natAbs t.2.natAbs
    (acc.1 - 2 * m - 1, acc.2 + 2 * m + 1)
  | fuel + 1, j, t, acc =>
    let u := idivn (imul n t z) (d j)
    let u := if neg then ineg u else u
    series n z neg d fuel (j + 1) u (iadd acc u)

/-- e^z for an interval z with |z| ≤ 1. -/
def iexp (n : Nat) (z : Iv) : Iv :=
  let one : Iv := (2 ^ n, 2 ^ n)
  series n z false (fun j => j + 1) (n / 2 + 20) 0 one one

/-- atanh-type series Σ y^(2j+1)/(2j+1), times 2: ln((1 + y)/(1 − y)), for |y| ≤ 1/3. -/
def ilogAux (n : Nat) (y2 : Iv) : Nat → Nat → Iv → Iv → Iv
  | 0, _, p, acc =>
    let m := max p.1.natAbs p.2.natAbs
    (acc.1 - 2 * m - 1, acc.2 + 2 * m + 1)
  | fuel + 1, j, p, acc =>
    let q := imul n p y2
    ilogAux n y2 fuel (j + 1) q (iadd acc (idivn q (2 * j + 3)))

def ilogRatio (n : Nat) (y : Iv) : Iv :=
  let r := ilogAux n (imul n y y) (n / 3 + 20) 0 y y
  (2 * r.1, 2 * r.2)

/-- ln 2 = ln((1 + 1/3)/(1 − 1/3)). -/
def iln2 (n : Nat) : Iv := ilogRatio n (fdiv (2 ^ n) 3, cdiv (2 ^ n) 3)

/-- arctan(1/k) by its alternating series. -/
def iatanInv (n k : Nat) : Nat → Nat → Iv → Bool → Iv → Iv
  | 0, _, p, _, acc =>
    let m := max p.1.natAbs p.2.natAbs
    (acc.1 - m - 1, acc.2 + m + 1)
  | fuel + 1, j, p, neg, acc =>
    let q := idivn p (k * k)
    let u := idivn q (2 * j + 3)
    iatanInv n k fuel (j + 1) q (!neg) (iadd acc (if neg then ineg u else u))

def iatan1 (n k : Nat) : Iv :=
  let p : Iv := (fdiv (2 ^ n) k, cdiv (2 ^ n) k)
  iatanInv n k (n / 4 + 20) 0 p true p

/-- π = 16 arctan(1/5) − 4 arctan(1/239). -/
def ipi (n : Nat) : Iv :=
  let a := iatan1 n 5
  let b := iatan1 n 239
  (16 * a.1 - 4 * b.2, 16 * a.2 - 4 * b.1)

/-- sin z and cos z for 0 ≤ z ≤ 1. -/
def isin (n : Nat) (z : Iv) : Iv :=
  series n (imul n z z) true (fun j => (2 * j + 2) * (2 * j + 3)) (n / 4 + 20) 0 z z

def icos (n : Nat) (z : Iv) : Iv :=
  let one : Iv := (2 ^ n, 2 ^ n)
  series n (imul n z z) true (fun j => (2 * j + 1) * (2 * j + 2)) (n / 4 + 20) 0 one one

/-- m × 2^e at n fractional bits, outward. -/
def ifix (n : Nat) (m : Nat) (e : Int) : Iv :=
  let k := e + n
  if 0 ≤ k then ((m * 2 ^ k.toNat : Nat), (m * 2 ^ k.toNat : Nat))
  else (fdiv m (2 ^ (-k).toNat), cdiv m (2 ^ (-k).toNat))

/-- The binary32 that both ends of a positive interval (at scale 2^q) round to, if there is one. -/
def agree (neg : Bool) (a : Iv) (q : Int) : Option Num :=
  if 0 < a.1 then
    let x := fmt32.convert 0 127 (sticky neg a.1.toNat false q)
    let y := fmt32.convert 0 127 (sticky neg a.2.toNat false q)
    if x.bits = y.bits then some (fmt32.read x.bits) else none
  else none

/-- An enclosure of a value: its sign, a positive interval, and the power of two of its unit. -/
abbrev Near := Bool × Iv × Int

/-- The binary32 nearest to the middle of an enclosure. -/
def middle (x : Near) : Num := fmt32.read (fmt32.convert 0 127 (sticky x.1 (x.2.1.1 + x.2.1.2).toNat false (x.2.2 - 1))).bits

/-- Try growing precisions until the enclosure decides the rounding (08 R157). The exact values are no ties: a transcendental
function of a dyadic number has no dyadic value but those taken apart. UNVERIFIED: that the last precision, far beyond the bits
of the inputs, decides every input is not proved; one that it left open would take the middle of its enclosure (log 11). -/
def ziv (f : Nat → Near) : List Nat → Num
  | [] => .nan
  | n :: ns =>
    let y := f n
    match agree y.1 y.2.1 y.2.2 with
    | some x => x
    | none => if ns.isEmpty then middle y else ziv f ns

def precisions : List Nat := [64, 128, 256, 512, 1024, 2048]

/-- The integer part, rounded to nearest, and the rest of m × 2^e, as (k, r) with value k + r, |r| ≤ 1/2. -/
def nearest (neg : Bool) (m : Nat) (e : Int) : Int :=
  let v : Int := if 0 ≤ e then m * 2 ^ e.toNat else (2 * m + 2 ^ (-e).toNat) / 2 ^ ((-e).toNat + 1)
  if neg then -v else v

/-- A small number: 1 with a mark on the side of the sign, what a function next to 1 rounds from. -/
def nearOne (up : Bool) : Num := if up then .fin false (2 ^ 200 + 1) (-200) else .fin false (2 ^ 200 - 1) (-200)

/-- 2^x: 2^k × e^(r ln 2). -/
def exp2Fin (neg : Bool) (m : Nat) (e : Int) : Num :=
  if m = 0 then .fin false 1 0
  else if 9 ≤ (Nat.log2 m : Int) + e then (if neg then .fin false 0 0 else .inf false)
  else if (Nat.log2 m : Int) + e < -60 then fmt32.read (fmt32.convert 0 127 (nearOne (!neg))).bits
  else
    let k := nearest neg m e
    if cmpMag m e k.natAbs 0 = .eq then fmt32.read (fmt32.convert 0 127 (.fin false 1 k)).bits
    else ziv (fun n =>
      let x := ifix n m e
      let x := if neg then ineg x else x
      let r : Iv := (x.1 - k * 2 ^ n, x.2 - k * 2 ^ n)
      (false, iexp n (imul n r (iln2 n)), k - n)) precisions

/-- log2 x for x > 0: k + ln(1.f)/ln 2; exact at powers of two. -/
def log2Fin (m : Nat) (e : Int) : Num :=
  let l := Nat.log2 m
  if m = 2 ^ l then (let k : Int := l + e; fmt32.read (fmt32.convert 0 127 (.fin (decide (k < 0)) k.natAbs 0)).bits)
  else
    -- take m × 2^-l in [2/3, 4/3) so that y = (t − 1)/(t + 1) is small
    let hi := decide (4 * 2 ^ l ≤ 3 * m)
    let k : Int := l + e + hi.toNat
    let d : Nat := 2 ^ (l + hi.toNat)
    ziv (fun n =>
      let num : Int := (m : Int) - d
      let den : Nat := m + d
      let y : Iv := (fdiv (num * 2 ^ n) den, cdiv (num * 2 ^ n) den)
      let v := ilogRatio n y
      let w := irecip n (iln2 n)
      let r := imul n v w
      let t : Iv := (r.1 + k * 2 ^ n, r.2 + k * 2 ^ n)
      if 0 < t.1 then (false, t, -n) else (true, ineg t, -n)) precisions

/-- 1/√x for x > 0: the root of a reciprocal with many bits; exact results have few. -/
def rsqrtFin (m : Nat) (e : Int) : Num :=
  let odd := e % 2 = 1
  let mm := if odd then 2 * m else m
  let ee := if odd then e - 1 else e
  -- 2^(2k) / mm, its root, and whether either was cut
  let k := 200 + Nat.log2 mm
  let q := 2 ^ (2 * k) / mm
  let r := isqrt q
  sticky false r (r * r * mm != 2 ^ (2 * k)) (-(ee / 2) - k)

/-- Reduce |x| of sin πx, cos πx: x mod 2 in units of 2^e, for e < 0. -/
def mod2 (m : Nat) (e : Int) : Nat := m % 2 ^ ((-e).toNat + 1)

/-- sin(π t) for 0 < t < 1/2 given as m × 2^e, correctly rounded, with a sign. -/
def sinPiSmall (neg : Bool) (m : Nat) (e : Int) : Num :=
  -- up to 1/4 the sine, above the cosine of the complement
  let d := (-e).toNat
  let low := decide (4 * m ≤ 2 ^ d)
  let shift := if low then (-(Nat.log2 m : Int) - e).toNat else 0
  ziv (fun n =>
    let p := n + shift
    let z := imul p (ipi p) (if low then ifix p m e else ifix p (2 ^ (d - 1) - m) e)
    (neg, if low then isin p z else icos p z, -p)) precisions

/-- sin πx (08 R157): integers give 0 with the sign of x. -/
def sinPiFin (neg : Bool) (m : Nat) (e : Int) : Num :=
  if m = 0 ∨ 0 ≤ e then .fin neg 0 0
  else
    let d := (-e).toNat
    let r := mod2 m e
    let flip := decide (2 ^ d ≤ r)
    let t := r % 2 ^ d
    if t = 0 then .fin neg 0 0
    else
      let t := if 2 ^ d < 2 * t then 2 ^ d - t else t
      if 2 * t = 2 ^ d then .fin (neg != flip) 1 0
      else sinPiSmall (neg != flip) t e

/-- cos πx: half-integers give +0. -/
def cosPiFin (m : Nat) (e : Int) : Num :=
  if m = 0 then .fin false 1 0
  else if 0 ≤ e then .fin (decide (e = 0) && m % 2 == 1) 1 0
  else
    let d := (-e).toNat
    let r := mod2 m e
    let r := if 2 ^ d < r then 2 ^ (d + 1) - r else r
    -- 0 ≤ r ≤ 1: cos πr = sin π(1/2 − r)
    if 2 * r = 2 ^ d then .fin false 0 0
    else if r = 0 then .fin false 1 0
    else if r = 2 ^ d then .fin true 1 0
    else if 2 * r < 2 ^ d then sinPiSmall false (2 ^ d - 2 * r) (e - 1)
    else sinPiSmall true (2 * r - 2 ^ d) (e - 1)

/-- e^-y for y > 0 given as m × 2^e, an interval at n bits: (e^(−y / 2^j))^(2^j). -/
def isquare (n : Nat) : Nat → Iv → Iv
  | 0, a => a
  | j + 1, a => isquare n j (imul n a a)

def iexpNeg (n : Nat) (m : Nat) (e : Int) : Iv :=
  let j := ((Nat.log2 m : Int) + e + 1).toNat
  isquare n j (iexp n (ineg (ifix n m (e - j))))

/-- tanh x = (1 − u)/(1 + u), u = e^(−2|x|). -/
def tanhFin (neg : Bool) (m : Nat) (e : Int) : Num :=
  if m = 0 then .fin neg 0 0
  else
    let l : Int := (Nat.log2 m : Int) + e
    let f := fun x : Num => fmt32.read (fmt32.convert 0 127 x).bits
    if 5 ≤ l then f (if neg then (nearOne false).negate else nearOne false)
    else if l < -40 then f (.fin neg (m * 2 ^ 200 - 1) (e - 200))
    else
      ziv (fun n =>
        let p := n + (-(min l 0)).toNat
        let one : Int := 2 ^ p
        let u := iexpNeg p m (e + 1)
        (neg, imul p (one - u.2, one - u.1) (irecip p (one + u.1, one + u.2)), -p)) precisions

/-- 1/(1 + e^−x). -/
def sigmFin (neg : Bool) (m : Nat) (e : Int) : Num :=
  if m = 0 then .fin false 1 (-1)
  else
    let l : Int := (Nat.log2 m : Int) + e
    let f := fun x : Num => fmt32.read (fmt32.convert 0 127 x).bits
    if 8 ≤ l then f (if neg then .fin false 1 (-200) else nearOne false)
    else if l < -60 then f (.fin false (if neg then 2 ^ 200 - 1 else 2 ^ 200 + 1) (-201))
    else
      ziv (fun n =>
        let p := n + (if neg then 2 ^ (l + 1).toNat * 2 else 0)
        let one : Int := 2 ^ p
        let u := iexpNeg p m e
        let r := irecip p (one + u.1, one + u.2)
        (false, if neg then imul p u r else r, -p)) precisions

/-- erf x = (2/√π) Σ (−1)^j x^(2j+1) / (j! (2j+1)): the terms p_j = x^(2j+1)/j!. -/
def ierfAux (n : Nat) (x2 : Iv) : Nat → Nat → Iv → Bool → Iv → Iv
  | 0, _, p, _, acc =>
    let m := max p.1.natAbs p.2.natAbs
    (acc.1 - m - 1, acc.2 + m + 1)
  | fuel + 1, j, p, neg, acc =>
    let q := idivn (imul n p x2) (j + 1)
    let u := idivn q (2 * j + 3)
    ierfAux n x2 fuel (j + 1) q (!neg) (iadd acc (if neg then ineg u else u))

/-- An interval for √v of a positive interval. -/
def isqrtIv (n : Nat) (a : Iv) : Iv :=
  ((isqrt (a.1.toNat * 2 ^ n) : Int), (isqrt (a.2.toNat * 2 ^ n) : Int) + 1)

def erfFin (neg : Bool) (m : Nat) (e : Int) : Num :=
  if m = 0 then .fin neg 0 0
  else
    let l : Int := (Nat.log2 m : Int) + e
    let f := fun x : Num => fmt32.read (fmt32.convert 0 127 x).bits
    if 3 ≤ l then f (if neg then (nearOne false).negate else nearOne false)
    else
      ziv (fun n =>
        let p := n + (-(min l 0)).toNat + 120
        let x := ifix p m e
        let s := ierfAux p (imul p x x) (p / 2 + 250) 0 x true x
        let c := irecip p (isqrtIv p (ipi p))
        (neg, imul p (2 * s.1, 2 * s.2) c, -p)) precisions

/-- The special functions (08 R157). -/
inductive Special where
  | exp2 | log2 | rcp | rsqrt | sinpi | cospi | tanh | sigm | erf
  deriving DecidableEq, Repr

/-- f(x) rounded once to binary32 under RNE, with the special values of 08 R157. -/
def special (f : Special) (x : Num) : Num :=
  let r := fun y : Num => fmt32.read (fmt32.convert 0 127 y).bits
  match f, x with
  | _, .nan => .nan
  | .exp2, .inf n => if n then .fin false 0 0 else .inf false
  | .exp2, .fin n m e => exp2Fin n m e
  | .log2, .inf n => if n then .nan else .inf false
  | .log2, .fin n m e => if m = 0 then .inf true else if n then .nan else log2Fin m e
  | .rcp, y => r (Num.quot (.fin false 1 0) y)
  | .rsqrt, .inf n => if n then .nan else .fin false 0 0
  | .rsqrt, .fin n m e => if m = 0 then .inf n else if n then .nan else r (rsqrtFin m e)
  | .sinpi, .inf _ => .nan
  | .sinpi, .fin n m e => sinPiFin n m e
  | .cospi, .inf _ => .nan
  | .cospi, .fin _ m e => cosPiFin m e
  | .tanh, .inf n => .fin n 1 0
  | .tanh, .fin n m e => tanhFin n m e
  | .sigm, .inf n => if n then .fin false 0 0 else .fin false 1 0
  | .sigm, .fin n m e => sigmFin n m e
  | .erf, .inf n => .fin n 1 0
  | .erf, .fin n m e => erfFin n m e

end Sys2Proof.Machine
end

