-- ==== Sys2Proof/Machine/Records.lean ====
section
/-!
DEFINITION. Error records, completions of packets and graphs, and the requests that leave the chip.
-/
namespace Sys2Proof.Machine

/-- The 64 bytes of an error record (15 R287). -/
structure ErrorRecord where
  kind   : Nat
  ctx    : Nat
  chip   : Nat
  die    : Nat
  slot   : Nat
  dt     : Nat
  launch : Word
  gang   : Nat
  core   : Nat
  island : Nat
  detA   : Word
  detV   : Word
  pc     : Word
  deriving DecidableEq, Repr

def ErrorRecord.bytes (r : ErrorRecord) : List Byte :=
  leBytes 2 r.kind ++ leBytes 2 r.ctx ++ leBytes 2 r.chip ++ leBytes 1 r.die ++ leBytes 1 r.slot ++ leBytes 8 r.dt ++
  leBytes 8 r.launch.toNat ++ leBytes 4 r.gang ++ leBytes 2 r.core ++ leBytes 2 r.island ++ leBytes 8 r.detA.toNat ++
  leBytes 8 r.detV.toNat ++ leBytes 8 r.pc.toNat ++ leBytes 8 0

/-- Stage an error record for the error ring of the link that granted its context (15 R287, 20 R337). -/
def State.report (s : State) (r : ErrorRecord) : State :=
  let l := (s.context r.ctx).link
  s.setLink l { s.link l with staged := (s.link l).staged ++ [r.bytes] }

/-- A record of a context with no slot, gang or core (15 R287: the values of an absent field). -/
def ctxRecord (s : State) (kind ctx die : Nat) (detA detV : Word) : ErrorRecord :=
  { kind := kind, ctx := ctx, chip := s.chip, die := die, slot := 0xFF, dt := s.dt, launch := 0, gang := 0xFFFFFFFF,
    core := 0xFFFF, island := 0xFFFF, detA := detA, detV := detV, pc := 0 }

/-- A record of slot k of core g (15 R287). -/
def slotRecord (s : State) (kind g k : Nat) (detA detV : Word) : ErrorRecord :=
  { kind := kind, ctx := s.ctxOf g, chip := s.chip, die := dieOf g, slot := k, dt := s.dt,
    launch := (s.launchOf g).ident, gang := (s.gangOf g).index, core := g, island := g, detA := detA, detV := detV,
    pc := (s.slot g k).pc }

/-- What the result field of a packet's entry holds (20 R332): zero for the kinds that return 0; the life or 0 of a renewal and
the bytes that a copy has moved, whatever the status; a free value where another packet failed with no result stated, or its result
is not stated. -/
def entryResult (p : Packet) (k : Nat) (result : Word) (status : Nat) : Word :=
  if p.kind = 3 ∨ p.kind = 5 ∨ p.kind = 10 then 0
  else if p.kind = 2 ∨ p.kind = 6 then result
  else if status = 0 ∨ status = 4 ∨ status = 6 ∨ status = 8 then result
  else Config.openResult k

/-- The detail of an entry (20 R334): missing sectors of a copy, the lowest failed node of a graph, else a free value. -/
def entryDetail (p : Packet) (k status detail : Nat) : Nat :=
  if p.kind = 6 ∨ status = 5 then detail else Config.openDetail k

/-- Finish started packet k: its completion entry becomes due (20 R334). -/
def State.finishPacket (s : State) (k : Nat) (result : Word) (status detail : Nat) : State :=
  match s.started.lookup k with
  | none => s
  | some p =>
    { s with
      started := tdel s.started k
      finished := s.finished ++ [{ link := p.link, q := p.q, tag := p.tag, result := entryResult p k result status,
                                   seq := p.seq, kind := p.kind, status := status, detail := entryDetail p k status detail,
                                   tl := p.tl }] }

/-- Finish packets with no result. -/
def State.finishAll (s : State) (ks : List Nat) (status : Nat) : State := ks.foldl (fun t k => t.finishPacket k 0 status 0) s

/-- Mark timeline number n of a context as completed (20 R332); number 0 is none. -/
def State.tlDone (s : State) (ctx n : Nat) : State :=
  if n = 0 then s else s.setContext ctx { s.context ctx with tlDone := (s.context ctx).tlDone ++ [n] }

/-- The front end's timeline counter: the largest n with operations 1 to n completed (20 R332, 09 R190). -/
def tlCount (done : List Nat) : Nat → Nat → Nat
  | 0, n => n
  | fuel + 1, n => if done.contains (n + 1) then tlCount done fuel (n + 1) else n

def Graph.none : Graph := { ctx := 0, link := 0, q := 0, number := 0, total := 0, nodes := [], packet := .none, whole := false }

def Node.none : Node := { image := 0, ident := 0, preds := [], state := 0, order := 0, log := [] }

def State.graph (s : State) (g : Nat) : Graph := tget .none s.graphs g

def Graph.node (x : Graph) (n : Nat) : Node := tget .none x.nodes n

def Graph.setNode (x : Graph) (n : Nat) (v : Node) : Graph := { x with nodes := tput x.nodes n v }

/-- Fail every node from index n on that depends on a failed one; predecessors stand below their successors (20 R336). -/
def Graph.cascade (x : Graph) : Nat → Nat → Graph
  | 0, _ => x
  | fuel + 1, n =>
    let y := x.node n
    let bad := y.preds.any fun p => (x.node p).state == 3
    Graph.cascade (if bad && y.state == 0 then x.setNode n { y with state := 3 } else x) fuel (n + 1)

/-- The lowest failed node of a graph. -/
def Graph.firstFailed (x : Graph) : Nat → Nat → Option Nat
  | 0, _ => .none
  | fuel + 1, n => if (x.node n).state == 3 then some n else Graph.firstFailed x fuel (n + 1)

def Graph.settled (x : Graph) : Bool := x.whole && (List.range x.total).all fun n => 2 ≤ (x.node n).state

/-- Gangs of a graph's launches that are not yet over: what they write comes before the graph's entry (20 R330). -/
def State.graphRuns (s : State) (g : Nat) : Bool := s.launches.any fun e => e.2.graph == g && decide (0 < e.2.left)

/-- Complete a graph whose nodes have all completed or failed (20 R336): status 0, or 5 with the lowest failed node. -/
def State.checkGraph (s : State) (g : Nat) : State :=
  let x := s.graph g
  if x.settled && !s.graphRuns g then
    match x.packet with
    | .none => s
    | some k =>
      let tl := ((s.started.lookup k).map (·.tl)).getD 0
      let bad := x.firstFailed x.total 0
      let s := { s with graphs := tput s.graphs g { x with packet := .none } }
      (s.tlDone x.ctx tl).finishPacket k 0 (if bad.isSome then 5 else 0) (bad.getD 0)
  else s

/-- The nodes of a graph that no launch has taken and whose predecessors have all completed become ready (20 R336). -/
def Graph.readyNodes (x : Graph) : List Nat :=
  (List.range x.total).filter fun n =>
    (x.node n).state == 0 && (x.node n).preds.all fun p => (x.node p).state == 2

/-- A node completes (05 R79): its successors enter the ready pool. -/
def State.nodeDone (s : State) (g n : Nat) : State :=
  let x := s.graph g
  let y := x.setNode n { x.node n with state := 2 }
  let fresh := y.readyNodes.filter fun m => (y.node m).preds.contains n
  let s := ({ s with graphs := tput s.graphs g y }).laterAll (fresh.map (Due.nodeReady g))
  s.checkGraph g

/-- A node fails, and with it every node that depends on it (20 R336). -/
def State.nodeFail (s : State) (g n : Nat) : State :=
  let x := s.graph g
  let y := x.setNode n { x.node n with state := 3 }
  ({ s with graphs := tput s.graphs g (y.cascade y.total 0) }).checkGraph g

/-- One gang of a launch is over; the launch completes when its last gang retires (05 R79). -/
def State.gangOver (s : State) (l : Nat) (failed : Bool) : State :=
  let x := s.launch l
  let y := { x with left := x.left - 1, failed := x.failed || failed }
  let s := { s with launches := tput s.launches l y }
  if failed && !x.failed then s.nodeFail x.graph x.node
  else if y.left = 0 then (if y.failed then s.checkGraph x.graph else s.nodeDone x.graph x.node)
  else s

/-- The cores of cluster c. -/
def coresOf (c : Nat) : List Nat := [4 * c, 4 * c + 1, 4 * c + 2, 4 * c + 3]

/-- The owner numbers among the requests that leave the chip: cores have theirs; engines; core c of a gang that has left its cluster,
for what its slots still have under way (11 R226); a copy packet, for the descriptor it has sent; what nobody waits for any more. -/
def quantOwner (die : Nat) : Nat := 1024 + die

def copyOwner (id : Nat) : Nat := 2048 + 3 * id

def savedOwner (n c : Nat) : Nat := 2049 + 3 * (4 * n + c)

def queueOwner (k : Nat) : Nat := 2053 + 3 * k

def nobody : Nat := 2050

/-- Whether an unordered request writes (10 R209). -/
def opWrites : RemoteOp → Bool
  | .read _ => false
  | .copy .. => false
  | .copyEnd _ => false
  | _ => true

/-- An unordered request of a slot to another chip (16 R292): the station keeps it until it is answered. -/
def State.requestFill (s : State) (fill : Option (Nat × Nat)) (g k ctx chip pa : Nat) (op : RemoteOp) : State :=
  { s.emit (.request chip { chip := s.chip, id := s.nextId, ctx := ctx, pa := pa, op := op, tagOk := true }) with
    nextId := s.nextId + 1
    remote := s.remote ++
      [{ id := s.nextId, core := g, slot := k, ctx := ctx, chip := chip, pa := pa, op := op, resend := 0, since := s.dt
         fill := fill, fails := 0 }] }

def State.request (s : State) (g k ctx chip pa : Nat) (op : RemoteOp) : State := s.requestFill none g k ctx chip pa op

/-- The die of a link (01 R10). -/
def linkDie (l : Nat) : Nat := 2 * l

/-- Context leases are kept apart: unit 8 + die of the link, index the context's identifier (20 R333, log 9). -/
def ctxUnit (l : Nat) : Nat := 8 + linkDie l

def State.ctxLease (s : State) (c : Nat) : Lease := s.lease (ctxUnit (s.context c).link) c

/-- A context is live while device time is below the expiry at its home (06 R95). -/
def State.ctxLive (s : State) (c : Nat) : Bool := s.dt < (s.ctxLease c).e

end Sys2Proof.Machine
end

