-- ==== Sys2Proof/Machine/Station.lean ====
section
/-!
DEFINITION. Leases as their homes judge them, page table entries, and the verdict of a translation station on one access.
-/
namespace Sys2Proof.Machine

/-- A lease is live while DT is below its expiry, an anchored one while its context is (06 R95, R99). -/
def State.leaseLive (s : State) (l : Lease) : Bool := if l.anchored then s.ctxLive l.owner else s.dt < l.e

/-- The expiry of a lease: its context's if it is anchored (06 R107). -/
def State.leaseEnd (s : State) (l : Lease) : Nat := if l.anchored then (s.ctxLease l.owner).e else l.e

/-- The fields of a handle (06 R93). -/
def hGen (h : Word) : Nat := h.toNat / 2 ^ 48
def hClass (h : Word) : Nat := h.toNat / 2 ^ 44 % 16
def hDie (h : Word) : Nat := h.toNat / 2 ^ 42 % 4
def hChip (h : Word) : Nat := h.toNat / 2 ^ 30 % 4096
def hIndex (h : Word) : Nat := h.toNat % 2 ^ 30

def mkHandle (gen cls die chip idx : Nat) : Word :=
  BitVec.ofNat 64 (gen * 2 ^ 48 + cls * 2 ^ 44 + die * 2 ^ 42 + chip * 2 ^ 30 + idx)

/-- The unit of this chip that keeps the record of a class: Calico for contexts, ranges, paths and stubs, else the
synchronisation engine (06 R92). -/
def unitOf (cls die : Nat) : Nat :=
  if cls = 1 then 8 + die else if cls = 2 ∨ cls = 6 ∨ cls = 7 then die else 4 + die

/-- Stale by its shape alone (06 R93). -/
def State.staleShape (s : State) (h : Word) : Bool :=
  let c := hClass h
  c == 0 || 8 ≤ c || 3072 ≤ hChip h || !(hChip h == s.chip || s.routes.contains (hChip h)) || 262144 ≤ hIndex h

/-- The record a handle of this chip names, and whether it is stale there (06 R93). -/
def State.record (s : State) (h : Word) : Lease := s.lease (unitOf (hClass h) (hDie h)) (hIndex h)

def State.staleHere (s : State) (h : Word) : Bool := hGen h = 0 || (s.record h).gen != hGen h

def State.setRecord (s : State) (h : Word) (l : Lease) : State := s.setLease (unitOf (hClass h) (hDie h)) (hIndex h) l

/-- The quota number of a class: mem, svar, lock, bar, path, stub (06 R90). -/
def quotaOf (cls : Nat) : Nat := cls - 2

/-- What a lease takes of its class's quota: a range its size in 64 KiB units, any other 1 (06 R105). -/
def Lease.units (l : Lease) : Nat :=
  match l.data with
  | .range _ size _ _ => size / 65536
  | _ => 1

/-- The units of a class that a context holds: its live leases here, the paths and locks it holds on other chips (06 R90). DESIGN
CHOICE (log 100): the unit of a lock on another chip comes back when this chip's DT reaches its copy of E. -/
def State.quotaUsed (s : State) (ctx cls : Nat) : Nat :=
  let here := s.leases.filter fun e => e.2.cls == cls && e.2.owner == ctx && e.2.inUse && s.leaseLive e.2
  let paths := if cls = 6 then (s.paths.filter fun p => p.owner == ctx && !p.gone && s.dt < p.ed + 200 && hChip p.h != s.chip).length else 0
  let away := if cls = 4 then (s.away.filter fun a => a.ctx == ctx && s.dt < a.e).length else 0
  here.foldl (fun n e => n + e.2.units) 0 + paths + away

/-- What is left of a quota (06 R90). A path's lease on this chip belongs to the source context like any other. -/
def State.quotaLeft (s : State) (ctx cls : Nat) : Nat := tget 0 (s.context ctx).quota (quotaOf cls) - s.quotaUsed ctx cls

/-- The fields of a page table entry (09 R168). -/
def pteMode (e : Word) : Nat := e.toNat / 2 ^ 48 % 16
def ptePeer (e : Word) : Nat := e.toNat / 2 ^ 52
def pteFrame (e : Word) : Nat := e.toNat / 2 ^ 12 % 2 ^ 34
def pteWb (e : Word) : Bool := e.getLsbD 47
def ptePinned (e : Word) : Bool := e.getLsbD 46
def pteThr (e : Word) : Nat := e.toNat / 2 ^ 8 % 16
def pteSizeCode (e : Word) : Nat := e.toNat / 2 ^ 4 % 4
def pteU (e : Word) : Bool := e.getLsbD 3
def pteAT (e : Word) : Bool := e.getLsbD 2
def pteW (e : Word) : Bool := e.getLsbD 1
def pteR (e : Word) : Bool := e.getLsbD 0

/-- Page sizes by code; the reserved code counts as 64 KiB (09 R183). -/
def sizeOfCode (c : Nat) : Nat := if c = 1 then 2097152 else if c = 2 then 1073741824 else 65536

def pteSize (e : Word) : Nat := sizeOfCode (pteSizeCode e)

def mkPte (mode peer frame size low : Nat) (stripe : Bool) : Word :=
  BitVec.ofNat 64 (peer * 2 ^ 52 + mode * 2 ^ 48 + frame * 2 ^ 12 + (if stripe then 64 else 0) + size * 16 + low)

/-- Host peers: 0xF00 and 0xF01. -/
def isHostPeer (p : Nat) : Bool := p == 0xF00 || p == 0xF01

/-- A malformed entry (09 R168). An entry of this chip whose frame lies beyond device memory counts as malformed (log 10). -/
def State.pteBad (s : State) (e : Word) : Bool :=
  6 ≤ pteMode e || pteSizeCode e == 3 || !(ptePeer e < 3072 || isHostPeer (ptePeer e)) ||
  pteFrame e * 4096 % pteSize e != 0 || (pteMode e == 1 && ptePeer e != s.chip) ||
  ((pteMode e == 4 || pteMode e == 5) && isHostPeer (ptePeer e)) ||
  (ptePeer e == s.chip && pteMode e != 5 && hbmSize < pteFrame e * 4096 + pteSize e)

/-- The entry of a context's page that holds va. -/
def State.entry (s : State) (ctx va : Nat) : Option PageEntry :=
  s.entries.find? fun e => e.ctx == ctx && e.va ≤ va && va < e.va + pteSize e.pte

def PageEntry.live (s : State) (e : PageEntry) : Bool :=
  let l := tget Lease.unused s.leases e.lease
  l.gen == e.gen && s.leaseLive l

/-- A station's verdict: the route and the entry, a refusal with its cause code, a stall, or the pull of a tile first. -/
inductive Verdict where
  | go (r : Route) (e : PageEntry)
  | refuse (cause : Nat)
  | stall
  | pull (key tile : Nat)
  deriving DecidableEq, Repr

/-- What an access needs of the entry's permissions (09 R170). -/
def permits (e : Word) : AccKind → Bool
  | .read => pteR e
  | .write => pteW e
  | .atomic => pteR e && pteW e && pteAT e

/-- The address of byte va on the page of an entry. -/
def PageEntry.addr (e : PageEntry) (va : Nat) : Nat := pteFrame e.pte * 4096 + (va - e.va)

def State.routeOf (s : State) (e : PageEntry) (va : Nat) : Route :=
  if isHostPeer (ptePeer e.pte) then .host (ptePeer e.pte - 0xF00) (e.addr va)
  else if ptePeer e.pte = s.chip then .here (e.addr va)
  else .chip (ptePeer e.pte) (e.addr va)

/-- Where a pulled tile's byte stands: in the backing range, while that grant holds it (16 R312, R313). -/
def State.backRoute (s : State) (ctx va : Nat) (x : Stub) : Option Route :=
  let r := s.record x.backing
  match r.data with
  | .range bva _ _ _ =>
    if r.gen != hGen x.backing then none
    else (s.entry ctx (bva + (va - x.view.getD 0))).map fun b => .here (b.addr (bva + (va - x.view.getD 0)))
  | _ => none

/-- A touch of a view (16 R313): served from the backing range once its tile is pulled. -/
def State.touch (s : State) (e : PageEntry) (va : Nat) : Verdict :=
  match (tget Lease.unused s.leases e.lease).data with
  | .stub x =>
    let k := (va - x.view.getD 0) / 4096
    if x.size / 4096 ≤ k then .refuse 2
    else if x.dead.contains k then .refuse 3
    else if x.pulled.contains k then
      (if !s.leaseLive (s.record x.backing) then .refuse 3
       else match s.backRoute e.ctx va x with
        | some r => .go r e
        | none => .refuse 3)
    else .pull e.lease k
  | _ => .refuse 3

/-- What has become of a touch accepted under a view's entry that waits for its tile: served, refused, or still to wait. -/
def State.tileRoute (s : State) (key tile : Nat) (e : PageEntry) (va : Nat) : Option (Option Route) :=
  let l := tget Lease.unused s.leases key
  match l.data with
  | .stub x =>
    if l.gen ≠ e.gen ∨ x.dead.contains tile then some none
    else if x.pulled.contains tile then some (s.backRoute e.ctx va x)
    else none
  | _ => some none

/-- The pinned page of this chip that holds a device address (16 R316). -/
def State.pinnedAt (s : State) (pa : Nat) : Option PageEntry :=
  s.entries.find? fun e =>
    ptePinned e.pte && ptePeer e.pte == s.chip && pteMode e.pte != 5 && pteFrame e.pte * 4096 ≤ pa &&
      pa < pteFrame e.pte * 4096 + pteSize e.pte

/-- A write goes to its route, unless it leads to a page of this chip that is pinned, under whatever entry (16 R316). -/
def State.writeGo (s : State) (r : Route) (e : PageEntry) : Verdict :=
  match r with
  | .here pa => if (s.pinnedAt pa).isSome then .stall else .go r e
  | _ => .go r e

/-- The station's checks in their order (09 R170, 10 R194, 16 R313, R316). -/
def State.verdict (s : State) (ctx va : Nat) (priv : Bool) (k : AccKind) : Verdict :=
  match s.entry ctx va with
  | none => .refuse 1
  | some e =>
    if !e.live s then .refuse 3
    else if pteMode e.pte = 0 then .refuse 1
    else if s.pteBad e.pte then .refuse 4
    else if !(pteU e.pte || priv) then .refuse 2
    else if !permits e.pte k then .refuse 2
    else if k = .atomic ∧ isHostPeer (ptePeer e.pte) then .refuse 2
    else if k != .read && (pteWb e.pte || ptePinned e.pte) then .stall
    else if pteMode e.pte = 5 then s.touch e va
    else if k = .read then .go (s.routeOf e va) e
    else s.writeGo (s.routeOf e va) e

/-- The pseudo-channel of a line of device memory, numbered over the package (09 R386). -/
def bankOf (pa : Nat) : Nat :=
  let o := pa % dieSize
  dieOfPa pa * 128 + (((o / 256) % 128) ^^^ ((o / 32768) % 128))

/-- Stage a 32-byte record for a context's fault queue (09 R183, 20 R337). -/
def State.faultRecord (s : State) (ctx : Nat) (rec_ : List Byte) : State :=
  let c := s.context ctx
  s.setContext ctx { c with fq := { c.fq with staged := c.fq.staged ++ [rec_] } }

/-- Set a bit of a core's doorbell (15 R279). -/
def State.ring (s : State) (g bit : Nat) : State :=
  let c := s.core g
  s.setCore g { c with bell := c.bell ||| (1#64 <<< bit) }

/-- A record for a command of a slot also rings its core's bell as it is staged (15 R279, 20 R337). -/
def State.slotFault (s : State) (ctx g : Nat) (rec_ : List Byte) : State :=
  let t := s.faultRecord ctx rec_
  if g < 1024 then t.ring g 1 else t

/-- The record of 09 R183. -/
def faultBytes (va ctx eng cause side chip core slot tok desc first count : Nat) : List Byte :=
  leBytes 8 va ++ leBytes 2 ctx ++ leBytes 2 eng ++ leBytes 1 cause ++ leBytes 1 side ++ leBytes 2 chip ++ leBytes 2 core ++
  leBytes 1 slot ++ leBytes 1 tok ++ leBytes 4 desc ++ leBytes 4 first ++ leBytes 4 count

/-- The record of an uncorrectable error at a key of a chip: of a memory controller, its die and stack (09 R183, R191). For a word
of a buffer the spec gives neither address nor engine: free values (09 R193). A context of another chip has no queue here. -/
def State.memoryErrorOf (s : State) (ctx chip k : Nat) : State :=
  let found := s.entries.find? fun e => e.ctx == ctx && ptePeer e.pte == chip && pteMode e.pte != 0 && pteMode e.pte != 5 &&
    pteFrame e.pte * 4096 ≤ k && k < pteFrame e.pte * 4096 + pteSize e.pte
  let va := match found with
    | some e => e.va + (k - pteFrame e.pte * 4096)
    | none => 0
  let eng := 3 * 4096 + dieOfPa k * 1024 + bankOf k % 128 / 64
  let x := if k < hbmSize then (va, eng) else Config.bufferError k
  if ctx < 1024 then s.faultRecord ctx (faultBytes x.1 ctx x.2 6 0 chip 0xFFFF 0xFF 0 0 0 1) else s

def State.memoryError (s : State) (ctx k : Nat) : State := s.memoryErrorOf ctx s.chip k

/-- The bytes under one ECC: a line of device memory, a word of a buffer (09 R191, R193). -/
def flawSize (k : Nat) : Nat := if k < hbmSize then 64 else 8

/-- Whether a flaw stands on one of n bytes from key k. -/
def onFlaw (k n : Nat) (f : Nat × Bool) : Bool := f.1 < k + n && k < f.1 + flawSize f.1

/-- An uncorrectable error is found: the block's scale becomes 255, and the context that made the access gets a record. -/
def State.foundFlaw (ctx : Nat) (s : State) (f : Nat × Bool) : State :=
  { s with mem := mput s.mem (scaleKey f.1) 255 }.memoryError ctx f.1

/-- A READ of n bytes from key k for a context meets the uncorrectable errors there (09 R191, R193). -/
def State.sense (s : State) (ctx k n : Nat) : State :=
  (s.flaws.filter fun f => f.2 && onFlaw k n f).foldl (State.foundFlaw ctx)
    { s with flaws := s.flaws.filter fun f => !(f.2 && onFlaw k n f) }

/-- Whether a write of n bytes from key k, with the descriptor or without, replaces all that a flaw's ECC covers. -/
def coversFlaw (k n : Nat) (whole : Bool) (f : Nat × Bool) : Bool :=
  k ≤ f.1 && f.1 + flawSize f.1 ≤ k + n && (whole || hbmSize ≤ f.1)

/-- An uncorrectable error that an access of n bytes from a key meets (09 R191, R192). -/
def State.flawed (s : State) (k n : Nat) (write whole : Bool) : Bool :=
  s.flaws.any fun f => f.2 && onFlaw k n f && !(write && coversFlaw k n whole f)

def State.countFlaw (s : State) (f : Nat × Bool) : State :=
  let i := 2 * dieOfPa f.1 + bankOf f.1 % 128 / 64
  if f.1 < hbmSize then { s with corrected := tput s.corrected i (tget 0 s.corrected i + 1) } else s

/-- A WRITE of n bytes from key k for a context: what it replaces whole is clean, what it merges into meets the uncorrectable
errors there, and corrected errors are fixed and counted (09 R191 to R193). -/
def State.mend (s : State) (ctx k n : Nat) (whole : Bool) : State :=
  let t := { s with flaws := s.flaws.filter fun f => !(f.2 && coversFlaw k n whole f) }.sense ctx k n
  (t.flaws.filter (onFlaw k n)).foldl State.countFlaw { t with flaws := t.flaws.filter fun f => !onFlaw k n f }

/-- Whole words of a core from key a on, below key b, are replaced, but for its supervisor range, lo to hi: their errors go (09 R192,
R193). -/
def State.renewWords (s : State) (g a b lo hi : Nat) : State :=
  { s with flaws := s.flaws.filter fun f => !(a ≤ f.1 && f.1 < b) || (lKey g lo ≤ f.1 && f.1 < lKey g hi) }

/-- The buffers of a core are replaced whole. -/
def State.renewCore (s : State) (g lo hi : Nat) : State := s.renewWords g (lKey g 0) (wKey g 0x80000) lo hi

/-- The launch record in L is replaced (05 R72). -/
def State.renewRecord (s : State) (g lo hi : Nat) : State := s.renewWords g (lKey g 0x3F000) (lKey g 0x40000) lo hi

/-- A record of the notification queue (09 R172). -/
def State.notify (s : State) (ctx va peer thr : Nat) : State :=
  let c := s.context ctx
  let rec_ := leBytes 8 va ++ leBytes 2 peer ++ leBytes 2 ctx ++ leBytes 4 thr ++ leBytes 8 s.dt ++ leBytes 8 0
  s.setContext ctx { c with nq := { c.nq with staged := c.nq.staged ++ [rec_] } }

def countOf (l : List (Nat × Nat × Nat)) (ctx va : Nat) : Nat :=
  match l.find? fun c => c.1 == ctx && c.2.1 == va with
  | some c => c.2.2
  | none => 0

/-- Count one accepted access of a counted page; the access that reaches the threshold appends a notification (09 R172). -/
def State.charge (s : State) (e : PageEntry) : State :=
  if pteMode e.pte = 4 then
    let thr := if pteThr e.pte = 0 then 256 else 2 ^ pteThr e.pte
    let n := countOf s.counted e.ctx e.va
    if thr ≤ n then s
    else
      let rest := s.counted.filter fun c => !(c.1 == e.ctx && c.2.1 == e.va)
      let s := { s with counted := (e.ctx, e.va, n + 1) :: rest }
      if n + 1 = thr then s.notify e.ctx e.va (ptePeer e.pte) thr else s
  else s

/-- The station of an address on a die (09 R167). -/
def stationOf (va : Nat) : Nat := va / 65536 % 16

/-- The line copy of a station, for mode 3 (09 R169). -/
def State.cachedBlock (s : State) (die ctx va : Nat) : Option Block :=
  (s.cached.find? fun c => c.die == die && c.ctx == ctx && c.va == va / 64 * 64).map (·.block)

def State.uncache (s : State) (die ctx va : Nat) : State :=
  { s with cached := s.cached.filter fun c => !(c.die == die && c.ctx == ctx && c.va == va / 64 * 64) }

def State.fillCache (s : State) (die ctx va : Nat) (b : Block) : State :=
  let t := s.uncache die ctx va
  { t with cached := { die := die, stn := stationOf va, ctx := ctx, va := va / 64 * 64, block := b } :: t.cached }

/-- The bytes of a block with some replaced from offset o on. -/
def patchBlock (b : Block) (o : Nat) (bs : List Byte) : Block :=
  { b with data := b.data.take o ++ bs ++ b.data.drop (o + bs.length) }

/-- Lines on their way that a write or an acquire has overtaken fill no copy (11 R216, R217, R221). -/
def State.cancelFills (s : State) (hit : RemoteOut → Bool) : State :=
  { s with remote := s.remote.map fun r => if hit r then { r with fill := none } else r }

/-- An entry that has changed: every station drops the translation, the lines cached under it, and the count (09 R171, R172). -/
def State.entryChanged (s : State) (ctx va size : Nat) : State :=
  { s.cancelFills fun r => r.ctx == ctx && (match r.fill with
      | some f => va ≤ f.2 && f.2 < va + size
      | none => false) with
    cached := s.cached.filter fun c => !(c.ctx == ctx && va ≤ c.va && c.va < va + size)
    counted := s.counted.filter fun c => !(c.1 == ctx && va ≤ c.2.1 && c.2.1 < va + size)
    migrations := s.migrations.filter fun m => !(m.1 == ctx && va ≤ m.2.1 && m.2.1 < va + size) }

/-- The stations of a die drop a context's cached lines (09 R169). -/
def State.dropLines (s : State) (die ctx : Nat) : State :=
  { s with cached := s.cached.filter fun c => !(c.die == die && c.ctx == ctx) }.cancelFills fun r =>
    r.ctx == ctx && (r.fill.map Prod.fst) == some die

/-- A write goes through to the peer and updates the station's copy (09 R169). -/
def State.patchCache (s : State) (die ctx va : Nat) (bs : List Byte) : State :=
  let t := s.cancelFills fun r => r.ctx == ctx && r.fill == some (die, va / 64 * 64)
  match t.cachedBlock die ctx va with
  | some b => t.fillCache die ctx va (patchBlock b (va % 64) bs)
  | none => t

/-- An atomic drops its line's copy, and a fill of it that is on its way (10 R195). -/
def State.dropLine (s : State) (die : Nat) (e : PageEntry) (va : Nat) : State :=
  if pteMode e.pte = 3 then (s.uncache die e.ctx va).cancelFills fun r => r.ctx == e.ctx && r.fill == some (die, va / 64 * 64)
  else s

/-- A descriptor written through a page in mode 3 changes that of the station's copy; the format stays where none is given (09 R169). -/
def State.patchDesc (s : State) (die : Nat) (e : PageEntry) (va : Nat) (f : Option Byte) (sc : Byte) : State :=
  if pteMode e.pte = 3 then
    let t := s.cancelFills fun r => r.ctx == e.ctx && r.fill == some (die, va / 64 * 64)
    match t.cachedBlock die e.ctx va with
    | some b => t.fillCache die e.ctx va { b with fmt := f.getD b.fmt, scale := sc }
    | none => t
  else s

/-- Runs of bytes written into one block through a page in mode 3. -/
def State.patchRuns (s : State) (die : Nat) (e : PageEntry) (va : Nat) : List (Nat × List Byte) → State
  | [] => s
  | r :: rs => (if pteMode e.pte = 3 then s.patchCache die e.ctx (va / 64 * 64 + r.1) r.2 else s).patchRuns die e va rs

/-- A whole block written through a page in mode 3 replaces the station's copy. -/
def State.putCache (s : State) (die : Nat) (e : PageEntry) (va : Nat) (b : Block) : State :=
  if pteMode e.pte = 3 then
    let t := s.cancelFills fun r => r.ctx == e.ctx && r.fill == some (die, va / 64 * 64)
    if (t.cachedBlock die e.ctx va).isSome then t.fillCache die e.ctx va b else t
  else s

/-- A read through a station (09 R169): of a page in mode 3 the line that it holds, else what fresh reads, which it then holds. -/
def State.lineRead (s : State) (die : Nat) (e : PageEntry) (va : Nat) (fresh : State → State × Block) : State × Block :=
  match (if pteMode e.pte = 3 then s.cachedBlock die e.ctx va else none) with
  | some b => (s, b)
  | none =>
    let x := fresh s
    (if pteMode e.pte = 3 then x.1.fillCache die e.ctx va x.2 else x.1, x.2)

/-- Whether an accepted write goes to an address of a context from lo on below hi; whether it goes to one of some frames of this chip. -/
def inRange (ctx lo hi : Nat) (_ : Route) (e : PageEntry) (va : Nat) : Bool := e.ctx == ctx && decide (lo ≤ va) && decide (va < hi)

def onFrames (fs : List (Nat × Nat)) (r : Route) (_ : PageEntry) (_ : Nat) : Bool :=
  match r with
  | .here pa => fs.any fun f => f.1 ≤ pa && pa < f.1 + f.2
  | _ => false

/-- Whether a log holds an accepted write, not yet performed, that goes to some place. -/
def placesWrite (dest : Route → PageEntry → Nat → Bool) (log : List Reply) : Bool :=
  log.any fun r => match r with
    | .place (.glob r e va) true => dest r e va
    | _ => false

/-- Whether a write that a station has accepted to some place is still to be performed: of a slot, a copy or a quantisation command that
waits for something else (09 R173, 16 R311, R318). A slot parked on a pin waits for the acceptance of its next write, and has performed
those before. -/
def State.writePlaced (s : State) (dest : Route → PageEntry → Nat → Bool) : Bool :=
  (s.cores.any fun c => c.2.slots.any fun x => x.2.live && (x.2.park.map fun p => p.reason) != some .pin && placesWrite dest x.2.replies) ||
    (s.copies.any fun c => placesWrite dest c.2.log) ||
    s.quant.any fun q => q.2.queue.any fun c => placesWrite dest c.log

/-- The first write that stalls on a pinned page freezes every pin of its region (16 R316). -/
def Pin.freeze (ctx lo hi : Nat) (p : Pin) : Pin :=
  if p.ctx == ctx && !p.ended && p.base < hi && lo < p.base + p.size then { p with frozen := true } else p

def State.freezePage (s : State) (e : PageEntry) : State :=
  { s with pins := s.pins.map (Pin.freeze e.ctx e.va (e.va + pteSize e.pte)) }

def State.freezeAt (s : State) (ctx va : Nat) : State :=
  match s.entry ctx va with
  | some e =>
    if ptePinned e.pte then s.freezePage e
    else if pteWb e.pte then s
    else match s.routeOf e va with
      | .here pa => ((s.pinnedAt pa).map s.freezePage).getD s
      | _ => s
  | none => s

/-- Send a pull request to another chip, kept until it is answered (16 R292), or have it arrive here next. -/
def State.sendPull (s : State) (chip : Nat) (h : Word) (tile : Nat) : State :=
  if chip = s.chip then s.later (.pull h tile s.chip)
  else
    { s.emit (.pull chip h tile) with
      nextId := s.nextId + 1
      pullsOut := s.pullsOut ++ [{ id := s.nextId, h := h, tile := tile, chip := chip, resend := 0, fails := 0, since := s.dt }] }

/-- The handle of the record under a lease key, of a class. -/
def State.handleAt (s : State) (key : Nat) : Word :=
  let l := tget Lease.unused s.leases key
  let unit := key / 2 ^ 20
  mkHandle l.gen l.cls (unit % 4) s.chip (key % 2 ^ 20)

/-- Start the pull of a tile unless it is pulled, refused for good or under way (16 R313, R314). -/
def State.startPull (s : State) (key tile : Nat) : State :=
  let l := tget Lease.unused s.leases key
  match l.data with
  | .stub x =>
    if x.pulled.contains tile || x.dead.contains tile || x.pulling.any fun t => t.1 == tile then s
    else
      let d := LeaseData.stub { x with pulling := x.pulling ++ [(tile, 0)] }
      ({ s with leases := tput s.leases key { l with data := d } }).sendPull x.src (s.handleAt key) tile
  | _ => s

/-- Write bytes to a route for a slot, posted (04 R53). The bytes lie in one block. -/
def State.writeRoute (s : State) (g k ctx : Nat) (r : Route) (bs : List Byte) : State :=
  match r with
  | .here pa => (s.writeBytes pa bs).mend ctx pa bs.length false
  | .host l a => s.writeBytes (hostKey l a) bs
  | .chip c pa => s.request g k ctx c pa (.write bs)

/-- A store of slot k of core g to an accepted route: counted, posted, and in the station's copy of a page in mode 3 (09 R169, R172). -/
def State.storeOut (s : State) (g k : Nat) (r : Route) (e : PageEntry) (va : Nat) (bs : List Byte) : State :=
  let t := (s.charge e).writeRoute g k e.ctx r bs
  if pteMode e.pte = 3 then t.patchCache (dieOf g) e.ctx va bs else t

/-- A whole block of slot k of core g to an accepted route. Host memory holds no descriptor (12 R237). -/
def State.blockOut (s : State) (g k : Nat) (r : Route) (e : PageEntry) (va : Nat) (x : Block) : State :=
  match r with
  | .here pa => ({ s.charge e with mem := putBlock s.mem pa x }.mend e.ctx pa 64 true).putCache (dieOf g) e va x
  | .host l a => ((s.charge e).writeBytes (hostKey l a) x.data).putCache (dieOf g) e va { x with fmt := 0, scale := 127 }
  | .chip c pa => ((s.charge e).request g k e.ctx c pa (.writeBlock x)).putCache (dieOf g) e va x

/-- Trace records leave the chip under slot numbers of their own: 16 more than the slot that caused them. -/
def traceSlot (k : Nat) : Nat := 16 + k

/-- The records of a core that its trace unit still holds: those on their way to another chip, for the others are written in the
step that makes them (21 R357; log 7). -/
def State.traceQueue (s : State) (g : Nat) : Nat := (s.remote.filter fun r => r.core == g && 16 ≤ r.slot).length

/-- Write one trace record of a core, posted; refused, held or without room in the buffer or in the unit's queue it is dropped and
counted (21 R356, R357). -/
def State.trace (s : State) (g k : Nat) (bit kind : Nat) (pc v1 v2 : Word) (fBit : Bool) : State :=
  let c := s.core g
  if !c.tctl.getLsbD bit then s
  else
    let cap := 2 ^ (c.tctl.toNat / 2 ^ 12 + 12) / 32
    let n := c.twr.toNat
    let drop := s.setCore g { c with tdrop := c.tdrop + 1 }
    if cap ≤ n ∧ ¬ c.tctl.getLsbD 8 ∨ 64 ≤ s.traceQueue g then drop
    else
      let at_ := offOf c.tbase + 32 * (n % cap)
      if tagOf c.tbase != 8 || 2 ^ 57 ≤ at_ then drop
      else
        let bs := leBytes 8 s.dt ++ leBytes 1 (kind + if fBit then 128 else 0) ++ leBytes 1 k ++ leBytes 2 g ++
          leBytes 4 pc.toNat ++ leBytes 8 v1.toNat ++ leBytes 8 v2.toNat
        match s.verdict (s.ctxOf g) at_ false .write with
        | .go r e =>
          (((s.charge e).writeRoute g (traceSlot k) (s.ctxOf g) r bs).patchCache (dieOf g) (s.ctxOf g) at_ bs).setCore g
            { c with twr := c.twr + 1 }
        | _ => drop

end Sys2Proof.Machine
end

