-- ==== Sys2Proof/Machine/Ending.lean ====
section
/-!
DEFINITION. The end of gangs and contexts, which an exception can set off: aborts, revocation, remote errors (15 R286 to R289).
-/
namespace Sys2Proof.Machine

/-- No slot of a core runs. -/
def Core.idle (x : Core) : Core := { x with slots := [], uses := [], array := none, damask := none }

def State.idleCores (s : State) : List Nat → State
  | [] => s
  | g :: gs => (s.setCore g (s.core g).idle).idleCores gs

/-- Drop the mirror registrations and the waits of a cluster's slots at the homes of this chip, and ask those of others that
hold some to drop them (10 R208, R210, R213). -/
def Lease.unmirror (c : Nat) (l : Lease) : Lease :=
  match l.data with
  | .svar v ms => { l with data := .svar v (ms.filter fun m => clusterOf m.1 != c) }
  | _ => l

/-- A request that its home may hold. -/
def homeHolds : HomeOp → Bool
  | .sigw .. => true
  | .barw .. => true
  | .lk .. => true
  | _ => false

def State.withdraw (s : State) (c : Nat) : State :=
  let off := (s.asked.filter fun e => e.2 == c).map fun e =>
    OutMsg.home e.1 { chip := s.chip, core := 4 * c, slot := 0, ctx := s.ctxOf (4 * c), id := 0, op := .withdraw }
  { s.emitAll off with
    leases := s.leases.map fun e => (e.1, e.2.unmirror c)
    waiting := s.waiting.filter fun r => !(r.chip == s.chip && clusterOf r.core == c)
    homeOut := s.homeOut.filter fun r => !(homeHolds r.req.op && clusterOf r.req.core == c)
    asked := s.asked.filter fun e => e.2 != c
    mirrors := s.mirrors.filter fun e => clusterOf e.1 != c }

/-- Answers to what a cluster's slots have sent no longer count at its destination slots (15 R283, 16 R297). -/
def PathSrc.uncount (c : Nat) (p : PathSrc) : PathSrc :=
  { p with unacked := p.unacked.map fun f => if clusterOf f.owner == c then { f with counts := false } else f }

/-- A pin that a slot of a cluster has set, its offer not sent, ends with the slot's run (16 R302, R311). -/
def Pin.unsentOf (c : Nat) (p : Pin) : Pin :=
  match p.by_ with
  | some n => if clusterOf (n / 16) == c then { p with ended := true, by_ := none } else p
  | none => p

/-- Give what owner number a has under way to number b. -/
def RemoteOut.move (a b : Nat) (r : RemoteOut) : RemoteOut := if r.core = a then { r with core := b } else r

def Flight.move (a b : Nat) (f : Flight) : Flight := if f.owner = a then { f with owner := b } else f

def HomeOut.move (a b : Nat) (o : HomeOut) : HomeOut := if o.owner = a then { o with owner := b } else o

def State.moveOwner (s : State) (a b : Nat) : State :=
  { s with
    remote := s.remote.map (RemoteOut.move a b)
    homeOut := s.homeOut.map (HomeOut.move a b)
    paths := s.paths.map fun p => { p with unacked := p.unacked.map (Flight.move a b) } }

/-- What the slots of a cluster have under way stays its gang's when that leaves the cluster (11 R226, 15 R287). -/
def State.moveOwners (s : State) (c n : Nat) : State :=
  (((s.moveOwner (4 * c) (savedOwner n 0)).moveOwner (4 * c + 1) (savedOwner n 1)).moveOwner (4 * c + 2)
    (savedOwner n 2)).moveOwner (4 * c + 3) (savedOwner n 3)

/-- An accepted write that a slot has still to perform: of an xch that has read its word, or waits for it, with the old a, unless the
word is poisoned (04 R61); or of a gstv whose block has been read (09 R175). -/
inductive Owed where
  | bytes (r : Route) (e : PageEntry) (va : Nat) (bs : List Byte)
  | block (r : Route) (e : PageEntry) (va : Nat) (b : Block)

def Reply.spoiled : Reply → Bool
  | .block b => b.scale == 255
  | .mem _ _ r => r.block.scale == 255
  | _ => false

def Slot.owed (x : Slot) : Option Owed :=
  match x.replies with
  | [.place (.glob r e va) true, .place (.buf ..) false, .block b] => some (.block r e va b)
  | .place (.glob r e va) true :: .place (.glob ..) false :: l =>
    if l.any Reply.spoiled then none else some (.bytes r e va (leBytes 8 x.acc.toNat))
  | _ => none

/-- Accesses accepted at their acceptance points complete, though their slot runs no more (15 R286; log 105). -/
def State.payOwed (s : State) (g : Nat) : List (Nat × Slot) → State
  | [] => s
  | (k, x) :: xs =>
    (match (if x.live then x.owed else none) with
     | some (.bytes r e va bs) => s.storeOut g k r e va bs
     | some (.block r e va b) => s.blockOut g k r e va b
     | none => s).payOwed g xs

def State.payCores (s : State) : List Nat → State
  | [] => s
  | g :: gs => (s.payOwed g (s.core g).slots).payCores gs

/-- Free a cluster: no gang, no running slot (15 R282, R289). -/
def State.freeCluster (s : State) (c : Nat) : State :=
  let s := (s.idleCores (coresOf c)).withdraw c
  let s := { s with pins := s.pins.map (Pin.unsentOf c) }
  let s := { s with paths := s.paths.map (PathSrc.uncount c) }
  let s := match (s.cluster c).gang with
    | some n => s.moveOwners c n
    | none => s
  s.setCluster c { s.cluster c with gang := none, frozen := false, halt := false, cbar := [], rings := [] }

/-- A copy that is over gives its place in the queue of another chip's engine back (09 R177). -/
def State.leaveEngine (s : State) (c : Copy) : State :=
  match c.guest with
  | some id => s.request nobody 0 c.ctx (c.engine / 65536) 0 (.copyEnd id)
  | none => s

def State.leaveEngines (s : State) : List Copy → State
  | [] => s
  | c :: cs => (s.leaveEngine c).leaveEngines cs

def RemoteOut.orphan (hit : Nat → Bool) (r : RemoteOut) : RemoteOut := if hit r.core then { r with core := nobody } else r

/-- Nobody waits any more for what some owners have under way. -/
def State.orphan (s : State) (hit : Nat → Bool) : State :=
  { s with remote := s.remote.map (RemoteOut.orphan hit), fetched := s.fetched.filter fun f => !hit f.owner }

/-- A command that its engine works on. -/
def QuantCmd.taken (c : QuantCmd) : Bool := c.begun.isSome || !c.log.isEmpty

def QuantEngine.drop (hit : QuantCmd → Bool) (q : QuantEngine) : QuantEngine :=
  { q with queue := q.queue.filter fun c => !hit c }

/-- Discard copies and quantisation commands (07 R143, 15 R286). -/
def State.dropWork (s : State) (c : Copy → Bool) (q : QuantCmd → Bool) : State :=
  let cs := (s.copies.filter fun e => c e.2).map fun e => copyOwner e.1
  let ds := (s.quant.filter fun e => e.2.queue.any fun x => x.taken && q x).map fun e => quantOwner e.1
  { (s.orphan fun o => cs.contains o || ds.contains o).leaveEngines ((s.copies.map fun e => e.2).filter c) with
    copies := s.copies.filter fun e => !c e.2
    quant := s.quant.map fun e => (e.1, e.2.drop q) }

/-- Drop the copies and the quantisation commands that the slots of a gang issued (15 R286, R289). -/
def State.dropCopies (s : State) (n : Nat) : State :=
  s.dropWork (fun c => c.packet.isNone && c.gang == n) fun q => q.gang == n

/-- Debug packets that wait for the image of a gang which is now over: there is no such gang any more (20 R332). -/
def State.holdOver (s : State) (n : Nat) : State :=
  (s.setGang n { s.gang n with packets := [] }).finishAll (s.gang n).packets 2

/-- Abort a gang on cluster c (15 R289): what its slots have had accepted completes, no image, the cluster is free, the launch counts as
failed. -/
def State.abortGang (s : State) (c : Nat) : State :=
  match (s.cluster c).gang with
  | .none => s.freeCluster c
  | .some n =>
    let x := s.gang n
    let s := (((s.payCores (coresOf c)).setGang n { x with state := .dead }).dropCopies n).freeCluster c |>.holdOver n
    (s.gangOver x.launch true).later (.gangPlace x.die)

/-- The gangs of a context that are not yet over. -/
def State.gangsOf (s : State) (ctx : Nat) : List Nat :=
  (s.gangs.filter fun e =>
    (s.launch e.2.launch).ctx == ctx && e.2.state != .retired && e.2.state != .dead).map (·.1)

/-- Discard one gang of a context that has ended (15 R286): its image is dropped or its cluster freed. -/
def State.discardGang (s : State) (n : Nat) : State :=
  let x := s.gang n
  let placed := x.state == .running || x.state == .halting || x.state == .saving
  let s := s.setGang n { x with state := .dead }
  let s := if placed then (s.payCores (coresOf x.cluster)).freeCluster x.cluster else s
  s.gangOver x.launch true

def State.discardGangs (s : State) : List Nat → State
  | [] => s
  | n :: ns => (s.discardGang n).discardGangs ns

/-- What a packet that ends early has moved (20 R332). -/
def State.movedBy (s : State) (k : Nat) : Nat :=
  match s.copies.find? fun e => e.2.packet == some k with
  | some e => e.2.moved
  | none => 0

/-- The detail of a copy packet that ends early: the sectors missing so far; of another packet it is open (20 R332, R334). -/
def State.missedBy (s : State) (k : Nat) : Nat :=
  match s.copies.find? fun e => e.2.packet == some k with
  | some e => e.2.missing.length
  | none => 0

/-- The started packets of a context end with status 7 (20 R334); a context grant, a context end and a firmware call are packets of none
(20 R331). -/
def State.endPackets (s : State) (ctx : Nat) : List Nat → State
  | [] => s
  | k :: ks =>
    let mine := match s.started.lookup k with
      | some p => p.ctx == ctx && p.kind != 1 && p.kind != 3 && p.kind != 9
      | none => false
    (if mine then s.finishPacket k (BitVec.ofNat 64 (s.movedBy k)) 7 (s.missedBy k) else s).endPackets ctx ks

/-- The pins of a context end at once (16 R316). -/
def Pin.endOf (ctx : Nat) (p : Pin) : Pin := if p.ctx == ctx then { p with ended := true } else p

/-- The copies and commands of a context are discarded (15 R286). -/
def State.dropOf (s : State) (ctx : Nat) : State := s.dropWork (fun c => c.ctx == ctx) fun q => q.ctx == ctx

/-- A context is over, by its lapse or by revocation: its gangs are discarded with it (12 R239), its packets end, and its copies
and commands are dropped. Its leases run on to their own ends (06 R97). -/
def State.endContext (s : State) (ctx : Nat) : State :=
  let s := { s.setContext ctx { s.context ctx with live := false } with sent := s.sent.filter fun x => x.ctx != ctx }
  let s := s.discardGangs (s.gangsOf ctx)
  (s.endPackets ctx (s.started.map fun e => e.1)).dropOf ctx

/-- Revoke a context (06 R101, 15 R286): it is over, its pins end (16 R316), and each home of the package, and each home it has on
another chip, ends its leases at an instant of its own. -/
def State.revoke (s : State) (ctx : Nat) : State :=
  if (s.context ctx).live then
    let s := s.endContext ctx
    let s := { s with pins := s.pins.map (Pin.endOf ctx) }
    let s := s.laterAll ([0, 1, 2, 3, 4, 5, 6, 7, ctxUnit (s.context ctx).link].map fun u => Due.revocationApply u ctx)
    s.emitAll (s.routes.map fun c => OutMsg.revoke c ctx)
  else s

end Sys2Proof.Machine
end

