-- ==== Sys2Proof/Machine/Flags.lean ====
section
/-!
DEFINITION. The flags of 04 R47 and every flag computation of the scalar classes.
-/
namespace Sys2Proof.Machine

/-- Set one flag bit: Z 0, N 1, C 2, V 3, F 4, E 5, W 6 (04 R47). -/
def setBit (f : BitVec 7) (i : Nat) (v : Bool) : BitVec 7 :=
  if v then f ||| (1#7 <<< i) else f &&& ~~~(1#7 <<< i)

def flagZ (f : BitVec 7) : Bool := f.getLsbD 0
def flagN (f : BitVec 7) : Bool := f.getLsbD 1
def flagC (f : BitVec 7) : Bool := f.getLsbD 2
def flagV (f : BitVec 7) : Bool := f.getLsbD 3
def flagF (f : BitVec 7) : Bool := f.getLsbD 4
def flagE (f : BitVec 7) : Bool := f.getLsbD 5

/-- Z and N of a result (04 R54). -/
def setZN (f : BitVec 7) (r : Word) : BitVec 7 := setBit (setBit f 0 (r == 0)) 1 (r.getLsbD 63)

/-- Z, N, C and V (04 R54). -/
def setZNCV (f : BitVec 7) (r : Word) (c v : Bool) : BitVec 7 := setBit (setBit (setZN f r) 2 c) 3 v

/-- The flags of the slot that runs, and writing them. -/
def State.flags (s : State) : BitVec 7 := s.cur.flags

def State.setFlags (s : State) (f : BitVec 7) : State := s.setCur (s.cur.setFlags f)

def State.setF (s : State) (v : Bool) : State := s.setFlags (setBit s.flags 4 v)

def State.raiseE (s : State) (v : Bool) : State := if v then s.setFlags (setBit s.flags 5 true) else s

/-- The exact signed value lies outside the range of 64 bits (04 R54). -/
def overflows (x : Int) : Bool := x < -(2 ^ 63) || 2 ^ 63 - 1 < x

/-- a + x + c with carry and overflow (04 R54). -/
def addFlags (a x : Word) (c : Nat) : Word × Bool × Bool :=
  (BitVec.ofNat 64 (a.toNat + x.toNat + c), decide (2 ^ 64 ≤ a.toNat + x.toNat + c),
    overflows (a.toInt + x.toInt + c))

/-- a - x - c with borrow and overflow (04 R54). -/
def subFlags (a x : Word) (c : Nat) : Word × Bool × Bool :=
  (a - x - BitVec.ofNat 64 c, decide (a.toNat < x.toNat + c), overflows (a.toInt - x.toInt - c))

/-- The ALU operations (04 R54). -/
inductive AluOp where
  | add | adc | sub | sbc | rsub | and | or | xor | andn | shl | shr | sar | rol | min | max | minn | maxn | neg | not
  deriving DecidableEq, Repr

/-- Result, C and V of an ALU operation on a and x with carry in c (04 R54, R55). -/
def alu (op : AluOp) (a x : Word) (c : Bool) : Word × Bool × Bool :=
  let n := x.toNat
  match op with
  | .add => addFlags a x 0
  | .adc => addFlags a x c.toNat
  | .sub => subFlags a x 0
  | .sbc => subFlags a x c.toNat
  | .rsub => subFlags x a 0
  | .and => (a &&& x, false, false)
  | .or => (a ||| x, false, false)
  | .xor => (a ^^^ x, false, false)
  | .andn => (a &&& ~~~x, false, false)
  | .shl => (if 64 ≤ n then 0 else a <<< n, decide (1 ≤ n ∧ n ≤ 64) && a.getLsbD (64 - n), false)
  | .shr => (if 64 ≤ n then 0 else a >>> n, decide (1 ≤ n ∧ n ≤ 64) && a.getLsbD (n - 1), false)
  | .sar =>
    (if 64 ≤ n then a.sshiftRight 63 else a.sshiftRight n,
      if n = 0 then false else if n ≤ 64 then a.getLsbD (n - 1) else a.getLsbD 63, false)
  | .rol => (a.rotateLeft (n % 64), false, false)
  | .min => (if a.slt x then a else x, false, false)
  | .max => (if a.slt x then x else a, false, false)
  | .minn => (if a.ult x then a else x, false, false)
  | .maxn => (if a.ult x then x else a, false, false)
  | .neg => (0 - x, x != 0, x == 0x8000000000000000#64)
  | .not => (~~~x, false, false)

/-- The MULBIT operations (04 R56). -/
inductive MulOp where
  | mul | mulh | mulhn | div | divn | rem | remn | clz | ctz | popc | bswap | sext | zext | bext | bins
  deriving DecidableEq, Repr

/-- Leading zeros among the low n bits, trailing zeros, and ones (04 R56). -/
def clzBits (x : Word) : Nat → Nat
  | 0 => 0
  | n + 1 => if x.getLsbD n then 0 else 1 + clzBits x n

def ctzBits (x : Word) : Nat → Nat → Nat
  | 0, _ => 0
  | fuel + 1, i => if x.getLsbD i then 0 else 1 + ctzBits x fuel (i + 1)

def popBits (x : Word) : Nat → Nat
  | 0 => 0
  | n + 1 => (x.getLsbD n).toNat + popBits x n

/-- A field's position and width (04 R58); the field ends at bit 63. -/
def fieldMask (p w : Nat) : Word := BitVec.ofNat 64 ((2 ^ w - 1) * 2 ^ p)

/-- Result, C and V of a MULBIT operation (04 R56 to R58). -/
def mulbit (op : MulOp) (a x : Word) : Word × Bool × Bool :=
  let n := if x.toNat % 64 = 0 then 64 else x.toNat % 64
  let p := x.toNat % 64
  let w := x.toNat / 64 % 64 + 1
  match op with
  | .mul => (a * x, decide (2 ^ 64 ≤ a.toNat * x.toNat), overflows (a.toInt * x.toInt))
  | .mulh => (BitVec.ofInt 64 (a.toInt * x.toInt / 2 ^ 64), false, false)
  | .mulhn => (BitVec.ofNat 64 (a.toNat * x.toNat / 2 ^ 64), false, false)
  | .div =>
    if x = 0 then (if a.getLsbD 63 then 0x8000000000000000#64 else 0x7FFFFFFFFFFFFFFF#64, false, true)
    else if a = 0x8000000000000000#64 ∧ x = -1 then (0x7FFFFFFFFFFFFFFF#64, false, true)
    else (BitVec.ofInt 64 (a.toInt.tdiv x.toInt), false, false)
  | .divn => if x = 0 then (0xFFFFFFFFFFFFFFFF#64, false, true) else (BitVec.ofNat 64 (a.toNat / x.toNat), false, false)
  | .rem =>
    if x = 0 then (a, false, true)
    else if a = 0x8000000000000000#64 ∧ x = -1 then (0, false, false)
    else (BitVec.ofInt 64 (a.toInt.tmod x.toInt), false, false)
  | .remn => if x = 0 then (a, false, true) else (BitVec.ofNat 64 (a.toNat % x.toNat), false, false)
  | .clz => (BitVec.ofNat 64 (clzBits x 64), false, false)
  | .ctz => (BitVec.ofNat 64 (ctzBits x 64 0), false, false)
  | .popc => (BitVec.ofNat 64 (popBits x 64), false, false)
  | .bswap => (BitVec.ofNat 64 (leNat (leBytes 8 x.toNat).reverse), false, false)
  | .sext =>
    let v := a.toNat % 2 ^ n
    (if n < 64 ∧ 2 ^ (n - 1) ≤ v then BitVec.ofInt 64 ((v : Int) - 2 ^ n) else BitVec.ofNat 64 v, false, false)
  | .zext => (BitVec.ofNat 64 (a.toNat % 2 ^ n), false, false)
  | .bext => (BitVec.ofNat 64 (a.toNat / 2 ^ p % 2 ^ w), false, false)
  | .bins => ((a &&& ~~~(fieldMask p w)) ||| ((x >>> 12) <<< p &&& fieldMask p w), false, false)

end Sys2Proof.Machine
end

