-- ==== Sys2Proof/Machine/Ops.lean ====
section
/-!
DEFINITION. How an instruction ends: it completes, it takes an exception (15 R273 to R276), or its slot parks; and the
return from an exception (15 R278).
-/
namespace Sys2Proof.Machine

/-- Why a meaning did not complete. Every one is a next state: an exception of the state before the instruction (03 R31), an
exception that keeps partial progress, or a wait with the state reached. -/
inductive Stop where
  | trap (code : Nat) (faddr : Word)
  | partway (t : State) (code : Nat) (faddr : Word) (lane : Option Nat)
  | wait (t : State) (r : Reason) (res : Resource) (wake : Wake)
  deriving DecidableEq, Repr

/-- What a meaning computes: the state with its effects, pc not yet moved, or a stop. -/
abbrev Run := Except Stop State

/-- Fault codes (15 R274). -/
def cIllegal : Nat := 1
def cPrivilege : Nat := 2
def cMisaligned : Nat := 3
def cSpace : Nat := 4
def cFormat : Nat := 5
def cPoison : Nat := 6
def cLapsed : Nat := 7
def cTranslation : Nat := 8
def cProtection : Nat := 9
def cWatch : Nat := 10
def cSoftware : Nat := 11
def cBreak : Nat := 12

/-- The trap code of a station's cause (09 R170). -/
def codeOfCause (c : Nat) : Nat := if c = 3 then cLapsed else if c = 2 then cProtection else cTranslation

/-- A resource for which an instruction waits before it issues (03 R32). -/
def Resource.isPort : Resource → Bool
  | .port _ _ => true
  | _ => false

/-- A park that goes on: one for the same reason, or on a port of the same instruction. -/
def Park.goesOn (p : Park) (r : Reason) (res : Resource) : Bool := p.reason == r || p.res.isPort && res.isPort

/-- Park the slot that runs; a slot that stays parked keeps its place in the order (03 R32, 16 R300). A park on a port is one of an
instruction that has not issued. -/
def State.parkCur (s : State) (r : Reason) (res : Resource) (wake : Wake) : State :=
  let x := s.cur
  let now := s.curCoreOf.cycle
  let seq := match x.park with
    | some p => if p.goesOn r res then p.seq else now
    | none => now
  s.setCur { x with
    park := some { reason := r, seq := seq, res := res, wake := wake, woken := false }
    issued := if res.isPort then x.issued else some (x.issued.getD now) }

/-- The stop of an instruction that waits, tested again each cycle. -/
def State.hold (s : State) (r : Reason) (res : Resource) : Stop := .wait s r res .poll

/-- An answer made now is delivered after some cycles. -/
def State.soon (s : State) : Wake := .till (s.curCoreOf.cycle + 1 + Config.latency s.ticks)

/-- Note an entry in the log of the instruction that runs. -/
def State.note (s : State) (r : Reply) : State := { s with trail := s.trail ++ [r] }

/-- The next entry of the log, if an earlier execution of the instruction has come that far. -/
def State.recall (s : State) : Option Reply := s.cur.replies[s.trail.length]?

/-- A fault of an access that has reached t: an error of memory that it has found stays found (09 R191). -/
def State.faultAt (s t : State) (code : Nat) (addr : Word) : Stop :=
  if t.flaws.length < s.flaws.length then .partway t code addr none else .trap code addr

/-- Do something once for the instruction that runs. slow: the answer comes after a park with this reason, on this resource. A
fault that the access meets comes with the answer (04 R53); an error of memory that it has found stays found (09 R191). -/
def State.access (s : State) (slow : Option (Reason × Resource)) (now : State → State × Reply) : Except Stop (State × Reply) :=
  match s.recall with
  | some (.fault code addr) => .error (.trap code addr)
  | some r => .ok (s.note r, r)
  | none =>
    let x := now s
    let t := x.1.note x.2
    match slow with
    | some (r, res) => .error (.wait t r res t.soon)
    | none =>
      match x.2 with
      | .fault code addr => .error (s.faultAt t code addr)
      | r => .ok (t, r)

/-- A check that an instruction makes once, before it parks (16 R302). -/
def State.once (s : State) (check : Except Stop Unit) : Run :=
  match s.recall with
  | some r => .ok (s.note r)
  | none => do
    check
    .ok (s.note .done)

/-- The park of an access whose answer returns from memory. -/
def slowMem (slow : Bool) : Option (Reason × Resource) := if slow then some (.mem, .none) else none

def Reply.toNat : Reply → Nat
  | .num v => v
  | _ => 0

def Reply.toBlock : Reply → Block
  | .block b => b
  | .mem _ _ r => r.block
  | _ => { data := [], fmt := 0, scale := 127 }

/-- The acquire part at domain scope: the stations of this die drop the context's cached lines (11 R221, R225). -/
def State.acquire (s : State) : State := s.dropLines (dieOf s.curCore) (s.ctxOf s.curCore)

/-- A double fault (15 R276): no trap register is written; a record of kind 6, and the gang is aborted. -/
def State.doubleFault (s : State) (faddr : Word) : State :=
  (s.report (slotRecord s 6 s.curCore s.curSlot faddr 0)).abortGang (clusterOf s.curCore)

/-- The cause register (15 R274). -/
def causeWord (code num len : Nat) : Word :=
  BitVec.ofNat 64 ((if len = 2 then 65536 else 0) + num % 256 * 256 + code)

/-- The restart detail (15 R275). -/
def restartWord (pc : Word) : Option Nat → Word
  | some j => BitVec.ofNat 64 (2 ^ 63 + pc.toNat % 2 ^ 18 * 2 ^ 32 + j % 256)
  | none => 0

/-- A vector or a stack top that makes the entry a double fault (15 R278). -/
def badVector (v : Word) : Bool := v.getLsbD 0 || 0x40000 ≤ v.toNat

/-- The slot after trap entry (15 R275). -/
def Slot.enter (x : Slot) (k cycle : Nat) (epc cause faddr rdet tvec kstk : Word) (code : Nat) : Slot :=
  { x with
    epc := epc, cause := cause, faddr := faddr, rdet := rdet, priv := true
    ka := cause, kp7 := kstk - BitVec.ofNat 64 (k * 0x200), ks7 := 0, kf := 0, pc := tvec
    exempt := if code = cWatch then some epc else none
    restart := none, fbuf := none, fill := none, replies := [], ports := [], issued := none, word := [], lane := none, asked := 0, mark := none
    readyAt := cycle + 8
    park := some { reason := .trap, seq := cycle, res := .none, wake := .till (cycle + 8), woken := false } }

/-- TAKE AN EXCEPTION in the slot that runs (15 R273 to R276): code, num, fault address, the saved pc, the length of the
word, and the lane at which a scatter atomic stopped. -/
def State.takeTrap (s : State) (code num : Nat) (faddr epc : Word) (len : Nat) (lane : Option Nat) : State :=
  let c := s.curCoreOf
  let x := s.cur
  if x.priv || badVector c.tvec || badVector c.kstk then s.doubleFault faddr
  else
    let cause := causeWord code num len
    let y := x.enter s.curSlot c.cycle epc cause faddr (restartWord x.pc lane) c.tvec c.kstk code
    (s.setCur y).trace s.curCore s.curSlot 3 4 x.pc cause faddr false

/-- RETURN FROM AN EXCEPTION (15 R278): the mode and pc, the restart detail, and the exemption of 21 R351. A bad pc is a
double fault. -/
def State.returnTrap (s : State) : State :=
  let x := s.cur
  if badVector x.epc then (s.setCur { x with priv := false, pc := x.epc }).doubleFault x.epc
  else
    let j := if x.rdet.getLsbD 63 && x.epc.toNat == x.rdet.toNat / 2 ^ 32 % 2 ^ 18 then some (x.rdet.toNat % 256) else none
    s.setCur { x with
      priv := false, pc := x.epc, rdet := 0, restart := j, fbuf := none, fill := none, park := none, replies := [], ports := [], issued := none
      word := [], lane := none
      exempt := if x.exempt = some x.epc then x.exempt else none
      readyAt := s.curCoreOf.cycle + 4 }

/-- The cycle from which the delay of an instruction runs: its issue (05 R82), or for one that has waited for a tile or the
array the cycle in which it starts (13 R255). -/
def Slot.from (x : Slot) (cycle : Nat) : Nat :=
  match x.park with
  | some p => if p.reason = .mtx then cycle else x.issued.getD cycle
  | none => x.issued.getD cycle

/-- The slot after an instruction of len bytes that completes in a cycle (03 R21, 05 R82). -/
def Slot.done (x : Slot) (cycle len delay : Nat) : Slot :=
  { x with
    pc := x.pc + BitVec.ofNat 64 len, readyAt := max cycle (x.from cycle + delay), park := none, fill := none, replies := [], ports := []
    issued := none, word := [], lane := none, restart := none, asked := 0, mark := none
    exempt := if x.priv then x.exempt else none }

/-- Nothing of the instruction that ran is left in its scratch. -/
def State.clear (s : State) : State := { s with trail := [], claims := [] }

/-- Completion; a slot whose gang the instruction has ended is gone (15 R289). -/
def State.complete (s : State) (len delay : Nat) : State :=
  if s.cur.live then (s.setCur (s.cur.done s.curCoreOf.cycle len delay)).clear else s.clear

/-- The slot that runs is parked until a cycle, its instruction complete. -/
def State.parkTill (s : State) (r : Reason) (till : Nat) : State :=
  s.setCur { s.cur with
    park := some { reason := r, seq := s.curCoreOf.cycle, res := .none, wake := .till till, woken := false } }

/-- An instruction that completes and leaves its slot parked until a cycle (13 R255). -/
def State.completeTill (s : State) (len : Nat) (r : Reason) (till : Nat) : State :=
  (s.complete len (till - s.curCoreOf.cycle)).parkTill r till

/-- Ask a peer for an access and note that the slot waits for this answer (04 R53); fill as in RemoteOut. -/
def State.askMem (s : State) (fill : Option (Nat × Nat)) (chip pa : Nat) (op : RemoteOp) : State :=
  (s.requestFill fill s.curCore s.curSlot (s.ctxOf s.curCore) chip pa op).setCur { s.cur with asked := s.nextId }

/-- The stop of an instruction that waits for a peer's reply. -/
def State.ask (s : State) (chip pa : Nat) (op : RemoteOp) : Stop := .wait (s.askMem none chip pa op) .mem .none .reply

/-- E, set by lanes of a scatter atomic that have been performed, stays (10 R201, R202). -/
def Slot.keepE (x y : Slot) : Slot :=
  if x.lane.isSome && x.flags.getLsbD 5 then y.setFlags (y.flags ||| 32) else y

/-- Undo what an instruction has done to its slot and its ports in a state t it has reached from s, keeping its log: what it has
asked, read and made once stays (03 R31, R32). The slot keeps the number of the next message at the instruction's issue (10 R209). -/
def State.rewind (s t : State) : State :=
  let g := s.curCore
  let x := t.cur
  let log := t.trail ++ s.cur.replies.drop t.trail.length
  let t := t.setCore g { t.core g with queues := (s.core g).queues }
  let c := clusterOf g
  let t := t.setCluster c { t.cluster c with rings := (s.cluster c).rings }
  (t.setCur <| x.keepE { s.cur with
    replies := log, ports := t.claims, banks := x.banks, mark := some (s.cur.mark.getD s.nextId), cbar := x.cbar, lane := x.lane, tok := x.tok
    asked := x.asked }).clear

/-- What a stop makes of the state before the instruction. -/
def State.stopped (s : State) (len : Nat) : Stop → State
  | .trap code faddr => (s.takeTrap code 0 faddr s.cur.pc len none).clear
  | .partway t code faddr lane => (s.rewind t).takeTrap code 0 faddr s.cur.pc len lane
  | .wait t r res wake => (s.rewind t).parkCur r res wake

/-- The end of an instruction of len bytes: completion with the slot not ready for delay cycles, or the stop. -/
def retire (s : State) (len delay : Nat) (r : Run) : Host.Outcome State Fault Refusal :=
  match r with
  | .ok t => .next (t.complete len delay)
  | .error e => .next (s.stopped len e)

/-- As retire, for a meaning that has itself set pc or the park. -/
def settle (s : State) (len : Nat) (r : Run) : Host.Outcome State Fault Refusal :=
  match r with
  | .ok t => .next t
  | .error e => .next (s.stopped len e)

/-- Set pc at a transfer: the fetch buffer is refilled, and a taken transfer is traced (11 R233, 21 R356). -/
def State.jump (s : State) (target : Word) : State :=
  let pc := s.cur.pc
  ((s.setCur { s.cur with pc := target, fbuf := none }).trace s.curCore s.curSlot 0 1 pc target 0 false)

end Sys2Proof.Machine
end

