-- ==== Sys2Proof/Machine/Halt.lean ====
section
/-!
DEFINITION. Requests for pre-emption and debug halts (15 R282, 21 R343 to R347): what stops a gang's four cores.
-/
namespace Sys2Proof.Machine

/-- The largest save image: the index block, and four sections with every piece selected (15 R283, R285). -/
def imageMax : Nat := 4096 + 4 * (0x42000 + 20 * 0x10000)

/-- Whether a gang holds its place in its context's save area. -/
def Gang.hasImage (x : Gang) : Bool :=
  x.state == .halting || x.state == .saving || x.state == .saved || x.state == .held

/-- Where the next image of a context goes: the lowest place of the largest size that no gang holds. Which place an image
takes is the model's choice, and a gang for which there is none is not pre-empted (log 18). -/
def State.imageAt (s : State) (ctx : Nat) : Option Nat :=
  let c := s.context ctx
  let taken := (s.gangs.filter fun e => (s.launch e.2.launch).ctx == ctx && e.2.hasImage).map fun e => e.2.image
  ((List.range (c.saveSize / imageMax)).map fun k => c.saveBase + k * imageMax).find? fun a => !(taken.contains a)

/-- Request the pre-emption of a running gang (15 R282): its cluster issues no more, and the drain begins. Reasons: 0
priority, 1 time slice, 2 host request, 3 debug halt (15 R283). -/
def State.preempt (s : State) (n reason : Nat) (hold : Bool) : State :=
  let x := s.gang n
  match (if x.state = .running then s.imageAt (s.launch x.launch).ctx else none) with
  | some a =>
    let s := s.setGang n { x with state := .halting, reason := reason, hold := hold, reqDt := s.dt, image := a }
    s.setCluster x.cluster { s.cluster x.cluster with halt := true }
  | none => s

/-- The running gang of a cluster. -/
def State.runningOn (s : State) (c : Nat) : Option Nat :=
  match (s.cluster c).gang with
  | some n => if (s.gang n).state = .running then some n else none
  | none => none

/-- Halt one cluster (21 R345, R346): its gang is pre-empted and held, and reported with a record of kind 10. -/
def State.haltOne (s : State) (c g slot : Nat) (detA detV pc : Word) : State :=
  match s.runningOn c with
  | none => s
  | some n =>
    if (s.imageAt (s.launch (s.gang n).launch).ctx).isNone then s
    else
    let r := { slotRecord s 10 (4 * c) 0 detA detV with slot := slot, core := g, island := g, pc := pc }
    let s := (s.report r).preempt n 3 true
    s.setCluster c { s.cluster c with frozen := true }

/-- The other clusters that run a gang of the same launch (21 R343). -/
def State.partners (s : State) (c : Nat) : List Nat :=
  match s.runningOn c with
  | none => []
  | some n =>
    (s.gangs.filter fun e => e.1 != n && e.2.launch == (s.gang n).launch && e.2.state == .running).map fun e => e.2.cluster

def State.haltAll (s : State) : List Nat → State
  | [] => s
  | c :: cs => (s.haltOne c 0xFFFF 0xFF 0 7 0).haltAll cs

/-- A debug halt of a cluster (21 R343, R345, R346): with dctl.launch the launch's other running gangs are held too. -/
def State.debugHalt (s : State) (c g slot : Nat) (detA detV pc : Word) : State :=
  let more := if (s.cluster c).dctl.getLsbD 5 then s.partners c else []
  (s.haltOne c g slot detA detV pc).haltAll more

/-- Does watchpoint w of a cluster match a write of n bytes at an X offset by an agent (core 0, engine 1, remote 2)
(21 R344, R350)? -/
def watchMatch (cl : Cluster) (agent off n w : Nat) : Bool :=
  let a := tget 0 cl.wpa w
  let c := tget 0 cl.wpc w
  c.getLsbD agent &&
    (List.range n).any fun i => (off + i) / 16 == a.toNat / 16 % 2 ^ 18 && c.getLsbD (8 + (off + i) % 16)

/-- The lowest watchpoint that matches. -/
def watchHit (cl : Cluster) (agent off n : Nat) : Option Nat := [0, 1, 2, 3].find? (watchMatch cl agent off n)

/-- The X offset of a byte of L (buffer 0) or A (buffer 1) of core g. -/
def xOffset (b g off : Nat) : Nat := g % 4 * 0x100000 + (if b = 1 then 0x80000 else 0) + off

/-- A write to words of core g's L sets fired in every slot that watches one, but the writer itself (10 R203). -/
def Slot.fireOn (off n : Nat) (x : Slot) : Slot :=
  if x.watch.any fun w => w < off + n && off < w + 8 then { x with fired := true } else x

def fireSlots (off n : Nat) (writer : Option Nat) (t : Table Slot) : Table Slot :=
  t.map fun e => if writer = some e.1 then e else (e.1, e.2.fireOn off n)

def State.fire (s : State) (g off n : Nat) (writer : Option (Nat × Nat)) : State :=
  let w := match writer with
    | some (g', k) => if g' = g then some k else none
    | none => none
  s.setCore g { s.core g with slots := fireSlots off n w (s.core g).slots }

/-- A write by an engine or a remote agent that strikes a watchpoint is performed and then halts the cluster (21 R352):
reason 3 with the engine, or 4 with the source chip and core. -/
def State.struck (s : State) (b g off n agent srcChip src : Nat) : State :=
  match watchHit (s.cluster (clusterOf g)) agent (xOffset b g off) n with
  | none => s
  | some w =>
    let v := srcChip * 2 ^ 52 + src % 2 ^ 16 * 2 ^ 32 + w * 256 + (if agent = 1 then 3 else 4)
    s.debugHalt (clusterOf g) 0xFFFF 0xFF (BitVec.ofNat 64 (xOffset b g off)) (BitVec.ofNat 64 v) 0

end Sys2Proof.Machine
end

