-- ==== Sys2Proof/Machine/SysRegs.lean ====
section
/-!
DEFINITION. The system registers, each read and written as the spec's maps say (15 R271, 04 R47 to R49, 05 R83, 06 R90,
13 R268, 21 R342 to R344, R355, R358).
-/
namespace Sys2Proof.Machine

/-- The stall cycles a counter has gained in n steps from a step on (21 R358: no rule gives them; free values). -/
def stallSum (num from_ : Nat) : Nat → Nat
  | 0 => 0
  | n + 1 => stallSum num from_ n + Config.stall num (from_ + n)

/-- An access needs privilege from 0x400 on (15 R271). -/
def sysPrivileged (n : Nat) : Bool := 0x400 ≤ n

/-- Whether a slot has a write on its way to another chip. -/
def State.hasOut (s : State) (g k : Nat) : Bool := s.remote.any fun r => r.core == g && r.slot == k

/-- Whether a trace record that the slot caused is on its way (21 R355). -/
def State.traceOut (s : State) (g k : Nat) : Bool := s.hasOut g (traceSlot k)

/-- A message that waits at its station with no port up is a store of slot k of core g (05 R78, 15 R282, log 79). -/
def State.storeOf (s : State) (g k : Nat) : OutMsg → Bool
  | .request _ r => s.remote.any fun q => q.id == r.id && q.core == g && q.slot == k && opWrites q.op
  | .path _ m => m.core == g && m.slot == k && match m.body with
    | .word _ => true
    | .blocks _ => true
    | _ => false
  | _ => false

/-- A store of the slot to another chip has not left the package (05 R78, 11 R226). -/
def State.storesStuck (s : State) (g k : Nat) : Bool := s.stuck.any (s.storeOf g k)

/-- Read register n. A read of twr waits for the records on their way (21 R355). -/
def State.sysRead (s : State) (n : Nat) : Except Stop Word :=
  let x := s.cur
  let c := s.curCoreOf
  let cl := s.cluster (clusterOf s.curCore)
  if !sysregAssigned n then .error (.trap cIllegal 0)
  else if sysPrivileged n && !x.priv then .error (.trap cPrivilege (BitVec.ofNat 64 n))
  else if n = 0x000 then .ok (BitVec.ofNat 64 s.dt)
  else if n = 0x001 then .ok (x.flags.zeroExtend 64)
  else if n = 0x002 then .ok (x.vf.zeroExtend 64)
  else if n < 0x018 then .ok ((x.stepOf (n - 0x010)).zeroExtend 64)
  else if n = 0x020 then .ok (c.live.zeroExtend 64)
  else if n < 0x053 then .ok (tget 0 c.ctr n)
  else if n < 0x066 then .ok (BitVec.ofNat 64 (s.quotaLeft (s.ctxOf s.curCore) (n - 0x060 + 2)))
  else if n = 0x088 then .ok c.tbase
  else if n = 0x089 then .ok (c.tctl.zeroExtend 64)
  else if n = 0x08A then (if s.traceOut s.curCore s.curSlot then .error (s.hold .mem .none) else .ok c.twr)
  else if n = 0x08B then .ok c.tdrop
  else if n < 0x0C8 then .ok (BitVec.ofNat 64 (stallSum (dieOf s.curCore * 256 + n) s.born (s.ticks - s.born)))
  else if n < 0x0D6 then .ok (tget 0 s.dieCtr (dieOf s.curCore * 256 + n))
  else if n = 0x400 then .ok x.a
  else if n = 0x401 then .ok (tget 0 x.p 7)
  else if n = 0x402 then .ok ((tget (0 : BitVec 16) x.step 7).zeroExtend 64)
  else if n = 0x403 then .ok (x.f.zeroExtend 64)
  else if n = 0x404 then .ok (c.sprot.zeroExtend 64)
  else if n = 0x410 then .ok c.tvec
  else if n = 0x411 then .ok x.epc
  else if n = 0x412 then .ok x.cause
  else if n = 0x413 then .ok x.faddr
  else if n = 0x414 then .ok x.rdet
  else if n = 0x415 then .ok c.kstk
  else if n = 0x420 then .ok c.bell
  else if n = 0x440 then .ok cl.dctl
  else if 0x448 ≤ n ∧ n < 0x44C then .ok (tget 0 cl.wpa (n - 0x448))
  else if 0x44C ≤ n ∧ n < 0x450 then .ok (tget 0 cl.wpc (n - 0x44C))
  else .ok 0

/-- Set vf, or the format-mismatch fault for a reserved code (07 R133, 15 R278). -/
def State.setVf (s : State) (v : Word) : Run :=
  if fmtReserved (v.toNat % 256) then .error (.trap cFormat 0) else .ok (s.setCur { s.cur with vf := v.truncate 19 })

/-- A write to abort ends the gang with a record of kind 7 that carries the value (15 R289). -/
def State.abortWrite (s : State) (v : Word) : State :=
  (s.report (slotRecord s 7 s.curCore s.curSlot 0 v)).abortGang (clusterOf s.curCore)

/-- A write to trace control also sets twr and tdrop to 0 (21 R355). -/
def State.traceControl (s : State) (v : Word) : State :=
  s.setCurCore { s.curCoreOf with tctl := (v &&& 0xFF1F#64).truncate 16, twr := 0, tdrop := 0, sample := 0 }

/-- The reason of a halt that a write to dreq asks for: 6, or 5 where the instruction is the last that a step count allows, since of
halts in one cycle the lowest reason is reported (21 R345, R347). -/
def Core.dreqReason (c : Core) : Word := if c.stepCnt != 0 && c.stepCnt ≤ c.stepped + 1 then 5 else 6

/-- Write register n: reserved fields and read-only registers keep their values (00 R4, R5). DESIGN CHOICE (log 14): a write to a
register whose read has a side effect (RS: twr) is dropped like one to a read-only register. -/
def State.sysWrite (s : State) (n : Nat) (v : Word) : Run :=
  let x := s.cur
  let c := s.curCoreOf
  let k := clusterOf s.curCore
  let cl := s.cluster k
  if !sysregAssigned n then .error (.trap cIllegal 0)
  else if sysPrivileged n && !x.priv then .error (.trap cPrivilege (BitVec.ofNat 64 n))
  else if n = 0x001 then .ok (s.setFlags (v.truncate 7))
  else if n = 0x002 then s.setVf v
  else if 0x010 ≤ n ∧ n < 0x018 then .ok (s.setCur (x.setStep (n - 0x010) (v.truncate 16)))
  else if n = 0x020 then .ok (s.setCurCore { c with live := v.truncate 20 })
  else if n = 0x088 then .ok (s.setCurCore { c with tbase := v })
  else if n = 0x089 then .ok (s.traceControl v)
  else if n = 0x400 then .ok (s.setCur { x with a := v })
  else if n = 0x401 then .ok (s.setCur { x with p := tput x.p 7 v })
  else if n = 0x402 then .ok (s.setCur { x with step := tput x.step 7 (v.truncate 16) })
  else if n = 0x403 then .ok (s.setCur { x with f := v.truncate 7 })
  else if n = 0x404 then .ok (s.setCurCore { c with sprot := v.truncate 16 })
  else if n = 0x410 then .ok (s.setCurCore { c with tvec := v })
  else if n = 0x411 then .ok (s.setCur { x with epc := v })
  else if n = 0x412 then .ok (s.setCur { x with cause := v &&& 0x1FFFF#64 })
  else if n = 0x413 then .ok (s.setCur { x with faddr := v })
  else if n = 0x414 then .ok (s.setCur { x with rdet := v })
  else if n = 0x415 then .ok (s.setCurCore { c with kstk := v })
  else if n = 0x420 then .ok (s.setCurCore { c with bell := v })
  else if n = 0x422 then .ok (s.abortWrite v)
  else if n = 0x440 then .ok (s.setCluster k { cl with dctl := v &&& 0x38#64 })
  else if n = 0x441 then .ok (s.debugHalt k 0xFFFF 0xFF 0 c.dreqReason 0)
  else if 0x448 ≤ n ∧ n < 0x44C then
    .ok (s.setCluster k { cl with wpa := tput cl.wpa (n - 0x448) (v &&& 0x3FFFF0#64) })
  else if 0x44C ≤ n ∧ n < 0x450 then
    .ok (s.setCluster k { cl with wpc := tput cl.wpc (n - 0x44C) (v &&& 0xFFFF07#64) })
  else .ok s

end Sys2Proof.Machine
end

