-- ==== Sys2Proof/Machine/Operands.lean ====
section
/-!
DEFINITION. Every operand form of 03 R27 to R34, the checks of a memory operand (04 R51, 09 R166, R170, 15 R272, 21 R351),
and reads and writes through operands.
-/
namespace Sys2Proof.Machine

/-- Where an operand stands once its address is computed. -/
inductive Ref where
  | ptr (n : Nat)
  | mem (a : Word)
  | port (p : Nat)
  | acc
  | imm (v : Word)
  deriving DecidableEq, Repr

/-- The signed step of a pointer of the slot that runs. -/
def State.stepInt (s : State) (n : Nat) : Int := (s.cur.stepOf n).toInt

/-- Evaluate a specifier: its place, its pointer stepped (03 R27 to R30). i is the signed immediate, size the access size. -/
def State.operand (s : State) (sp : Spec) (i : Int) (size : Nat) : State × Ref :=
  match sp with
  | .ptr n => (s, .ptr n.toNat)
  | .mem n => (s, .mem (s.ptr n.toNat))
  | .post n => (s.stepPtr n.toNat (s.stepInt n.toNat), .mem (s.ptr n.toNat))
  | .disp n => (s, .mem (ptrAdd (s.ptr n.toNat) (i * size)))
  | .pre n => (s.stepPtr n.toNat (-(s.stepInt n.toNat)), .mem (ptrAdd (s.ptr n.toNat) (-(s.stepInt n.toNat))))
  | .queue k => (s, .port k.toNat)
  | .nxt => (s, .port 4)
  | .prv => (s, .port 5)
  | .acc => (s, .acc)
  | .imm => (s, .imm (BitVec.ofInt 64 i))

/-- The entries a port holds for a read: a queue, or the ring direction that comes to this core (03 R27, R32). Port 4 is
nxt, which receives from core c + 1, that core's prv direction; port 5 is prv. -/
def ringIn (g p : Nat) : Nat := (if p = 4 then 4 else 0) + g % 4

/-- The ring direction that a write of a port sends on: nxt to core c + 1, prv to core c + 3. -/
def ringOut (g p : Nat) : Nat := if p = 4 then (g % 4 + 1) % 4 else 4 + (g % 4 + 3) % 4

def State.ringList (s : State) (g i : Nat) : List Word := tget [] (s.cluster (clusterOf g)).rings i

def State.setRing (s : State) (g i : Nat) (l : List Word) : State :=
  let cl := s.cluster (clusterOf g)
  s.setCluster (clusterOf g) { cl with rings := tput cl.rings i l }

def State.queueList (s : State) (g k : Nat) : List Word := tget [] (s.core g).queues k

def State.setQueue (s : State) (g k : Nat) (l : List Word) : State :=
  s.setCore g { s.core g with queues := tput (s.core g).queues k l }

/-- The reason for a park on a port (03 R32). -/
def portReason (p : Nat) : Reason := if p < 4 then .queue else .ring

/-- The entries behind a port: those a read pops, or those among which a write pushes. -/
def State.portList (s : State) (p : Nat) (write : Bool) : List Word :=
  let g := s.curCore
  if p < 4 then s.queueList g p else s.ringList g (if write then ringOut g p else ringIn g p)

/-- Whether a slot waits on a resource, or holds it, from a cycle on: its place is before slot k parked in cycle m (03 R32;
log 97). -/
def Slot.before (x : Slot) (j : Nat) (r : Resource) (m k : Nat) : Bool :=
  match x.park with
  | some p => (p.res == r || x.ports.contains r) && (x.issued.isSome && r.isPort || decide (p.seq < m) || p.seq == m && decide (j < k))
  | none => false

/-- The reason of a park on a thing other than a port. -/
def Resource.reason (r : Resource) : Option Reason :=
  match r with
  | .ds _ => some .allw
  | .array => some .mtx
  | .use _ => some .mtx
  | .cbar _ => some .bar
  | .bell => some .trap
  | _ => Option.none

/-- Whether another slot of the core stands before the slot that runs for the same thing: it parked earlier, or in the same
cycle with a lower number, or it holds the port (03 R32). A slot that comes from a park for another reason arrives now (16 R300). DESIGN
CHOICE (log 97): a slot that is not yet parked waits too, and a slot
parked on one of its ports stands before others at all of them. -/
def State.behind (s : State) (r : Resource) : Bool :=
  let now := s.curCoreOf.cycle
  let m := match s.cur.park with
    | some p => if p.res.isPort && r.isPort || r.reason == some p.reason then p.seq else now
    | none => now
  s.curCoreOf.slots.any fun e => e.1 != s.curSlot && e.2.before e.1 r m s.curSlot

/-- One use of a port by an instruction: so many entries popped or pushed. -/
structure PortUse where
  p     : Nat
  write : Bool
  n     : Nat
  deriving DecidableEq, Repr

/-- The entries that the uses of an instruction pop from a port, or push to it. -/
def portSum (us : List PortUse) (p : Nat) (write : Bool) : Nat :=
  ((us.filter fun u => u.p == p && u.write == write).map fun u => u.n).sum

/-- Whether a use cannot complete: in this test an instruction counts its own pops before its pushes (03 R32). -/
def State.portShort (s : State) (us : List PortUse) (u : PortUse) : Bool :=
  let l := (s.portList u.p u.write).length
  if u.write then 8 < l - (if u.p < 4 then portSum us u.p false else 0) + portSum us u.p true
  else l < portSum us u.p false

/-- Whether another slot stands before this one at a port. A push is not held up where the instruction itself makes its room by
a pop of the same queue (04 R61). -/
def State.portBehind (s : State) (us : List PortUse) (u : PortUse) : Bool :=
  s.behind (.port u.p u.write) && !(u.write && u.p < 4 && decide (portSum us u.p true ≤ portSum us u.p false))

/-- An instruction issues only when every one of its port operands can complete; until then its slot parks (03 R32). One that
has issued holds its ports. -/
def State.needPorts (s : State) (us : List PortUse) : Except Stop State :=
  let t := { s with claims := us.map fun u => Resource.port u.p u.write }
  if s.cur.issued.isSome then .ok t
  else
    match us.find? fun u => s.portShort us u || s.portBehind us u with
    | none => .ok t
    | some u => .error (t.hold (portReason u.p) (.port u.p u.write))

/-- Pop n entries from a port that needPorts has found to hold them. -/
def State.popPort (s : State) (p n : Nat) : Except Stop (State × List Word) :=
  let g := s.curCore
  let l := s.portList p false
  if l.length < n then .error (s.hold (portReason p) (.port p false))
  else .ok (if p < 4 then s.setQueue g p (l.drop n) else s.setRing g (ringIn g p) (l.drop n), l.take n)

/-- Push entries to a port that needPorts has found to have room. -/
def State.pushPort (s : State) (p : Nat) (vs : List Word) : Run :=
  let g := s.curCore
  let l := s.portList p true
  if 8 < l.length + vs.length then .error (s.hold (portReason p) (.port p true))
  else .ok (if p < 4 then s.setQueue g p (l ++ vs) else s.setRing g (ringOut g p) (l ++ vs))

/-- The supervisor range of core g's L: first byte, and the byte after its last (15 R272). -/
def State.guardLo (s : State) (g : Nat) : Nat := (s.core g).sprot.toNat / 256 * 1024

def State.guardHi (s : State) (g : Nat) : Nat := s.guardLo g + (s.core g).sprot.toNat % 256 * 1024

/-- Whether a byte range of core g's L lies in its supervisor range (15 R272). -/
def State.supervisor (s : State) (g off n : Nat) : Bool :=
  decide (s.guardLo g < off + n) && decide (off < s.guardHi g)

/-- What the checks of an address find: a place, a fault at once, or a fault that comes with the station's answer; a stall, or
the pull of a tile first (04 R51, R53; 16 R313, R316). -/
inductive Judged where
  | ok (l : Loc)
  | fault (code : Nat)
  | late (code : Nat)
  | stall (va : Nat)
  | pull (key tile : Nat) (e : PageEntry) (va : Nat)
  deriving DecidableEq, Repr

/-- A check of an access to the system space (15 R271): 8 bytes wide, an assigned register, then the alignment. -/
def checkSys (addr : Word) (size : Nat) : Judged :=
  let off := offOf addr
  if size ≠ 8 ∨ 0x7FF8 < off ∨ !sysregAssigned (off / 8) then .fault cSpace
  else if off % 8 ≠ 0 then .fault cMisaligned
  else .ok (.sys (off / 8))

/-- The checks of 04 R51 steps 1 to 4 for one access of size bytes aligned to align: allowed says which tags accept it,
sysOk whether the system space does (scalar accesses), lane that tag 0xF is a space fault for any slot (08 R150). -/
def State.judge (s : State) (addr : Word) (size align : Nat) (k : AccKind) (allowed : Nat → Bool) (sysOk lane : Bool) : Judged :=
  let tag := tagOf addr
  let priv := s.cur.priv
  if tag = 15 then
    (if lane then .fault cSpace
     else if !priv then .fault cPrivilege
     else if sysOk then checkSys addr size
     else .fault cSpace)
  else if !allowed tag then .fault cSpace
  else
    match place s.curCore addr with
    | .buf b g off =>
      if k ≠ .read ∧ b = 0 ∧ !priv ∧ s.supervisor g off size then .fault cPrivilege
      else if off % align ≠ 0 then .fault cMisaligned
      else .ok (.buf (tag == 4) b g off)
    | .glob va =>
      if va % align ≠ 0 then .fault cMisaligned
      else
        match s.verdict (s.ctxOf s.curCore) va priv k with
        | .go r e => .ok (.glob r e va)
        | .refuse c => .late (codeOfCause c)
        | .stall => .stall va
        | .pull key tile => (match s.entry (s.ctxOf s.curCore) va with
          | some e => .pull key tile e va
          | none => .late cTranslation)
    | _ => .fault cSpace

/-- A touch that waits for its tile: served once the tile is there, refused once its pull is (16 R313). It was accepted when it
was judged, and is judged no more (06 R95). -/
def State.touched (s : State) (addr : Word) (key tile : Nat) (e : PageEntry) (va : Nat) : Except Stop (State × Loc) :=
  match s.tileRoute key tile e va with
  | some (some r) => .ok (s.note (.touch key tile e va), .glob r e va)
  | some none => .error (.trap cLapsed addr)
  | none => .error (s.hold .mem (.tile (s.handleAt key) tile))

/-- Whether the slot that runs still has a write of its own on its way to a block (11 R217). -/
def State.ownWriteOut (s : State) (c pa : Nat) : Bool :=
  s.remote.any fun r => r.core == s.curCore && r.slot == s.curSlot && r.chip == c && r.pa / 64 * 64 == pa

/-- Whether a write to a route must wait: one to the same block of another chip is still on its way, and the two could arrive
in either order (11 R217, 16 R292). -/
def State.writeWaits (s : State) : Route → Bool
  | .chip c pa => s.ownWriteOut c (pa / 64 * 64)
  | _ => false

def State.locWaits (s : State) : Loc → Bool
  | .glob r _ _ => s.writeWaits r
  | _ => false

/-- An address checked, once for the instruction that runs (06 R95). A write that waits for an own write on its way is accepted once
that is answered. DESIGN CHOICE (log 98): a write that WB or a pin stalls is judged
anew when the stall ends. -/
def State.locate (s : State) (addr : Word) (size align : Nat) (k : AccKind) (allowed : Nat → Bool) (sysOk lane : Bool) :
    Except Stop (State × Loc) :=
  match s.recall with
  | some (.fault code a) => .error (.trap code a)
  | some (.touch key tile e va) => s.touched addr key tile e va
  | some (.place l w) => .ok (s.note (.place l w), l)
  | some _ => .error (.trap cIllegal 0)
  | none =>
    match s.judge addr size align k allowed sysOk lane with
    | .ok l => if k != .read && s.locWaits l then .error (s.hold .mem .none) else .ok (s.note (.place l (k != .read)), l)
    | .fault code => .error (.trap code addr)
    | .late code => .error (.wait (s.note (.fault code addr)) .mem .none s.soon)
    | .stall va => .error ((s.freezeAt (s.ctxOf s.curCore) va).hold .pin .none)
    | .pull key tile e va => .error (((s.startPull key tile).note (.touch key tile e va)).hold .mem (.tile (s.handleAt key) tile))

/-- Tags that a scalar load, a scalar store, a block read and a block write accept (04 R46, 08 R150, 09 R175). -/
def tagLoad (t : Nat) : Bool := t == 0 || t == 2 || t == 4 || t == 8
def tagStore (t : Nat) : Bool := t == 0 || t == 4 || t == 8
def tagLaneRead (t : Nat) : Bool := t == 0 || t == 1 || t == 2 || t == 4
def tagLaneWrite (t : Nat) : Bool := t == 0 || t == 1 || t == 4
def tagDescRead (t : Nat) : Bool := tagLaneRead t || t == 8
def tagDescWrite (t : Nat) : Bool := tagLaneWrite t || t == 8
def tagG (t : Nat) : Bool := t == 8

/-- Whether a write to a block of another chip is on its way from anyone here: a station's copy may show it already, and no
release of a reader may overtake it (11 R221). -/
def State.lineOut (s : State) (c pa : Nat) : Bool :=
  s.remote.any fun r => r.chip == c && opWrites r.op && r.pa / 64 * 64 == pa

/-- Whether a read of a block of another chip must wait for writes on their way. -/
def State.readWaits (s : State) (e : PageEntry) (c pa : Nat) : Bool :=
  s.ownWriteOut c pa || pteMode e.pte == 3 && s.lineOut c pa

/-- A block of host memory: it holds no descriptor (12 R237). -/
def State.hostBlock (s : State) (l a : Nat) : Block :=
  { data := mgets s.mem (hostKey l (a / 64 * 64)) 64, fmt := 0, scale := 127 }

/-- A block of this chip's memory, read for a context (09 R191). -/
def State.readHere (s : State) (ctx pa : Nat) : State × Block :=
  let t := s.sense ctx (pa / 64 * 64) 64
  (t, blockAt t.mem (pa / 64 * 64))

/-- The block behind an accepted route, and the access counted; the answer comes after a park (04 R53; 09 R169, R172). -/
def State.readRoute (s : State) (r : Route) (e : PageEntry) (va : Nat) : Except Stop (State × Block) :=
  let die := dieOf s.curCore
  match r with
  | .here pa =>
    (s.access (slowMem true) fun s =>
      let x := s.lineRead die e va fun s => (s.charge e).readHere e.ctx pa
      (x.1, .block x.2)).map fun x => (x.1, x.2.toBlock)
  | .host l a =>
    (s.access (slowMem true) fun s =>
      let x := s.lineRead die e va fun s => (s.charge e, s.hostBlock l a)
      (x.1, .block x.2)).map fun x => (x.1, x.2.toBlock)
  | .chip c pa =>
    let line := pa / 64 * 64
    match s.recall with
    | some _ => (s.access (slowMem true) fun s => (s, .done)).map fun x => (x.1, x.2.toBlock)
    | none =>
      if s.readWaits e c line then .error (s.hold .mem .none)
      else
        match (if pteMode e.pte = 3 then s.cachedBlock die e.ctx va else none) with
        | some b => (s.access (slowMem true) fun s => (s, .block b)).map fun x => (x.1, x.2.toBlock)
        | none =>
          let fill := if pteMode e.pte = 3 then some (die, va / 64 * 64) else none
          .error (.wait ((s.charge e).askMem fill c line (.read 64)) .mem .none .reply)

/-- A store to a page in mode 1 marks the pseudo-channel of its line (11 R224). -/
def State.markBank (s : State) (mark : Bool) (e : PageEntry) : Route → State
  | .here pa => if mark && pteMode e.pte == 1 then s.setCur { s.cur with banks := s.cur.banks ||| (1#512 <<< bankOf pa) } else s
  | _ => s

/-- Write bytes of one block to a route, posted; a mode-1 page marks the slot's pseudo-channel (11 R224). -/
def State.postRoute (s : State) (r : Route) (e : PageEntry) (va : Nat) (bs : List Byte) (mark : Bool) : State :=
  (s.storeOut s.curCore s.curSlot r e va bs).markBank mark e r

/-- Whether a write by the slot that runs strikes a watchpoint (21 R350, R351). -/
def State.strikes (s : State) (b g off n : Nat) : Bool :=
  !s.cur.priv && s.cur.exempt != some s.cur.pc && b ≤ 1 && (watchHit (s.cluster (clusterOf g)) 0 (xOffset b g off) n).isSome

/-- Write bytes into a buffer for the slot that runs: a watched word fires (10 R203). -/
def State.writeBuf (s : State) (b g off : Nat) (bs : List Byte) : State :=
  let s := (s.writeBytes (bufKey b g off) bs).mend (s.ctxOf s.curCore) (bufKey b g off) bs.length false
  if b = 0 then s.fire g off bs.length (some (s.curCore, s.curSlot)) else s

/-- Read size bytes of a checked address, with the poison check of 04 R51 step 5. -/
def State.loadLoc (s : State) (addr : Word) (size : Nat) : Loc → Except Stop (State × Nat)
  | .sys n =>
    (match s.recall with
     | some r => .ok (s.note r, r.toNat)
     | none => (s.sysRead n).map fun v => (s.note (.num v.toNat), v.toNat))
  | .buf win b g off =>
    (s.access (slowMem win) fun s =>
      let k := bufKey b g off
      let t := s.sense (s.ctxOf s.curCore) k size
      (t, if poisoned t.mem k then .fault cPoison addr else .num (mread t.mem k size))).map fun x => (x.1, x.2.toNat)
  | .glob r e va => do
    let (t, b) ← s.readRoute r e va
    if b.scale = 255 then .error (.trap cPoison addr) else .ok (t, leNat ((b.data.drop (va % 64)).take size))

/-- A scalar load of size bytes (04 R51). -/
def State.load (s : State) (addr : Word) (size : Nat) : Except Stop (State × Nat) := do
  let (t, l) ← s.locate addr size size .read tagLoad true false
  t.loadLoc addr size l

/-- Write size bytes to a checked address: a watchpoint traps first (21 R351). Stores write data bytes only (04 R52). slow: the slot
parks until the station of an address in G has accepted the write. -/
def State.storeAt (s : State) (slow : Bool) (addr : Word) (size v : Nat) : Loc → Run
  | .sys n => s.sysWrite n (BitVec.ofNat 64 v)
  | .buf _ b g off =>
    if s.strikes b g off size then .error (.trap cWatch addr)
    else (s.access none fun s => (s.writeBuf b g off (leBytes size v), .done)).map fun x => x.1
  | .glob r e va => (s.access (slowMem slow) fun s => (s.postRoute r e va (leBytes size v) true, .done)).map fun x => x.1

/-- A store in G parks its slot until the station has accepted it, one to a buffer does not (04 R53). -/
def State.storeLoc (s : State) (addr : Word) (size v : Nat) (l : Loc) : Run := s.storeAt true addr size v l

/-- A scalar store of size bytes (04 R51, R52). -/
def State.store (s : State) (addr : Word) (size v : Nat) : Run := do
  let (t, l) ← s.locate addr size size .write tagStore true false
  t.storeLoc addr size v l

/-- The use of a port that an operand is. -/
def Ref.uses (r : Ref) (write : Bool) (n : Nat) : List PortUse :=
  match r with
  | .port p => [{ p := p, write := write, n := n }]
  | _ => []

/-- Read an operand: its low size bytes (04 R50). -/
def State.readRef (s : State) (r : Ref) (size : Nat) : Except Stop (State × Word) :=
  match r with
  | .ptr n => .ok (s, s.ptr n)
  | .acc => .ok (s, s.acc)
  | .imm v => .ok (s, v)
  | .mem a => (s.load a size).map fun x => (x.1, BitVec.ofNat 64 x.2)
  | .port p => (s.popPort p 1).map fun x => (x.1, x.2.headD 0)

/-- Write the low size bytes of v to an operand, zero-extended where it is not memory (04 R60). -/
def State.writeRef (s : State) (r : Ref) (size : Nat) (v : Word) : Run :=
  let low := v.toNat % 2 ^ (8 * size)
  match r with
  | .ptr n => .ok (s.setPtr n (BitVec.ofNat 64 low))
  | .acc => .ok (s.setAcc (BitVec.ofNat 64 low))
  | .mem a => s.store a size low
  | .port p => s.pushPort p [BitVec.ofNat 64 low]
  | .imm _ => .error (.trap cIllegal 0)

/-- Read a scalar source operand (04 R50). -/
def State.source (s : State) (sp : Spec) (i : Int) (size : Nat) : Except Stop (State × Word) := do
  let x := s.operand sp i size
  let t ← x.1.needPorts (x.2.uses false 1)
  t.readRef x.2 size

/-- The address of an address operand (03 R34). -/
def State.address (s : State) (sp : Spec) (i : Int) (size : Nat) : Except Stop (State × Word) :=
  match s.operand sp i size with
  | (t, .mem a) => .ok (t, a)
  | _ => .error (.trap cIllegal 0)

/-- The block of a checked address, without a poison check (07 R123). -/
def State.blockLoc (s : State) : Loc → Except Stop (State × Block)
  | .buf win b g off =>
    (s.access (slowMem win) fun s =>
      let t := s.sense (s.ctxOf s.curCore) (bufKey b g off) 64
      (t, .block (blockAt t.mem (bufKey b g off)))).map fun x => (x.1, x.2.toBlock)
  | .glob r e va => s.readRoute r e va
  | .sys _ => .error (.trap cSpace 0)

/-- The bytes of a whole block with its descriptor reach memory as one unit (07 R123); what it replaces is clean (09 R192). -/
def State.putBuf (s : State) (b g off : Nat) (x : Block) : State :=
  let s := { s with mem := putBlock s.mem (bufKey b g off) x }.mend (s.ctxOf s.curCore) (bufKey b g off) 64 true
  if b = 0 then s.fire g off 64 (some (s.curCore, s.curSlot)) else s

/-- A whole block written to a route, posted. -/
def State.postBlock (s : State) (r : Route) (e : PageEntry) (va : Nat) (x : Block) (mark : Bool) : State :=
  (s.blockOut s.curCore s.curSlot r e va x).markBank mark e r

/-- Write a whole block to a checked address. -/
def State.putLoc (s : State) (addr : Word) (x : Block) (mark : Bool) : Loc → Run
  | .buf _ b g off =>
    if s.strikes b g off 64 then .error (.trap cWatch addr)
    else (s.access none fun s => (s.putBuf b g off x, .done)).map fun x => x.1
  | .glob r e va => (s.access (slowMem true) fun s => (s.postBlock r e va x mark, .done)).map fun x => x.1
  | .sys _ => .error (.trap cSpace addr)

/-- A block read by a lane instruction (08 R150). -/
def State.laneRead (s : State) (a : Word) : Except Stop (State × Block) := do
  let (t, l) ← s.locate a 64 64 .read tagLaneRead false true
  t.blockLoc l

def State.laneLocate (s : State) (a : Word) : Except Stop (State × Loc) := s.locate a 64 64 .write tagLaneWrite false true

/-- Whether a write of the block at a place strikes a watchpoint (21 R351). -/
def State.strikesLoc (s : State) : Loc → Bool
  | .buf _ b g off => s.strikes b g off 64
  | _ => false

/-- The first operand of a short word, checked for its write: a watchpoint there too comes before any fault of s (03 R30, R31). -/
def State.laneDest (s : State) (a : Word) : Run := do
  let (t, l) ← s.laneLocate a
  if t.strikesLoc l then .error (.trap cWatch a) else .ok t

def State.laneWrite (s : State) (a : Word) (x : Block) : Run := do
  let (t, l) ← s.laneLocate a
  t.putLoc a x false l

end Sys2Proof.Machine
end

