-- ==== Sys2Proof/Machine/Lane.lean ====
section
/-!
DEFINITION. The lane classes LANEA, LANES, LANEL, LANEP and the sixteen lane short words (08 R150 to R165).
-/
namespace Sys2Proof.Machine

/-- A lane source as it was read: whether it is the accumulator, its block, and the address a format fault reports. -/
structure Src where
  alpha : Bool
  block : Block
  addr  : Word
  deriving DecidableEq, Repr

/-- Eight queue entries as a block: the format and scale are vf's (03 R32). -/
def wordsBlock (vf : BitVec 19) (ws : List Word) : Block :=
  { data := ws.flatMap fun w => leBytes 8 w.toNat, fmt := BitVec.ofNat 8 (vfFmt vf), scale := BitVec.ofNat 8 (vfScale vf) }

/-- The eight entries of a block, bytes [7:0] first (03 R32). -/
def blockWords (d : List Byte) : List Word :=
  (List.range 8).map fun i => BitVec.ofNat 64 (leNat ((d.drop (8 * i)).take 8))

/-- a[31:0] as a block: sixteen binary32 lanes, scale 127 (08 R152). DEDUCED: the width and the descriptor (0xC2, 127) of a as the
source of vmov, vbcast, vperm and vcmpr (log 13). -/
def alphaBlock (a : Word) : Block :=
  { data := (List.replicate 16 (leBytes 4 (a.toNat % 2 ^ 32))).flatten, fmt := 0xC2, scale := 127 }

/-- Read one source block (08 R150, R152; 03 R32, R33). -/
def State.laneSource (s : State) : Ref → Except Stop (State × Src)
  | .mem a => (s.laneRead a).map fun r => (r.1, { alpha := false, block := r.2, addr := a })
  | .port p => (s.popPort p 8).map fun r => (r.1, { alpha := false, block := wordsBlock s.cur.vf r.2, addr := 0 })
  | .acc => .ok (s, { alpha := true, block := alphaBlock s.acc, addr := 0 })
  | _ => .error (.trap cIllegal 0)

/-- Write the destination block (08 R150, 03 R32). -/
def State.laneOut (s : State) (d : Ref) (b : Block) : Run :=
  match d with
  | .mem a => s.laneWrite a b
  | .port p => s.pushPort p (blockWords b.data)
  | _ => .error (.trap cIllegal 0)

/-- The ports of block operands, eight entries each: the sources, then the destination (03 R32). -/
def blockUses (reads : List Ref) (d : Ref) : List PortUse := (reads.flatMap fun r => r.uses false 8) ++ d.uses true 8

/-- What a source must be, given those read before it. -/
abbrev SrcCheck := State → List Src → Src → Except Stop Unit

/-- Read the sources in their order, each checked before the next is read (03 R30, R31). -/
def State.readSrcs (chk : SrcCheck) (s : State) (done : List Src) : List Ref → Except Stop (State × List Src)
  | [] => .ok (s, done)
  | r :: rs =>
    match s.laneSource r with
    | .error e => .error e
    | .ok (t, x) =>
      match chk t done x with
      | .error e => .error e
      | .ok _ => t.readSrcs chk (done ++ [x]) rs

/-- The numeric destination format of vf, or the format-mismatch fault (08 R151). -/
def State.vfNum (s : State) : Except Stop Fmt :=
  match fmtOf (vfFmt s.cur.vf) with
  | some f => .ok f
  | none => .error (.trap cFormat 0)

/-- A numeric source has the width of vf.fmt; the accumulator is exempt (08 R151, R152). DEDUCED: the fault of vf.fmt comes after
the address check of the first source and before its format check (log 15), and a poisoned source faults for its format too, which 07
R120 and R122 leave to the reading (log 101). -/
def checkNum : SrcCheck := fun s _ x =>
  match s.vfNum with
  | .error e => .error e
  | .ok f =>
    if x.alpha then .ok ()
    else match fmtOf x.block.fmt.toNat with
      | some g => if g.width = f.width then .ok () else .error (.trap cFormat x.addr)
      | none => .error (.trap cFormat x.addr)

/-- A bit instruction: no reserved code, S2 of the width of S1 or the accumulator (08 R158); of a poisoned source too (log 101). -/
def checkBits : SrcCheck := fun _ done x =>
  if x.alpha && !done.isEmpty then .ok ()
  else if fmtReserved x.block.fmt.toNat then .error (.trap cFormat x.addr)
  else match done with
    | y :: _ => if widthOf x.block.fmt.toNat = widthOf y.block.fmt.toNat then .ok () else .error (.trap cFormat x.addr)
    | [] => .ok ()

/-- vmov copies any block (08 R159). -/
def checkNone : SrcCheck := fun _ _ _ => .ok ()

/-- vbcast and vmsk need a lane width (08 R159). -/
def checkWidth : SrcCheck := fun _ _ x => if fmtReserved x.block.fmt.toNat then .error (.trap cFormat x.addr) else .ok ()

/-- The permutes: S1 of a width of 8 or more; the bytes of S2 are not checked (08 R161). -/
def checkPerm : SrcCheck := fun _ done x =>
  if done.isEmpty && (fmtReserved x.block.fmt.toNat || widthOf x.block.fmt.toNat == 4) then .error (.trap cFormat x.addr)
  else .ok ()

def anyPoison (xs : List Src) : Bool := xs.any fun x => x.block.scale == 255

/-- What a lane instruction computes from its sources: the block for D, and the state with a and E. -/
abbrev LaneCalc := State → List Src → State × Block

/-- A lane instruction whose operands are evaluated: ports, reads, the result, the write. A short word's d is checked for
its write first (03 R30, R31, R32). -/
def laneRun (chk : SrcCheck) (work : LaneCalc) (short : Bool) (t : State) (reads : List Ref) (d : Ref) : Run := do
  let q ← t.needPorts (blockUses reads d)
  let q ← match short, d with
    | true, .mem a => q.laneDest a
    | _, _ => .ok q
  let (u, xs) ← q.readSrcs chk [] reads
  let r := work u xs
  r.1.laneOut d r.2

/-- The lanes of a source under a width: the accumulator is broadcast (08 R152). -/
def Src.nums (w : Nat) (x : Src) : List Num :=
  if x.alpha then List.replicate (lanesOf w) (fmt32.read (elemAt x.block.data 32 0))
  else match fmtOf x.block.fmt.toNat with
    | some g => blockNums g x.block
    | none => []

/-- The destination format of vf where it has been checked. -/
def State.vfFmtOf (s : State) : Fmt := (fmtOf (vfFmt s.cur.vf)).getD fmt32

def State.vfCode (s : State) : Byte := BitVec.ofNat 8 (vfFmt s.cur.vf)

/-- RDN, under which an exact zero sum is −0 (08 R155). -/
def State.down (s : State) : Bool := vfMode s.cur.vf == 2

/-- A numeric result: poison passes through, else the lanes are converted as vf says (08 R153, R154). -/
def numCalc (f : State → List (List Num) → List Num) : LaneCalc := fun s xs =>
  if anyPoison xs then (s.raiseE true, poisonBlock s.vfCode)
  else
    let g := s.vfFmtOf
    let r := convertBlock g s.vfCode s.cur.vf (f s (xs.map (Src.nums g.width)))
    (s.raiseE r.2, r.1)

/-- The exact operations of 08 R154 on lanes x, y, z and the accumulator's α. -/
inductive LaneOp where
  | add | sub | mul | fma | fms | min | max | abs | neg | axpy | scl | div | sqrt
  deriving DecidableEq, Repr

def laneOp (op : LaneOp) (down : Bool) (al x y z : Num) : Num :=
  match op with
  | .add => x.add down y
  | .sub => x.add down y.negate
  | .mul => x.mul y
  | .fma => z.add down (x.mul y)
  | .fms => z.add down (x.mul y).negate
  | .min => x.least y
  | .max => x.greatest y
  | .abs => x.absolute
  | .neg => x.negate
  | .axpy => (al.mul x).add down y
  | .scl => al.mul x
  | .div => x.quot y
  | .sqrt => x.root

def lanes1 (f : Num → Num) (xs : List (List Num)) : List Num := (xs.headD []).map f

def lanes2 (f : Num → Num → Num) : List (List Num) → List Num
  | [x, y] => List.zipWith f x y
  | _ => []

def lanes3 (f : Num → Num → Num → Num) : List (List Num) → List Num
  | [x, y, z] => List.zipWith (fun p c => f p.1 p.2 c) (x.zip y) z
  | _ => []

/-- One, two and three source instructions. -/
def calc1 (op : LaneOp) : LaneCalc :=
  numCalc fun s => lanes1 fun x => laneOp op s.down (num32 s.acc) x x x

def calc2 (op : LaneOp) : LaneCalc :=
  numCalc fun s => lanes2 fun x y => laneOp op s.down (num32 s.acc) x y x

def calc3 (op : LaneOp) : LaneCalc :=
  numCalc fun s => lanes3 fun x y z => laneOp op s.down (num32 s.acc) x y z

/-- The short vfma: d + s × α, d read first (08 R163). -/
def calcFmaShort : LaneCalc :=
  numCalc fun s => lanes2 fun z x => laneOp .fma s.down (num32 s.acc) x (num32 s.acc) z

def calcSpecial (f : Special) : LaneCalc := numCalc fun _ => lanes1 (special f)

/-- vsel: bit (i mod 64) of a chooses (08 R159). -/
def pick (a : Word) : Nat → List Num → List Num → List Num
  | i, x :: xs, y :: ys => (if a.getLsbD (i % 64) then x else y) :: pick a (i + 1) xs ys
  | _, _, _ => []

def calcSel : LaneCalc := numCalc fun s xs =>
  match xs with
  | [x, y] => pick s.acc 0 x y
  | _ => []

/-- Comparisons of real values, false with NaN (08 R159). -/
inductive CmpOp where
  | eq | lt | le
  deriving DecidableEq, Repr

def cmpOp (op : CmpOp) (x y : Num) : Bool :=
  !x.isNaN && !y.isNaN && match op with
    | .eq => x.cmp y == .eq
    | .lt => x.cmp y == .lt
    | .le => x.cmp y != .gt

def calcCmp (op : CmpOp) : LaneCalc := fun s xs =>
  if anyPoison xs then (s.raiseE true, poisonBlock s.vfCode)
  else
    let w := s.vfFmtOf.width
    let m := match xs.map (Src.nums w) with
      | [x, y] => List.zipWith (fun a b => if cmpOp op a b then 2 ^ w - 1 else 0) x y
      | _ => []
    (s, { data := packElems w m, fmt := s.vfCode, scale := 127 })

/-- The bit operations on w-bit patterns (08 R158). -/
inductive BitOp where
  | and | or | xor | andn | shl | shr | sar
  deriving DecidableEq, Repr

def bitOp (op : BitOp) (w x y : Nat) : Nat :=
  match op with
  | .and => x &&& y
  | .or => x ||| y
  | .xor => x ^^^ y
  | .andn => x &&& (2 ^ w - 1 - y)
  | .shl => if w ≤ y then 0 else x * 2 ^ y % 2 ^ w
  | .shr => if w ≤ y then 0 else x / 2 ^ y
  | .sar =>
    let ones := 2 ^ (w - 1) ≤ x
    if w ≤ y then (if ones then 2 ^ w - 1 else 0)
    else x / 2 ^ y + (if ones then 2 ^ w - 2 ^ (w - y) else 0)

/-- The lanes of S2 of a bit instruction: the accumulator gives each the low w bits of a[31:0] (08 R152). -/
def Src.bits (a : Word) (w : Nat) (x : Src) : List Nat :=
  if x.alpha then List.replicate (lanesOf w) (a.toNat % 2 ^ 32 % 2 ^ w) else elemsOf x.block.data w

def calcBits (op : BitOp) : LaneCalc := fun s xs =>
  match xs with
  | [x, y] =>
    if anyPoison xs then (s.raiseE true, poisonBlock x.block.fmt)
    else
      let w := widthOf x.block.fmt.toNat
      (s, { x.block with data := packElems w (List.zipWith (bitOp op w) (elemsOf x.block.data w) (y.bits s.acc w)) })
  | _ => (s, poisonBlock 0)

def calcMov : LaneCalc := fun s xs =>
  match xs with
  | x :: _ => (s, x.block)
  | [] => (s, poisonBlock 0)

def calcBcast : LaneCalc := fun s xs =>
  match xs with
  | x :: _ =>
    if anyPoison xs then (s.raiseE true, poisonBlock x.block.fmt)
    else
      let w := widthOf x.block.fmt.toNat
      let v := elemAt x.block.data w (s.acc.toNat % lanesOf w)
      (s, { x.block with data := packElems w (List.replicate (lanesOf w) v) })
  | [] => (s, poisonBlock 0)

/-- The mask of vmsk: bit j for any nonzero lane i with i mod 64 = j (08 R159). -/
def maskOf : Nat → List Nat → Nat → Nat
  | _, [], m => m
  | i, x :: xs, m => maskOf (i + 1) xs (if x = 0 then m else m ||| 2 ^ (i % 64))

/-- vmsk S1 (08 R159); a poisoned source gives 0 and E (08 R153). -/
def vmskRun (s : State) (a : Spec) : Run := do
  let x := s.operand a 0 64
  let q ← x.1.needPorts (x.2.uses false 8)
  let (t, xs) ← q.readSrcs checkWidth [] [x.2]
  let m := match xs with
    | y :: _ => maskOf 0 (elemsOf y.block.data (widthOf y.block.fmt.toNat)) 0
    | [] => 0
  let v : Word := if anyPoison xs then 0 else BitVec.ofNat 64 m
  .ok (((t.raiseE (anyPoison xs)).setAcc v).setFlags (setZN (t.raiseE (anyPoison xs)).flags v))

/-- The reductions (08 R160). -/
inductive RedOp where
  | add | max | min | dot
  deriving DecidableEq, Repr

def foldNum (f : Num → Num → Num) : List Num → Num
  | [] => .nan
  | x :: xs => xs.foldl f x

def reduce (op : RedOp) (down : Bool) (xs : List (List Num)) : Num :=
  match op, xs with
  | .add, [x] => foldNum (Num.add down) x
  | .max, [x] => foldNum Num.greatest x
  | .min, [x] => foldNum Num.least x
  | .dot, [x, y] => foldNum (Num.add down) (List.zipWith Num.mul x y)
  | _, _ => .nan

def padBlock (b : Block) : Block := { b with data := b.data ++ List.replicate (64 - b.data.length) 0 }

def calcRed (op : RedOp) : LaneCalc := fun s xs =>
  if anyPoison xs then ((s.raiseE true).setAcc 0x7FC00000, poisonBlock s.vfCode)
  else
    let g := s.vfFmtOf
    let r := reduce op s.down (xs.map (Src.nums g.width))
    let b := convertBlock g s.vfCode s.cur.vf [r]
    ((s.raiseE b.2).setAcc (BitVec.ofNat 64 (bits32 r)), padBlock b.1)

/-- vperm: lane i takes the lane that byte i of S2 names (08 R161); a as S1 is the block of log 13. -/
def calcPerm : LaneCalc := fun s xs =>
  match xs with
  | [x, y] =>
    if anyPoison xs then (s.raiseE true, poisonBlock x.block.fmt)
    else
      let w := widthOf x.block.fmt.toNat
      let n := lanesOf w
      let e := (List.range n).map fun i => elemAt x.block.data w ((y.block.data.getD i 0).toNat % n)
      (s, { x.block with data := packElems w e })
  | _ => (s, poisonBlock 0)

/-- The lanes that vcmpr keeps (08 R161); a as S1 is the block of log 13. -/
def keptLanes (a : Word) (n : Nat) : List Nat := (List.range n).filter fun i => a.getLsbD i

def calcCmpr : LaneCalc := fun s xs =>
  match xs with
  | x :: _ =>
    let w := widthOf x.block.fmt.toNat
    let k := keptLanes s.acc (lanesOf w)
    let t := s.setAcc (BitVec.ofNat 64 k.length)
    if anyPoison xs then (t.raiseE true, poisonBlock x.block.fmt)
    else (t, padBlock { x.block with data := packElems w (k.map (elemAt x.block.data w)) })
  | [] => (s, poisonBlock 0)

/-- The address of block k of a run of blocks. -/
def runAddr (a : Word) (k : Nat) : Word := ptrAdd a (64 * k)

/-- The table blocks that indices touch, ascending (08 R162). -/
def touchedBlocks (w : Nat) (idx : List Nat) : List Nat :=
  (List.range (w / 2)).filter fun k => idx.any fun i => i / lanesOf w == k

/-- Read blocks of a table, each numeric of vf's width (08 R151, R162). -/
def State.readTable (s : State) (a : Word) : List Nat → Except Stop (State × List (Nat × Src))
  | [] => .ok (s, [])
  | k :: ks => do
    let (t, b) ← s.laneRead (runAddr a k)
    let x : Src := { alpha := false, block := b, addr := runAddr a k }
    checkNum t [] x
    let (u, r) ← t.readTable a ks
    .ok (u, (k, x) :: r)

/-- The table width: vf's, of which the 4-bit formats are refused (08 R162). -/
def State.tableFmt (s : State) : Except Stop Fmt := do
  let f ← s.vfNum
  if f.width = 4 then .error (.trap cFormat 0) else .ok f

def indices (n : Nat) (x : Src) : List Nat := (List.range n).map fun i => (x.block.data.getD i 0).toNat

/-- vgath D, S1, S2 (08 R162): the table address is checked, then S2 is read, then the table blocks that are touched. -/
def gatherRun (s : State) (d a b : Spec) : Except Stop (State × Nat) := do
  let x := s.operand a 0 64
  let y := x.1.operand b 0 64
  let z := y.1.operand d 0 64
  match x.2 with
  | .mem base => do
    let q ← z.1.needPorts (blockUses [y.2] z.2)
    let (q, _) ← q.locate base 64 64 .read tagLaneRead false true
    let f ← q.tableFmt
    let (t, i) ← q.laneSource y.2
    let idx := indices (lanesOf f.width) i
    let ks := touchedBlocks f.width idx
    let (u, tab) ← t.readTable base ks
    let n := lanesOf f.width
    let r :=
      if anyPoison (i :: tab.map fun e => e.2) then (poisonBlock u.vfCode, true)
      else convertBlock f u.vfCode u.cur.vf (idx.map fun e => (((tab.lookup (e / n)).map (Src.nums f.width)).getD []).getD (e % n) .nan)
    let v ← (u.raiseE r.2).laneOut z.2 r.1
    .ok (v, 4 + ks.length)
  | _ => .error (.trap cIllegal 0)

/-- The elements of one table block after a scatter: the last lane that names an element gives it (08 R162). -/
def scatterBlock (w k : Nat) (old : List Nat) (ws : List (Nat × Conv)) : List Nat :=
  let n := lanesOf w
  (List.range n).map fun j =>
    match (ws.filter fun e => e.1 == k * n + j).getLast? with
    | some e => e.2.bits
    | none => old.getD j 0

/-- Check the touched table blocks for their writes and read them, before any is written (03 R30, R31; 08 R162). -/
def State.scatterReads (s : State) (base : Word) : List Nat → Except Stop (State × List (Nat × Loc × Block))
  | [] => .ok (s, [])
  | k :: ks => do
    let (t, l) ← s.laneLocate (runAddr base k)
    let (t, old) ← t.blockLoc l
    let (t, r) ← t.scatterReads base ks
    .ok (t, (k, l, old) :: r)

/-- Write the touched table blocks, each with descriptor (vf.fmt, vf.fscale), or poisoned (08 R162, 07 R122). -/
def State.scatter (s : State) (f : Fmt) (base : Word) (bad : Bool) (ws : List (Nat × Conv)) : List (Nat × Loc × Block) → Run
  | [] => .ok s
  | (k, l, old) :: ks => do
    let mine := ws.filter fun e => e.1 / lanesOf f.width == k
    let poison := bad || mine.any fun e => e.2.poison
    let b : Block :=
      if poison then poisonBlock s.vfCode
      else { data := packElems f.width (scatterBlock f.width k (elemsOf old.data f.width) ws), fmt := s.vfCode,
             scale := BitVec.ofNat 8 (vfScale s.cur.vf) }
    let u ← s.putLoc (runAddr base k) b false l
    (u.raiseE poison).scatter f base bad ws ks

/-- vscat D, S1, S2 (08 R162). -/
def scatterRun (s : State) (d a b : Spec) : Except Stop (State × Nat) := do
  let x := s.operand a 0 64
  let y := x.1.operand b 0 64
  let z := y.1.operand d 0 64
  match z.2 with
  | .mem base => do
    let q ← z.1.needPorts (blockUses [x.2, y.2] z.2)
    let (t, v) ← q.laneSource x.2
    let f ← t.tableFmt
    checkNum t [] v
    let (u, i) ← t.laneSource y.2
    let (u, _) ← u.laneLocate base
    let idx := indices (lanesOf f.width) i
    let bad := anyPoison [v, i] || vfScale u.cur.vf == 255
    let cs := (v.nums f.width).map (f.convert (vfMode u.cur.vf) (vfScale u.cur.vf))
    let ks := touchedBlocks f.width idx
    let (v, olds) ← u.scatterReads base ks
    let r ← (v.raiseE (!bad && cs.any fun c => c.e)).scatter f base bad (idx.zip cs) olds
    .ok (r, 4 + ks.length)
  | _ => .error (.trap cIllegal 0)

/-- The end of an instruction whose delay its run gives. -/
def retireWith (s : State) (len : Nat) (r : Except Stop (State × Nat)) : Host.Outcome State Fault Refusal :=
  match r with
  | .ok (t, delay) => .next (t.complete len delay)
  | .error e => .next (s.stopped len e)

/-- The V-format operands S1, S2, D in their order (03 R30). -/
def lane2 (chk : SrcCheck) (work : LaneCalc) (delay : Nat) (d a : Spec) (s : State) : Host.Outcome State Fault Refusal :=
  let x := s.operand a 0 64
  let z := x.1.operand d 0 64
  retire s 4 delay (laneRun chk work false z.1 [x.2] z.2)

def lane3 (chk : SrcCheck) (work : LaneCalc) (delay : Nat) (readD : Bool) (d a b : Spec) (s : State) :
    Host.Outcome State Fault Refusal :=
  let x := s.operand a 0 64
  let y := x.1.operand b 0 64
  let z := y.1.operand d 0 64
  retire s 4 delay (laneRun chk work false z.1 (if readD then [x.2, y.2, z.2] else [x.2, y.2]) z.2)

/-- A short specifier as a specifier of the V format (03 R37). -/
def ShortSpec.long : ShortSpec → Spec
  | .mem n => .mem n
  | .post n => .post n
  | .pre n => .pre n
  | .queue k => .queue k
  | .nxt => .nxt
  | .prv => .prv

/-- The lane short words: d once, then s (03 R30, R38; 08 R163). DEDUCED (log 97): also where the word has one source and both name
one stepping pointer, for which 03 R17 promises the 32-bit word's effect. -/
def laneShort (chk : SrcCheck) (work : LaneCalc) (readD : Bool) (d a : ShortSpec) (s : State) :
    Host.Outcome State Fault Refusal :=
  let z := s.operand (ShortSpec.long d) 0 64
  let x := z.1.operand (ShortSpec.long a) 0 64
  retire s 2 4 (laneRun chk work true x.1 (if readD then [z.2, x.2] else [x.2]) z.2)

/-- VADD (08 R154). -/
def execVadd (d a b : Spec) (s : State) : Host.Outcome State Fault Refusal :=
  lane3 checkNum (calc2 .add) 4 false d a b s

/-- VSUB (08 R154). -/
def execVsub (d a b : Spec) (s : State) : Host.Outcome State Fault Refusal :=
  lane3 checkNum (calc2 .sub) 4 false d a b s

/-- VMUL (08 R154). -/
def execVmul (d a b : Spec) (s : State) : Host.Outcome State Fault Refusal :=
  lane3 checkNum (calc2 .mul) 4 false d a b s

/-- VMIN (08 R154). -/
def execVmin (d a b : Spec) (s : State) : Host.Outcome State Fault Refusal :=
  lane3 checkNum (calc2 .min) 4 false d a b s

/-- VMAX (08 R154). -/
def execVmax (d a b : Spec) (s : State) : Host.Outcome State Fault Refusal :=
  lane3 checkNum (calc2 .max) 4 false d a b s

/-- VAXPY (08 R154). -/
def execVaxpy (d a b : Spec) (s : State) : Host.Outcome State Fault Refusal :=
  lane3 checkNum (calc2 .axpy) 4 false d a b s

/-- VFMA (08 R154). -/
def execVfma (d a b : Spec) (s : State) : Host.Outcome State Fault Refusal :=
  lane3 checkNum (calc3 .fma) 4 true d a b s

/-- VFMS (08 R154). -/
def execVfms (d a b : Spec) (s : State) : Host.Outcome State Fault Refusal :=
  lane3 checkNum (calc3 .fms) 4 true d a b s

/-- VDIV (08 R154). -/
def execVdiv (d a b : Spec) (s : State) : Host.Outcome State Fault Refusal :=
  lane3 checkNum (calc2 .div) 16 false d a b s

/-- VABS (08 R154). -/
def execVabs (d a : Spec) (s : State) : Host.Outcome State Fault Refusal :=
  lane2 checkNum (calc1 .abs) 4 d a s

/-- VNEG (08 R154). -/
def execVneg (d a : Spec) (s : State) : Host.Outcome State Fault Refusal :=
  lane2 checkNum (calc1 .neg) 4 d a s

/-- VSCL (08 R154). -/
def execVscl (d a : Spec) (s : State) : Host.Outcome State Fault Refusal :=
  lane2 checkNum (calc1 .scl) 4 d a s

/-- VSQRT (08 R154). -/
def execVsqrt (d a : Spec) (s : State) : Host.Outcome State Fault Refusal :=
  lane2 checkNum (calc1 .sqrt) 16 d a s

/-- VAND (08 R158). -/
def execVand (d a b : Spec) (s : State) : Host.Outcome State Fault Refusal :=
  lane3 checkBits (calcBits .and) 4 false d a b s

/-- VOR (08 R158). -/
def execVor (d a b : Spec) (s : State) : Host.Outcome State Fault Refusal :=
  lane3 checkBits (calcBits .or) 4 false d a b s

/-- VXOR (08 R158). -/
def execVxor (d a b : Spec) (s : State) : Host.Outcome State Fault Refusal :=
  lane3 checkBits (calcBits .xor) 4 false d a b s

/-- VANDN (08 R158). -/
def execVandn (d a b : Spec) (s : State) : Host.Outcome State Fault Refusal :=
  lane3 checkBits (calcBits .andn) 4 false d a b s

/-- VSHL (08 R158). -/
def execVshl (d a b : Spec) (s : State) : Host.Outcome State Fault Refusal :=
  lane3 checkBits (calcBits .shl) 4 false d a b s

/-- VSHR (08 R158). -/
def execVshr (d a b : Spec) (s : State) : Host.Outcome State Fault Refusal :=
  lane3 checkBits (calcBits .shr) 4 false d a b s

/-- VSAR (08 R158). -/
def execVsar (d a b : Spec) (s : State) : Host.Outcome State Fault Refusal :=
  lane3 checkBits (calcBits .sar) 4 false d a b s

/-- VCEQ (08 R159). -/
def execVceq (d a b : Spec) (s : State) : Host.Outcome State Fault Refusal :=
  lane3 checkNum (calcCmp .eq) 4 false d a b s

/-- VCLT (08 R159). -/
def execVclt (d a b : Spec) (s : State) : Host.Outcome State Fault Refusal :=
  lane3 checkNum (calcCmp .lt) 4 false d a b s

/-- VCLE (08 R159). -/
def execVcle (d a b : Spec) (s : State) : Host.Outcome State Fault Refusal :=
  lane3 checkNum (calcCmp .le) 4 false d a b s

/-- VSEL (08 R159). -/
def execVsel (d a b : Spec) (s : State) : Host.Outcome State Fault Refusal :=
  lane3 checkNum calcSel 4 false d a b s

/-- VMOV (08 R159). -/
def execVmov (d a : Spec) (s : State) : Host.Outcome State Fault Refusal :=
  lane2 checkNone calcMov 4 d a s

/-- VBCAST (08 R159). -/
def execVbcast (d a : Spec) (s : State) : Host.Outcome State Fault Refusal :=
  lane2 checkWidth calcBcast 4 d a s

/-- VMSK (08 R159). -/
def execVmsk (a : Spec) (s : State) : Host.Outcome State Fault Refusal :=
  retire s 4 4 (vmskRun s a)

/-- VEXP2 (08 R157). -/
def execVexp2 (d a : Spec) (s : State) : Host.Outcome State Fault Refusal :=
  lane2 checkNum (calcSpecial .exp2) 12 d a s

/-- VLOG2 (08 R157). -/
def execVlog2 (d a : Spec) (s : State) : Host.Outcome State Fault Refusal :=
  lane2 checkNum (calcSpecial .log2) 12 d a s

/-- VRCP (08 R157). -/
def execVrcp (d a : Spec) (s : State) : Host.Outcome State Fault Refusal :=
  lane2 checkNum (calcSpecial .rcp) 12 d a s

/-- VRSQRT (08 R157). -/
def execVrsqrt (d a : Spec) (s : State) : Host.Outcome State Fault Refusal :=
  lane2 checkNum (calcSpecial .rsqrt) 12 d a s

/-- VSINPI (08 R157). -/
def execVsinpi (d a : Spec) (s : State) : Host.Outcome State Fault Refusal :=
  lane2 checkNum (calcSpecial .sinpi) 12 d a s

/-- VCOSPI (08 R157). -/
def execVcospi (d a : Spec) (s : State) : Host.Outcome State Fault Refusal :=
  lane2 checkNum (calcSpecial .cospi) 12 d a s

/-- VTANH (08 R157). -/
def execVtanh (d a : Spec) (s : State) : Host.Outcome State Fault Refusal :=
  lane2 checkNum (calcSpecial .tanh) 12 d a s

/-- VSIGM (08 R157). -/
def execVsigm (d a : Spec) (s : State) : Host.Outcome State Fault Refusal :=
  lane2 checkNum (calcSpecial .sigm) 12 d a s

/-- VERF (08 R157). -/
def execVerf (d a : Spec) (s : State) : Host.Outcome State Fault Refusal :=
  lane2 checkNum (calcSpecial .erf) 12 d a s

/-- VRADD (08 R160). -/
def execVradd (d a : Spec) (s : State) : Host.Outcome State Fault Refusal :=
  lane2 checkNum (calcRed .add) 8 d a s

/-- VRMAX (08 R160). -/
def execVrmax (d a : Spec) (s : State) : Host.Outcome State Fault Refusal :=
  lane2 checkNum (calcRed .max) 8 d a s

/-- VRMIN (08 R160). -/
def execVrmin (d a : Spec) (s : State) : Host.Outcome State Fault Refusal :=
  lane2 checkNum (calcRed .min) 8 d a s

/-- VDOT (08 R160). -/
def execVdot (d a b : Spec) (s : State) : Host.Outcome State Fault Refusal :=
  lane3 checkNum (calcRed .dot) 8 false d a b s

/-- VPERM (08 R161). -/
def execVperm (d a b : Spec) (s : State) : Host.Outcome State Fault Refusal :=
  lane3 checkPerm calcPerm 4 false d a b s

/-- VCMPR (08 R161). -/
def execVcmpr (d a : Spec) (s : State) : Host.Outcome State Fault Refusal :=
  lane2 checkPerm calcCmpr 4 d a s

/-- VGATH (08 R162). -/
def execVgath (d a b : Spec) (s : State) : Host.Outcome State Fault Refusal :=
  retireWith s 4 (gatherRun s d a b)

/-- VSCAT (08 R162). -/
def execVscat (d a b : Spec) (s : State) : Host.Outcome State Fault Refusal :=
  retireWith s 4 (scatterRun s d a b)

/-- VADD, short (08 R163). -/
def execVaddShort (d a : ShortSpec) (s : State) : Host.Outcome State Fault Refusal :=
  laneShort checkNum (calc2 .add) true d a s

/-- VSUB, short (08 R163). -/
def execVsubShort (d a : ShortSpec) (s : State) : Host.Outcome State Fault Refusal :=
  laneShort checkNum (calc2 .sub) true d a s

/-- VMUL, short (08 R163). -/
def execVmulShort (d a : ShortSpec) (s : State) : Host.Outcome State Fault Refusal :=
  laneShort checkNum (calc2 .mul) true d a s

/-- VMIN, short (08 R163). -/
def execVminShort (d a : ShortSpec) (s : State) : Host.Outcome State Fault Refusal :=
  laneShort checkNum (calc2 .min) true d a s

/-- VMAX, short (08 R163). -/
def execVmaxShort (d a : ShortSpec) (s : State) : Host.Outcome State Fault Refusal :=
  laneShort checkNum (calc2 .max) true d a s

/-- VFMA, short (08 R163). -/
def execVfmaShort (d a : ShortSpec) (s : State) : Host.Outcome State Fault Refusal :=
  laneShort checkNum calcFmaShort true d a s

/-- VMOV, short (08 R163). -/
def execVmovShort (d a : ShortSpec) (s : State) : Host.Outcome State Fault Refusal :=
  laneShort checkNone calcMov false d a s

/-- VAND, short (08 R163). -/
def execVandShort (d a : ShortSpec) (s : State) : Host.Outcome State Fault Refusal :=
  laneShort checkBits (calcBits .and) true d a s

/-- VOR, short (08 R163). -/
def execVorShort (d a : ShortSpec) (s : State) : Host.Outcome State Fault Refusal :=
  laneShort checkBits (calcBits .or) true d a s

/-- VXOR, short (08 R163). -/
def execVxorShort (d a : ShortSpec) (s : State) : Host.Outcome State Fault Refusal :=
  laneShort checkBits (calcBits .xor) true d a s

/-- VSHL, short (08 R163). -/
def execVshlShort (d a : ShortSpec) (s : State) : Host.Outcome State Fault Refusal :=
  laneShort checkBits (calcBits .shl) true d a s

/-- VSHR, short (08 R163). -/
def execVshrShort (d a : ShortSpec) (s : State) : Host.Outcome State Fault Refusal :=
  laneShort checkBits (calcBits .shr) true d a s

/-- VABS, short (08 R163). -/
def execVabsShort (d a : ShortSpec) (s : State) : Host.Outcome State Fault Refusal :=
  laneShort checkNum (calc1 .abs) false d a s

/-- VNEG, short (08 R163). -/
def execVnegShort (d a : ShortSpec) (s : State) : Host.Outcome State Fault Refusal :=
  laneShort checkNum (calc1 .neg) false d a s

/-- VSEL, short (08 R163). -/
def execVselShort (d a : ShortSpec) (s : State) : Host.Outcome State Fault Refusal :=
  laneShort checkNum calcSel true d a s

end Sys2Proof.Machine
end

