-- ==== Sys2Proof/Machine/Convert.lean ====
section
/-!
DEFINITION. Descriptors and conversions: DESC (07 R128 to R133), FORMAT (07 R134 to R142) and the short vcvt.
-/
namespace Sys2Proof.Machine

/-- Set the descriptor bytes of the block at a key; none keeps the format. -/
def setDesc (m : List Host.Cell) (k : Nat) (fmt : Option Byte) (scale : Byte) : List Host.Cell :=
  mput (match fmt with | some f => mput m (fmtKey k) f | none => m) (scaleKey k) scale

/-- A descriptor written to a route, posted: the format stays where none is given. Host memory holds no descriptor (12 R237). -/
def State.postDesc (s : State) (r : Route) (e : PageEntry) (va : Nat) (fmt : Option Byte) (scale : Byte) : State :=
  let s := s.charge e
  match r with
  | .here pa => ({ s with mem := setDesc s.mem pa fmt scale }.mend e.ctx pa 1 false).patchDesc (dieOf s.curCore) e va fmt scale
  | .host .. => s
  | .chip c pa => (s.request s.curCore s.curSlot e.ctx c pa (.desc fmt scale)).patchDesc (dieOf s.curCore) e va fmt scale

/-- Write the descriptor of the block at a checked address; it counts as a write to every word of the block (07 R123,
R129, 10 R203, 21 R350). Its answer is waited for by descsDone. -/
def State.descLoc (s : State) (addr : Word) (fmt : Option Byte) (scale : Byte) : Loc → Run
  | .buf _ b g off =>
    if s.strikes b g off 64 then .error (.trap cWatch addr)
    else
      (s.access none fun s =>
        let t := { s with mem := setDesc s.mem (bufKey b g off) fmt scale }
        (if b = 0 then t.fire g off 64 (some (s.curCore, s.curSlot)) else t, .done)).map fun x => x.1
  | .glob r e va => (s.access none fun s => (s.postDesc r e va fmt scale, .done)).map fun x => x.1
  | .sys _ => .error (.trap cSpace addr)

/-- The slot stays parked until the writes of descriptors that it has sent through X or G are answered (07 R129). -/
def State.descsDone (s : State) (ls : List Loc) : Run :=
  let far := ls.any fun l => match l with
    | .buf win _ _ _ => win
    | .glob .. => true
    | .sys _ => false
  match s.access (slowMem far) fun s => (s, .done) with
  | .error e => .error e
  | .ok (t, _) =>
    if far && t.remote.any fun r => r.core == t.curCore && r.slot == t.curSlot then .error (t.hold .mem .none) else .ok t

def State.descRead (s : State) (a : Word) : Except Stop (State × Block) := do
  let (t, l) ← s.locate a 64 64 .read tagDescRead false false
  t.blockLoc l

/-- dget (07 R130). -/
def dgetRun (s : State) (sp : Spec) (i : Int) : Run := do
  let (t, a) ← s.address sp i 64
  let (u, b) ← t.descRead a
  .ok (u.setAcc (BitVec.ofNat 64 (b.scale.toNat * 256 + b.fmt.toNat)))

/-- dset (07 R131): the address is checked first, then the code; through X or G the slot waits for the answer (07 R129). -/
def dsetRun (s : State) (sp : Spec) (i : Int) : Run := do
  let (t, a) ← s.address sp i 64
  let (t, l) ← t.locate a 64 64 .write tagDescWrite false false
  let f : Byte := BitVec.ofNat 8 (t.acc.toNat % 256)
  let sc : Byte := BitVec.ofNat 8 (t.acc.toNat / 256 % 256)
  if fmtReserved f.toNat then .error (.trap cFormat a)
  else do
    let u ← t.descLoc a (some f) sc l
    u.descsDone [l]

/-- dchk (07 R132). -/
def dchkRun (s : State) (sp : Spec) (i : Int) : Run := do
  let (t, a) ← s.address sp i 64
  let (u, b) ← t.descRead a
  let z := b.fmt.toNat == t.acc.toNat % 256 && b.scale != 255
  let f := setBit (setBit u.flags 0 z) 1 (b.scale == 255)
  .ok (u.setFlags (setBit (setBit f 2 (fmtReserved b.fmt.toNat)) 3 false))

/-- fset (07 R133). -/
def fsetRun (s : State) (sp : Spec) (i : Int) : Run := do
  let (t, x) ← s.source sp i 8
  t.setVf x

/-- Block j of a block operand: 64 j above a memory operand's address (07 R135). -/
def Ref.nth (r : Ref) (j : Nat) : Ref :=
  match r with
  | .mem a => .mem (runAddr a j)
  | x => x

def Ref.isPort : Ref → Bool
  | .port _ => true
  | _ => false

/-- A source block of a conversion is numeric; the accumulator is a binary32 block (07 R120, R135). A poisoned block is no
exception: DEDUCED, the format codes are checked before the scale counts (07 R120, R122; log 94). -/
def checkConv : SrcCheck := fun _ done x =>
  match fmtOf x.block.fmt.toNat with
  | none => .error (.trap cFormat x.addr)
  | some f =>
    match done with
    | y :: _ => if f.width = widthOf y.block.fmt.toNat then .ok () else .error (.trap cFormat x.addr)
    | [] => .ok ()

/-- An integer format (07 R117). -/
def fmtInt (c : Nat) : Bool := c / 64 == 2 && (fmtOf c).isSome

def checkInt : SrcCheck := fun s done x =>
  if fmtInt x.block.fmt.toNat then checkConv s done x else .error (.trap cFormat x.addr)

/-- The rest of the sources of a conversion, after block 0 (07 R135). -/
def restRefs (r : Ref) (k : Nat) : List Ref := (List.range (k - 1)).map fun j => r.nth (j + 1)

/-- The real values of a source block (07 R121). -/
def blockVals (b : Block) : List Num :=
  match fmtOf b.fmt.toNat with
  | some f => blockNums f b
  | none => []

/-- Cut a list into n runs of k. -/
def chunks (k : Nat) : Nat → List α → List (List α)
  | 0, _ => []
  | n + 1, l => l.take k :: chunks k n (l.drop k)

/-- Write consecutive destination blocks (07 R135). -/
def State.blocksOut (s : State) (d : Ref) : Nat → List Block → Run
  | _, [] => .ok s
  | j, b :: bs => do
    let t ← s.laneOut (d.nth j) b
    t.blocksOut d (j + 1) bs

/-- The counts of source and destination blocks for widths ws and wd (07 R135). -/
def srcCount (ws wd : Nat) : Nat := if wd ≤ ws then ws / wd else 1

def dstCount (ws wd : Nat) : Nat := if wd ≤ ws then 1 else wd / ws

/-- 4 cycles, and 2 for each block beyond the first (07 R142). -/
def convDelay (ws wd : Nat) : Nat := 4 + 2 * (max (srcCount ws wd) (dstCount ws wd) - 1)

/-- The conversion of one destination block: its block and whether E is set. -/
abbrev BlockConv := Fmt → Byte → BitVec 19 → List Num → Block × Bool

/-- A conversion with its operands evaluated: S1 in k blocks, an optional S2, then D (07 R134, R135). The values of all lanes and
the destination lanes' zero points go to conv. A fault of vf.fmt comes after S1's first block and before the other operands:
DEDUCED (log 15). -/
def convRun (t : State) (short : Bool) (chk : SrcCheck) (needInt : Bool) (s1 : Ref) (s2 : Option Ref) (d : Ref)
    (chk2 : State → Nat → Src → Except Stop Unit) (conv : Option Block → Fmt → Byte → BitVec 19 → List Src → Nat → List (Block × Bool)) :
    Except Stop (State × Nat) := do
  let t ← t.needPorts (blockUses (s1 :: s2.toList) d)
  let t ← match short, d with
    | true, .mem a => t.laneDest a
    | _, _ => .ok t
  let (u, x0) ← t.readSrcs chk [] [s1]
  let f ← u.vfNum
  let _ ← if needInt && f.kind != .integer then Except.error (Stop.trap cFormat 0) else .ok ()
  let ws := widthOf ((x0.map fun x => x.block.fmt.toNat).headD 0)
  let n := dstCount ws f.width
  let (v, xs) ← u.readSrcs chk x0 (restRefs s1 (srcCount ws f.width))
  let (w, z) ← match s2 with
    | some r => do
      let (w, y) ← v.laneSource r
      chk2 w ws y
      .ok (w, some y)
    | none => .ok (v, none)
  if 1 < n && d.isPort then .error (.trap cFormat 0)
  else
    let bad := anyPoison (xs ++ z.toList)
    let bs :=
      if bad then List.replicate n (poisonBlock w.vfCode, true)
      else conv (z.map fun y => y.block) f w.vfCode w.cur.vf xs n
    let r ← (w.raiseE (bs.any fun b => b.2)).blocksOut d 0 (bs.map fun b => b.1)
    .ok (r, convDelay ws f.width)

/-- vcvt: each destination block takes its lanes in order (07 R136). -/
def convPlain (_ : Option Block) (f : Fmt) (code : Byte) (vf : BitVec 19) (xs : List Src) (n : Nat) : List (Block × Bool) :=
  (chunks (lanesOf f.width) n (xs.flatMap fun x => blockVals x.block)).map (convertBlock f code vf)

/-- The integer value of element i of a block of an integer format. -/
def intAt (b : Block) (i : Nat) : Int :=
  match fmtOf b.fmt.toNat with
  | some f =>
    match f.read (elemAt b.data f.width i) with
    | .fin n m _ => if n then -(m : Int) else m
    | _ => 0
  | none => 0

/-- The range of an integer format (07 R117). -/
def Fmt.intLo (f : Fmt) : Int := if f.uns then 0 else -(2 ^ (f.width - 1))

def Fmt.intHi (f : Fmt) : Int := if f.uns then 2 ^ f.width - 1 else 2 ^ (f.width - 1) - 1

def Fmt.intBits (f : Fmt) (v : Int) : Nat := (v % (2 ^ f.width : Int)).toNat

/-- One element of vqnt: rounded, then the zero point added, then held to the range (07 R138). NaN poisons; an infinity
saturates before the zero point is added. -/
def quantOne (f : Fmt) (mode s : Nat) (x : Num) (z : Int) : Conv :=
  let q : Option (Int × Bool) := match x with
    | .nan => none
    | .inf neg => some (if neg then f.intLo else f.intHi, true)
    | .fin neg m e =>
      let n := roundTo mode neg m (e + 127 - s) 0
      some (if neg then -(n : Int) else n, false)
  match q with
  | none => { bits := 0, e := true, poison := true }
  | some (v, e) =>
    let r := v + z
    let c := max f.intLo (min f.intHi r)
    { bits := f.intBits c, e := e || c != r, poison := false }

/-- One destination block of vqnt, its lanes with their zero points (07 R138). -/
def quantBlock (f : Fmt) (code : Byte) (vf : BitVec 19) (xs : List (Num × Int)) : Block × Bool :=
  let s := if vfAuto vf then f.autoScale (xs.map fun x => x.1) else vfScale vf
  if s = 255 then (poisonBlock code, true)
  else
    let cs := xs.map fun x => quantOne f (vfMode vf) s x.1 x.2
    if cs.any fun c => c.poison then (poisonBlock code, true)
    else ({ data := packElems f.width (cs.map fun c => c.bits), fmt := code, scale := BitVec.ofNat 8 s },
          cs.any fun c => c.e)

def convQuant (z : Option Block) (f : Fmt) (code : Byte) (vf : BitVec 19) (xs : List Src) (n : Nat) : List (Block × Bool) :=
  let zs := match z with
    | some b => (List.range (lanesOf f.width)).map (intAt b)
    | none => []
  (chunks (lanesOf f.width) n (xs.flatMap fun x => blockVals x.block)).map fun l => quantBlock f code vf (l.zip zs)

/-- The values of a block with its zero points taken off: (q − z) × 2^(s − 127), exact (07 R139). -/
def deqVals (z : Option Block) (b : Block) : List Num :=
  (List.range (lanesOf (widthOf b.fmt.toNat))).map fun i =>
    let v := intAt b i - (match z with | some y => intAt y i | none => 0)
    Num.under (.fin (decide (v < 0)) v.natAbs 0) b.scale.toNat

def convDeq (z : Option Block) (f : Fmt) (code : Byte) (vf : BitVec 19) (xs : List Src) (n : Nat) : List (Block × Bool) :=
  (chunks (lanesOf f.width) n (xs.flatMap fun x => deqVals z x.block)).map (convertBlock f code vf)

/-- vqnt's S2 is a block of the destination's integer format; vdeq's, of an integer format of S1's width (07 R138, R139). Any other
S2, a poisoned one too, is a format mismatch at S2: DEDUCED (log 94). -/
def checkZeroQ (s : State) (_ : Nat) (x : Src) : Except Stop Unit :=
  if x.block.fmt = s.vfCode then .ok () else .error (.trap cFormat x.addr)

def checkZeroD (_ : State) (ws : Nat) (x : Src) : Except Stop Unit :=
  if fmtInt x.block.fmt.toNat && widthOf x.block.fmt.toNat == ws then .ok () else .error (.trap cFormat x.addr)

def checkFree (_ : State) (_ : Nat) (_ : Src) : Except Stop Unit := .ok ()

def vcvtRun (s : State) (d a : Spec) : Except Stop (State × Nat) :=
  let x := s.operand a 0 64
  let z := x.1.operand d 0 64
  convRun z.1 false checkConv false x.2 none z.2 checkFree convPlain

def vqntRun (s : State) (d a b : Spec) : Except Stop (State × Nat) :=
  let x := s.operand a 0 64
  let y := x.1.operand b 0 64
  let z := y.1.operand d 0 64
  convRun z.1 false checkConv true x.2 (some y.2) z.2 checkZeroQ convQuant

def vdeqRun (s : State) (d a b : Spec) : Except Stop (State × Nat) :=
  let x := s.operand a 0 64
  let y := x.1.operand b 0 64
  let z := y.1.operand d 0 64
  convRun z.1 false checkInt false x.2 (some y.2) z.2 checkZeroD convDeq

/-- vcvt, short: d, then s (08 R163). -/
def vcvtShortRun (s : State) (d a : ShortSpec) : Except Stop (State × Nat) :=
  let z := s.operand (ShortSpec.long d) 0 64
  let x := z.1.operand (ShortSpec.long a) 0 64
  convRun x.1 true checkConv false x.2 none z.2 checkFree convPlain

/-- vscal: the block in its own format under a new scale (07 R137). -/
def calcScal : LaneCalc := fun s xs =>
  match xs with
  | x :: _ =>
    if anyPoison xs then (s.raiseE true, poisonBlock x.block.fmt)
    else
      match fmtOf x.block.fmt.toNat with
      | some f =>
        let r := convertBlock f x.block.fmt s.cur.vf (blockNums f x.block)
        (s.raiseE r.2, r.1)
      | none => (s, x.block)
  | [] => (s, poisonBlock 0)

/-- The descriptors of n blocks from an address (07 R140). -/
def State.descsFrom (s : State) (a : Word) (j : Nat) : Nat → Except Stop (State × List Byte)
  | 0 => .ok (s, [])
  | n + 1 => do
    let (t, b) ← s.descRead (runAddr a j)
    let (u, l) ← t.descsFrom a (j + 1) n
    .ok (u, b.fmt :: b.scale :: l)

/-- vpack (07 R140). -/
def vpackRun (s : State) (d a : Spec) : Run := do
  let x := s.operand a 0 64
  let z := x.1.operand d 0 64
  match x.2 with
  | .mem base => do
    let q ← z.1.needPorts (blockUses [] z.2)
    let (t, l) ← q.descsFrom base 0 32
    t.laneOut z.2 { data := l, fmt := 0, scale := 127 }
  | _ => .error (.trap cIllegal 0)

/-- A check of several blocks that has to wait has accepted none of them: all are checked anew when the stall ends (07 R141; log 98). -/
def State.afresh (s : State) : Except Stop α → Except Stop α
  | .error (.wait t r res .poll) => .error (.wait { t with trail := s.trail } r res .poll)
  | x => x

/-- Check the descriptor writes of n blocks, in ascending order (07 R141). -/
def State.descTargets (s : State) (a : Word) (j : Nat) : Nat → Except Stop (State × List (Nat × Loc))
  | 0 => .ok (s, [])
  | n + 1 => do
    let (t, l) ← s.locate (runAddr a j) 64 64 .write tagDescWrite false false
    let (t, r) ← t.descTargets a (j + 1) n
    .ok (t, (j, l) :: r)

/-- Write the descriptors on the verdicts already given (07 R141): a poisoned source poisons and keeps the formats. -/
def State.descsOut (s : State) (a : Word) (d : List Byte) (poison : Bool) : List (Nat × Loc) → Run
  | [] => .ok s
  | (j, l) :: r => do
    let t ← if poison then s.descLoc (runAddr a j) none 255 l
      else s.descLoc (runAddr a j) (some (d.getD (2 * j) 0)) (d.getD (2 * j + 1) 0) l
    t.descsOut a d poison r

/-- The first of n format bytes that is a reserved code. -/
def reservedIn (d : List Byte) : Option Nat := (List.range 32).find? fun i => fmtReserved (d.getD (2 * i) 0).toNat

/-- vunpk (07 R141). DESIGN CHOICE (log 106): a reserved code shows before a destination block that fails its checks. -/
def vunpkRun (s : State) (d a : Spec) : Run := do
  let x := s.operand a 0 64
  let z := x.1.operand d 0 64
  match z.2 with
  | .mem base => do
    let q ← z.1.needPorts (x.2.uses false 8)
    let (t, v) ← q.laneSource x.2
    let poison := v.block.scale == 255
    if !poison && fmtReserved v.block.fmt.toNat then .error (.trap cFormat v.addr)
    else
    match (if poison then none else reservedIn v.block.data) with
    | some i => .error (.trap cFormat (runAddr base i))
    | none => do
      let (t, ls) ← t.afresh (t.descTargets base 0 32)
      match ls.find? fun p => t.strikesLoc p.2 with
      | some p => .error (.trap cWatch (runAddr base p.1))
      | none => do
        let u ← (t.raiseE poison).descsOut base v.block.data poison ls
        u.descsDone (ls.map fun p => p.2)
  | _ => .error (.trap cIllegal 0)

/-- DGET (07 R130). -/
def execDget (sp : Spec) (i : BitVec 13) (s : State) : Host.Outcome State Fault Refusal := retire s 4 4 (dgetRun s sp i.toInt)

/-- DSET (07 R131). -/
def execDset (sp : Spec) (i : BitVec 13) (s : State) : Host.Outcome State Fault Refusal := retire s 4 4 (dsetRun s sp i.toInt)

/-- DCHK (07 R132). -/
def execDchk (sp : Spec) (i : BitVec 13) (s : State) : Host.Outcome State Fault Refusal := retire s 4 4 (dchkRun s sp i.toInt)

/-- FSET (07 R133). -/
def execFset (sp : Spec) (i : BitVec 13) (s : State) : Host.Outcome State Fault Refusal := retire s 4 4 (fsetRun s sp i.toInt)

/-- FGET (07 R133). -/
def execFget (s : State) : Host.Outcome State Fault Refusal := retire s 4 4 (.ok (s.setAcc (s.cur.vf.zeroExtend 64)))

/-- VCVT (07 R136). -/
def execVcvt (d a : Spec) (s : State) : Host.Outcome State Fault Refusal := retireWith s 4 (vcvtRun s d a)

/-- VSCAL (07 R137). -/
def execVscal (d a : Spec) (s : State) : Host.Outcome State Fault Refusal := lane2 checkConv calcScal 4 d a s

/-- VQNT (07 R138). -/
def execVqnt (d a b : Spec) (s : State) : Host.Outcome State Fault Refusal := retireWith s 4 (vqntRun s d a b)

/-- VDEQ (07 R139). -/
def execVdeq (d a b : Spec) (s : State) : Host.Outcome State Fault Refusal := retireWith s 4 (vdeqRun s d a b)

/-- VPACK (07 R140). -/
def execVpack (d a : Spec) (s : State) : Host.Outcome State Fault Refusal := retire s 4 20 (vpackRun s d a)

/-- VUNPK (07 R141). -/
def execVunpk (d a : Spec) (s : State) : Host.Outcome State Fault Refusal := retire s 4 20 (vunpkRun s d a)

/-- VCVT, short (08 R163). -/
def execVcvtShort (d a : ShortSpec) (s : State) : Host.Outcome State Fault Refusal := retireWith s 2 (vcvtShortRun s d a)

end Sys2Proof.Machine
end

