-- ==== Sys2Proof/Machine/Launch.lean ====
section
/-!
DEFINITION. Launch records, partition and identity of cores (05 R72 to R76), and the retirement of a gang (05 R79).
-/
namespace Sys2Proof.Machine

/-- n bytes of a record at an offset, as a number. -/
def field (r : List Byte) (off n : Nat) : Nat := leNat ((r.drop off).take n)

/-- The same, signed. -/
def fieldS (r : List Byte) (off n : Nat) : Int :=
  let v := field r off n
  if 2 ^ (8 * n - 1) ≤ v then (v : Int) - 2 ^ (8 * n) else v

/-- A tensor record (05 R73). -/
structure Tensor where
  base   : Nat
  fmt    : Nat
  rank   : Nat
  gmask  : Nat
  kmask  : Nat
  ext    : List Nat
  stride : List Int
  tile   : List Nat
  deriving DecidableEq, Repr

def four : List Nat := [0, 1, 2, 3]

/-- Tensor record t of a launch record (05 R72, R73). -/
def tensorOf (r : List Byte) (t : Nat) : Tensor :=
  let b := (r.drop (0x160 + 128 * t)).take 128
  { base := field b 0 8, fmt := field b 8 1, rank := field b 9 1, gmask := field b 10 1, kmask := field b 11 1
    ext := four.map fun d => field b (0x10 + 8 * d) 8
    stride := four.map fun d => fieldS b (0x30 + 8 * d) 8
    tile := four.map fun d => field b (0x50 + 8 * d) 8 }

def ceilDiv (a b : Nat) : Nat := (a + b - 1) / b

/-- The split dimensions of a mask, ascending. -/
def dimsOf (mask : Nat) : List Nat := four.filter fun d => mask / 2 ^ d % 2 = 1

/-- The coordinate of a core in dimension d, and the pieces of the dimension (05 R74). -/
def Tensor.kc (x : Tensor) (core d : Nat) : Nat :=
  match dimsOf x.kmask with
  | [k] => if d = k then core else 0
  | [k, l] => if d = k then core % 2 else if d = l then core / 2 else 0
  | _ => 0

def Tensor.pieces (x : Tensor) (d : Nat) : Nat :=
  match dimsOf x.kmask with
  | [k] => if d = k then 4 else 1
  | [k, l] => if d = k ∨ d = l then 2 else 1
  | _ => 1

/-- Pieces across gangs of a dimension (05 R74). -/
def Tensor.span (x : Tensor) (d : Nat) : Nat := ceilDiv (x.ext.getD d 0) (x.tile.getD d 0 * x.pieces d)

/-- The gang's coordinate in dimension d; the lowest dimension varies fastest (05 R74). -/
def gangCoord (x : Tensor) : List Nat → Nat → Nat → Nat
  | [], _, _ => 0
  | e :: es, q, d => if e = d then q % x.span d else gangCoord x es (q / x.span e) d

/-- DESIGN CHOICE (log 99): a record other than record 0 whose partition fields 05 R75 would refuse in record 0 (a tile of 0, a rank above
4, three split dimensions of a core mask) counts by this arithmetic, in which a division by 0 gives 0. -/
def Tensor.gc (x : Tensor) (gang d : Nat) : Nat :=
  gangCoord x ((dimsOf x.gmask).filter fun e => e < x.rank) gang d

def Tensor.split (x : Tensor) (d : Nat) : Bool := x.gmask / 2 ^ d % 2 == 1 || x.kmask / 2 ^ d % 2 == 1

/-- Origin and extent of a core's sub-tile in dimension d (05 R74). -/
def Tensor.org (x : Tensor) (gang core d : Nat) : Nat :=
  if x.rank ≤ d then 0
  else if x.split d then x.gc gang d * x.tile.getD d 0 * x.pieces d + x.kc core d * x.tile.getD d 0
  else 0

def Tensor.extent (x : Tensor) (gang core d : Nat) : Nat :=
  if x.rank ≤ d then 1
  else if x.split d then min (x.tile.getD d 0) (x.ext.getD d 0 - x.org gang core d)
  else x.ext.getD d 0

/-- Identity register n of slot k of core g (05 R76). -/
def State.identity (s : State) (g k n : Nat) : Nat :=
  let x := s.gangOf g
  let l := s.launchOf g
  let t := tensorOf l.record 0
  if n = 0 then k
  else if n = 1 then g % 4
  else if n = 2 then x.index
  else if n = 3 then l.ngang
  else if n = 4 then dieOf g
  else if n = 5 then s.chip
  else if n = 6 then clusterOf g
  else if n = 7 then x.index * 4 + g % 4
  else if n < 12 then t.extent x.index (g % 4) (n - 8)
  else if n < 16 then t.org x.index (g % 4) (n - 12)
  else if n = 16 then 0x3F000
  else if n = 17 then l.ident.toNat
  else l.ctx

/-- A launch node is refused when any of these holds (05 R75). -/
def launchBad (r : List Byte) : Bool :=
  let t := tensorOf r 0
  let ngang := field r 8 4
  let entry := field r 0 8
  let dims := dimsOf t.gmask
  4 < t.rank || 2 ^ t.rank ≤ t.gmask || 2 ^ t.rank ≤ t.kmask || 2 < (dimsOf t.kmask).length ||
  (four.any fun d => t.split d && t.tile.getD d 0 == 0) ||
  (t.gmask != 0 && ngang != (dims.map t.span).foldl (· * ·) 1) ||
  ngang == 0 || entry % 2 == 1 || 0x34000 ≤ entry

/-- A gang retires in the cycle in which its fourth core is done (05 R79): the cluster is released, no lease is freed. -/
def State.retireGang (s : State) (c : Nat) : State :=
  match (s.cluster c).gang with
  | none => s
  | some n =>
    let x := s.gang n
    let s := ((s.setGang n { x with state := .retired }).freeCluster c).holdOver n
    (s.gangOver x.launch false).later (.gangPlace x.die)

/-- Core g is done (05 R79). -/
def State.coreDone (s : State) (g : Nat) : State :=
  let s := s.setCore g { s.core g with done := true }
  if (coresOf (clusterOf g)).all fun h => (s.core h).done then s.retireGang (clusterOf g) else s

end Sys2Proof.Machine
end

