-- ==== Sys2Proof/Machine/Engine.lean ====
section
/-!
DEFINITION. Accesses that engines make for a context (09 R166, R170, R177, R183): each is judged once, at the station of the
engine's die, with the context's unprivileged rights. An engine that waits keeps a log of what its accesses have come to.
-/
namespace Sys2Proof.Machine

/-- The log of an engine's step: the part that this execution has taken or made, and the rest that it has still to take. -/
structure Journal where
  past : List Reply
  rest : List Reply
  deriving DecidableEq, Repr

def Journal.start (log : List Reply) : Journal := { past := [], rest := log }

def Journal.note (j : Journal) (r : Reply) : Journal := { past := j.past ++ [r], rest := j.rest.drop 1 }

def Journal.all (j : Journal) : List Reply := j.past ++ j.rest

/-- The log with its next entry replaced, or with entries added where it has none. -/
def Journal.put (j : Journal) (rs : List Reply) : List Reply := j.past ++ rs ++ j.rest.drop 1

/-- What an engine's access comes to: an answer, or a wait with the log so far. -/
inductive Got (α : Type) where
  | ok (t : State) (j : Journal) (v : α)
  | wait (t : State) (log : List Reply)

/-- One access of an engine: its index or address, the cause of a refusal and the page that it counts at (09 R183), what was got. -/
structure Access (α : Type) where
  idx   : Nat
  cause : Nat
  page  : Nat × Nat
  got   : Option α

def Access.yes (idx : Nat) (v : α) : Access α := { idx := idx, cause := 0, page := (0, 0), got := some v }

def Access.no (idx cause : Nat) : Access α := { idx := idx, cause := cause, page := (0, 0), got := none }

/-- Count the access of a counted page where the caller says so (09 R172: a copy counts by sectors). -/
def State.chargeIf (s : State) (count : Bool) (e : PageEntry) : State := if count then s.charge e else s

/-- A refusal, noted. -/
def State.refused (s : State) (j : Journal) (idx cause : Nat) : Got (Access α) :=
  .ok s (j.note (.fault cause 0)) (.no idx cause)

/-- A block that has come, noted. -/
def State.gotBlock (s : State) (j : Journal) (idx : Nat) (b : Block) : Got (Access Block) :=
  .ok s (j.note (.block b)) (.yes idx b)

/-- The line copy that serves a read through an entry in mode 3. -/
def State.copyOf (s : State) (die : Nat) (e : PageEntry) (va : Nat) : Option Block :=
  if pteMode e.pte = 3 then s.cachedBlock die e.ctx va else none

/-- The reply to a line that an engine has asked a peer for: its place and the mark that it was asked for stand in the log. -/
def State.awaited (s : State) (j : Journal) (owner c line idx : Nat) : Got (Access Block) :=
  match s.fetched.find? fun f => f.owner == owner && f.chip == c && f.pa == line with
  | some f => ({ s with fetched := s.fetched.filter fun x => x != f }).gotBlock { j with rest := j.rest.drop 1 } idx f.rep.block
  | none => .wait s j.all

/-- Read the block behind an accepted route (09 R169, R191; 16 R292). A block of another chip is asked for once no write to it is on its
way from here: what was written before, by the engine or by the slot that gave it the work, is seen (07 R148; 09 R181, R186). Host
memory holds no descriptor: its blocks take the format hf and scale 127 (12 R237). -/
def State.engineTake (s : State) (j : Journal) (owner die idx va : Nat) (count : Bool) (hf : Byte) (r : Route) (e : PageEntry) :
    Got (Access Block) :=
  let t := s.chargeIf count e
  match r with
  | .here pa =>
    let x := t.lineRead die e va fun t => t.readHere e.ctx pa
    x.1.gotBlock j idx x.2
  | .host l a =>
    let x := t.lineRead die e va fun t => (t, t.hostBlock l a)
    x.1.gotBlock j idx { x.2 with fmt := hf, scale := 127 }
  | .chip c pa =>
    if s.lineOut c (pa / 64 * 64) then .wait s (j.put [.place (.glob r e va) false])
    else match s.copyOf die e va with
      | some b => t.gotBlock j idx b
      | none =>
        let fill := if pteMode e.pte = 3 then some (die, va / 64 * 64) else none
        .wait (t.requestFill fill owner 0 e.ctx c (pa / 64 * 64) (.read 64)) (j.put [.place (.glob r e va) false, .done])

/-- Read the block that holds a virtual address, for an engine (09 R170, 16 R313). -/
def State.engineRead (s : State) (j : Journal) (owner ctx die idx va : Nat) (count : Bool) (hf : Byte) : Got (Access Block) :=
  match j.rest with
  | .fault c _ :: _ => s.refused j idx c
  | .block b :: _ => s.gotBlock j idx b
  | .place (.glob (.chip c pa) _ _) false :: .done :: _ => s.awaited j owner c (pa / 64 * 64) idx
  | .place (.glob r e va) false :: _ => s.engineTake j owner die idx va count hf r e
  | .touch key tile e va :: _ =>
    (match s.tileRoute key tile e va with
     | some (some r) => s.engineTake j owner die idx va count hf r e
     | some none => s.refused j idx 3
     | none => .wait s j.all)
  | _ =>
    match s.verdict ctx va false .read with
    | .refuse c => s.refused j idx c
    | .stall => .wait s j.all
    | .pull key tile => (match s.entry ctx va with
      | some e => .wait (s.startPull key tile) (j.put [.touch key tile e va])
      | none => s.refused j idx 1)
    | .go r e => s.engineTake j owner die idx va count hf r e

/-- Judge a write for an engine: the route and the entry (09 R170, R173). DESIGN CHOICE (log 98): one that WB or a pin stalls is judged
anew when the stall ends. -/
def State.engineJudge (s : State) (j : Journal) (ctx idx va : Nat) : Got (Access (Route × PageEntry)) :=
  match j.rest with
  | .fault c _ :: _ => s.refused j idx c
  | .place (.glob r e va) w :: _ => .ok s (j.note (.place (.glob r e va) w)) (.yes idx (r, e))
  | _ =>
    match s.verdict ctx va false .write with
    | .refuse c => s.refused j idx c
    | .stall => .wait (s.freezeAt ctx va) j.all
    | .pull _ _ => s.refused j idx 2
    | .go r e => .ok s (j.note (.place (.glob r e va) true)) (.yes idx (r, e))

/-- Whether an owner still has a write on its way to the block behind a route: a second one could overtake it (16 R292). -/
def State.engineWaits (s : State) (owner : Nat) : Route → Bool
  | .chip c pa => s.remote.any fun r => r.core == owner && r.chip == c && opWrites r.op && r.pa / 64 * 64 == pa / 64 * 64
  | _ => false

/-- Write a whole block with its descriptor to a judged route (09 R192, 12 R237). -/
def State.enginePut (s : State) (owner die va : Nat) (r : Route × PageEntry) (b : Block) : State :=
  match r.1 with
  | .here pa => ({ s with mem := putBlock s.mem (pa / 64 * 64) b }.mend r.2.ctx (pa / 64 * 64) 64 true).putCache die r.2 va b
  | .host l a => (s.writeBytes (hostKey l (a / 64 * 64)) b.data).putCache die r.2 va { b with fmt := 0, scale := 127 }
  | .chip c pa => (s.request owner 0 r.2.ctx c (pa / 64 * 64) (.writeBlock b)).putCache die r.2 va b

/-- Write data bytes within one block to a judged route. -/
def State.engineBytes (s : State) (owner die va : Nat) (r : Route × PageEntry) (bs : List Byte) : State :=
  let t := s.writeRoute owner 0 r.2.ctx r.1 bs
  if pteMode r.2.pte = 3 then t.patchCache die r.2.ctx va bs else t

end Sys2Proof.Machine
end

