-- ==== Sys2Proof/Machine/Tile.lean ====
section
/-!
DEFINITION. The tile file and the TILE class (13 R240 to R246), and the rules for tiles in use (13 R259).
-/
namespace Sys2Proof.Machine

/-- A shape word: format, rows, columns (13 R240). -/
def shapeFmt (w : BitVec 23) : Nat := w.toNat % 256
def shapeRows (w : BitVec 23) : Nat := w.toNat / 256 % 128
def shapeCols (w : BitVec 23) : Nat := w.toNat / 32768

/-- A valid shape (13 R241). -/
def shapeValid (w : BitVec 23) : Bool :=
  (fmtOf (shapeFmt w)).isSome && shapeFmt w != 0xC3 && decide (1 ≤ shapeRows w ∧ shapeRows w ≤ 64) &&
    decide (1 ≤ shapeCols w ∧ shapeCols w ≤ lanesOf (widthOf (shapeFmt w)))

def Core.shapeOf (c : Core) (t : Nat) : BitVec 23 := tget 0 c.shape t

def State.shapeOf (s : State) (t : Nat) : BitVec 23 := s.curCoreOf.shapeOf t

def State.setShape (s : State) (t : Nat) (w : BitVec 23) : State :=
  s.setCurCore { s.curCoreOf with shape := tput s.curCoreOf.shape t w }

/-- The stage partner of a tile (13 R256). -/
def partner (t : Nat) : Nat := t ^^^ 1

/-- Tile t of a core is being written, or accumulator tile t − 8 is in use (13 R259). -/
def Core.writing (c : Core) (t : Nat) : Bool :=
  (c.uses.any fun u => u.tile == t && u.write && c.cycle < u.till) ||
  (match c.array with | some a => t == 8 + a.c | none => false) ||
  (match c.damask with
   | some d => t == 8 + d.c || t == d.x || t == partner d.x || t == d.y || t == partner d.y
   | none => false)

/-- Tile t of a core is in use (13 R259). -/
def Core.inUse (c : Core) (t : Nat) : Bool :=
  c.writing t || (c.uses.any fun u => u.tile == t && c.cycle < u.till) ||
  (match c.array with | some a => t == a.x || t == a.y | none => false)

/-- The slot number under which copies use accumulator tiles. -/
def copySlot : Nat := 11

/-- Accumulator tile t of a core is in use by other than copies: they do not wait for one another (13 R248). -/
def Core.busyFor (c : Core) (t : Nat) : Bool := { c with uses := c.uses.filter fun u => u.slot != copySlot }.inUse t

/-- The slot that runs is parked for the array or a tile. -/
def State.waitsMtx (s : State) : Bool := s.cur.park.any fun p => p.reason == .mtx

/-- What stands against the use of a tile (13 R259): it is in use; or the slot waits, and one that parked before it waits for the
tile, of which one of the two is to write it. An instruction that finds the tile not in use does not wait for those that are parked. -/
def State.tileHeld (s : State) (t : Nat) (write : Bool) : Bool :=
  if write then s.curCoreOf.inUse t || s.waitsMtx && (s.behind (.use t) || s.behind (.use (16 + t)))
  else s.curCoreOf.writing t || s.waitsMtx && s.behind (.use (16 + t))

/-- The array is busy, or one that parked before the slot that waits is to have it (13 R255). -/
def State.arrayHeld (s : State) : Bool :=
  s.curCoreOf.array.isSome || s.curCoreOf.damask.isSome || s.waitsMtx && s.behind .array

/-- What an instruction that takes the array or tiles has to wait for (13 R255, R259). -/
def State.heldOf (s : State) (array : Bool) (reads writes : List Nat) : List Resource :=
  (if array && s.arrayHeld then [Resource.array] else []) ++
    ((writes.filter fun n => s.tileHeld n true).map fun n => Resource.use (16 + n)) ++
    (reads.filter fun n => s.tileHeld n false).map fun n => Resource.use n

/-- Take tiles to read and tiles to write, and the array if an instruction uses it, or park until all are free; those that
wait for the same are served in the order in which they parked (13 R255, R259). -/
def State.takeTiles (s : State) (array : Bool) (reads writes : List Nat) : Run :=
  match s.heldOf array reads writes with
  | [] => .ok s
  | r :: rs => .error ({ s with claims := r :: rs }.hold .mtx r)

def State.tilesFree (s : State) (reads writes : List Nat) : Run := s.takeTiles false reads writes

/-- Note a transfer that uses a tile until a cycle. -/
def State.useTile (s : State) (t : Nat) (write : Bool) (cycles : Nat) : State :=
  let c := s.curCoreOf
  s.setCurCore { c with uses := { slot := s.curSlot, tile := t, write := write, till := c.cycle + cycles } :: c.uses }

/-- The end of an instruction that leaves its slot parked for the cycles of its transfer (13 R246, R262). -/
def retireMoving (s : State) (r : Except Stop (State × Nat)) : Host.Outcome State Fault Refusal :=
  match r with
  | .ok (t, n) => .next (t.completeTill 4 .mtx (t.curCoreOf.cycle + max 4 n))
  | .error e => .next (s.stopped 4 e)

/-- Row r of a run of rows: pN + r × sN (13 R243). -/
def State.rowAddr (s : State) (n r : Nat) : Word := ptrAdd (s.ptr n) (r * s.stepInt n)

/-- Check n row addresses from row r on: the space, then the alignment (13 R243, R244). -/
def State.rowLocs (s : State) (k : AccKind) (ok : Nat → Bool) (addr : Nat → Word) (r : Nat) :
    Nat → Except Stop (State × List (Word × Loc))
  | 0 => .ok (s, [])
  | n + 1 => do
    let (t, l) ← s.locate (addr r) 64 64 k ok false true
    let (t, ls) ← t.rowLocs k ok addr (r + 1) n
    .ok (t, (addr r, l) :: ls)

/-- Tags of A and W, of A, of L and A, and of L, A and W (13 R243, R244, R262, R263). -/
def tagAW (t : Nat) : Bool := t == 1 || t == 2
def tagA (t : Nat) : Bool := t == 1
def tagLA (t : Nat) : Bool := t == 0 || t == 1
def tagLAW (t : Nat) : Bool := t == 0 || t == 1 || t == 2

/-- The block of a checked buffer address. -/
def State.rowBlock (s : State) : Loc → Block
  | .buf _ b g off => blockAt s.mem (bufKey b g off)
  | _ => poisonBlock 0

/-- The blocks of checked buffer addresses are read: an uncorrectable error in one is found (09 R193). -/
def State.senseRows (s : State) (ls : List Loc) : State :=
  ls.foldl (fun t l => match l with
    | .buf _ b g off => t.sense (t.ctxOf t.curCore) (bufKey b g off) 64
    | _ => t) s

/-- The first row whose descriptor has another format (13 R243). -/
def State.rowsFmt (s : State) (fmt : Nat) : List (Word × Loc) → Except Stop Unit
  | [] => .ok ()
  | (a, l) :: r => if (s.rowBlock l).fmt.toNat = fmt then s.rowsFmt fmt r else .error (.trap cFormat a)

/-- Row r of a tile and its scale (13 R240). -/
def tileRow (g t r : Nat) : Nat := tileKey g t + 64 * r

def State.rowsIn (s : State) (t r : Nat) : List (Word × Loc) → State
  | [] => s
  | (_, l) :: rest =>
    let b := s.rowBlock l
    let k := tileRow s.curCore t r
    ({ s with mem := mput (mputs s.mem k b.data) (scaleKey k) b.scale }.raiseE (b.scale == 255)).rowsIn t (r + 1) rest

/-- Load the rows of a tile from addresses, after their checks (13 R243). -/
def State.loadTile (s : State) (t : Nat) (addr : Nat → Word) : Run := do
  let w := s.shapeOf t
  if !shapeValid w then .error (.trap cFormat 0)
  else do
    let (u, ls) ← s.rowLocs .read tagAW addr 0 (shapeRows w)
    let u := u.senseRows (ls.map fun l => l.2)
    u.rowsFmt (shapeFmt w) ls
    .ok (u.rowsIn t 0 ls)

/-- pN ← pN + rows × sN (13 R243). -/
def State.postStep (s : State) (p : Bool) (n rows : Nat) : State := if p then s.stepPtr n (rows * s.stepInt n) else s

/-- Cycles to move n blocks at 128 bytes a cycle (13 R246). -/
def moveCycles (n : Nat) : Nat := ceilDiv n 2

/-- tld (13 R243). -/
def tldRun (s : State) (x n : Nat) (p : Bool) : Except Stop (State × Nat) := do
  let s ← s.tilesFree [] [x]
  let t ← s.loadTile x (s.rowAddr n)
  let rows := shapeRows (s.shapeOf x)
  let c := moveCycles rows
  .ok ((t.postStep p n rows).useTile x true c, c)

/-- Store rows of a tile (13 R244). -/
def State.rowsOut (s : State) (t fmt r : Nat) : List (Word × Loc) → Run
  | [] => .ok s
  | (a, l) :: rest => do
    let k := tileRow s.curCore t r
    let b : Block := { data := mgets s.mem k 64, fmt := BitVec.ofNat 8 fmt, scale := mget s.mem (scaleKey k) }
    let u ← s.putLoc a b false l
    u.rowsOut t fmt (r + 1) rest

/-- tst (13 R244). -/
def tstRun (s : State) (x n : Nat) (p : Bool) : Except Stop (State × Nat) := do
  let s ← s.tilesFree [x] []
  let w := s.shapeOf x
  if !shapeValid w then .error (.trap cFormat 0)
  else do
    let rows := shapeRows w
    let (t, ls) ← s.rowLocs .write tagA (s.rowAddr n) 0 rows
    let t ← t.rowsOut x (shapeFmt w) 0 ls
    let c := moveCycles rows
    .ok ((t.postStep p n rows).useTile x false c, c)

/-- tcfg (13 R245). -/
def tcfgRun (s : State) (x : Nat) : Run := do
  let s ← s.tilesFree [] [x]
  let w : BitVec 23 := s.acc.truncate 23
  if shapeValid w then .ok (s.setShape x w) else .error (.trap cFormat 0)

/-- tcfr (13 R245). -/
def tcfrRun (s : State) (x : Nat) : Run := do
  let s ← s.tilesFree [x] []
  .ok (s.setAcc ((s.shapeOf x).zeroExtend 64))

/-- The bytes and the row scales of a tile become zero and 127 (13 R240, R245). -/
def State.zeroTile (s : State) (g t : Nat) : State :=
  { s with mem := mclear (mclear s.mem (tileKey g t) 4096) (fmtKey (tileKey g t)) 128 }

/-- tzero (13 R245). -/
def tzeroRun (s : State) (x : Nat) : Run := do
  let s ← s.tilesFree [] [x]
  .ok (s.zeroTile s.curCore x)

/-- Copy n rows of tile y to tile x from row r on (13 R245). -/
def State.copyRows (s : State) (x y r : Nat) : Nat → State
  | 0 => s
  | n + 1 =>
    let k := tileRow s.curCore y r
    let d := tileRow s.curCore x r
    { s with mem := mput (mputs s.mem d (mgets s.mem k 64)) (scaleKey d) (mget s.mem (scaleKey k)) }.copyRows x y (r + 1) n

/-- tmov (13 R245). -/
def tmovRun (s : State) (x y : Nat) : Run := do
  let s ← s.tilesFree [y] [x]
  .ok (if x = y then s else ((s.copyRows x y 0 64).setShape x (s.shapeOf y)))

/-- The transfers of a slot whose last row has moved end (13 R246). -/
def Core.endUses (c : Core) (slot : Nat) : Core :=
  { c with uses := c.uses.filter fun u => !(u.slot == slot && decide (u.till ≤ c.cycle)) }

/-- A slot parked until a cycle that is reached rejoins the barrel; one whose instruction waits for an answer does not. -/
def Slot.rejoin (x : Slot) (cycle : Nat) : Slot :=
  match x.park with
  | some p => match p.wake with
    | .till c => if c ≤ cycle ∧ x.issued.isNone then { x with park := none } else x
    | _ => x
  | none => x

def State.tileDone (s : State) (g k : Nat) : State :=
  let c := s.core g
  (s.setCore g (c.endUses k)).setSlot g k ((s.slot g k).rejoin c.cycle)

/-- TLD (13 R243). -/
def execTld (x : BitVec 3) (p : Bool) (n : BitVec 3) (s : State) : Host.Outcome State Fault Refusal :=
  retireMoving s (tldRun s x.toNat n.toNat p)

/-- TST, the tile store (13 R244). -/
def execTstTile (x : BitVec 3) (p : Bool) (n : BitVec 3) (s : State) : Host.Outcome State Fault Refusal :=
  retireMoving s (tstRun s x.toNat n.toNat p)

/-- TCFG (13 R245). -/
def execTcfg (x : BitVec 3) (s : State) : Host.Outcome State Fault Refusal := retire s 4 4 (tcfgRun s x.toNat)

/-- TCFR (13 R245). -/
def execTcfr (x : BitVec 3) (s : State) : Host.Outcome State Fault Refusal := retire s 4 4 (tcfrRun s x.toNat)

/-- TZERO (13 R245). -/
def execTzero (x : BitVec 3) (s : State) : Host.Outcome State Fault Refusal := retire s 4 4 (tzeroRun s x.toNat)

/-- TMOV (13 R245, R246). -/
def execTmov (x y : BitVec 3) (s : State) : Host.Outcome State Fault Refusal := retire s 4 36 (tmovRun s x.toNat y.toNat)

/-- TILE_TRANSFER_COMPLETE: the last row has moved (13 R246). -/
def execTileTransferComplete (core slot : Nat) (s : State) : Host.Outcome State Fault Refusal :=
  if core < 1024 ∧ slot < 11 then .next (s.tileDone core slot) else .fault .noSuchUnit

end Sys2Proof.Machine
end

