-- ==== Sys2Proof/Machine/Matrix.lean ====
section
/-!
DEFINITION. Chunk steps, the MATRIX class and Damask (13 R247 to R258, R267, R268), with the steps CHUNK_STEP_COMPLETE,
DAMASK_STEP and RESIDUE_REPLAY.
-/
namespace Sys2Proof.Machine

/-- The 56 bits of an a56 cell as a format (13 R247). -/
def fmtCell : Fmt := { kind := .wide, width := 56, uns := false, e := 11, m := 44, low := 0 }

/-- Round RNE to a56, as cell bits. -/
def cellBits (x : Num) : Nat := (fmtCell.convert 0 127 x).bits

/-- The same, as a number. -/
def roundCell (x : Num) : Num := fmtCell.read (cellBits x)

/-- An i56 cell as an integer, and back (13 R247). -/
def cellInt (bits : Nat) : Int := if bits < 2 ^ 55 then bits else (bits : Int) - 2 ^ 56

def intCell (v : Int) : Nat := (v % (2 ^ 56 : Int)).toNat

/-- Saturate to i56: the cell, and whether it left the range (13 R247). -/
def satCell (v : Int) : Nat × Bool :=
  let c := max (-(2 ^ 55)) (min (2 ^ 55 - 1) v)
  (intCell c, c != v)

/-- The key of cell (i, 0) of an accumulator tile (13 R248). -/
def cellKey (g c i : Nat) : Nat := cKey g (c * 0x7000 + i * 0x1C0)

/-- Row i of an accumulator tile: 64 cells of 7 bytes. -/
def State.cellRow (s : State) (g c i : Nat) : List Nat :=
  (List.range 64).map fun j => mread s.mem (cellKey g c i + 7 * j) 7

def State.setCellRow (s : State) (g c i : Nat) (v : List Nat) : State :=
  s.writeBytes (cellKey g c i) (v.flatMap fun x => leBytes 7 x)

def State.accOf (s : State) (g c : Nat) : AccTile := tget .reset (s.core g).acc c

def State.setAccTile (s : State) (g c : Nat) (x : AccTile) : State :=
  s.setCore g { s.core g with acc := tput (s.core g).acc c x }

/-- The kind bit: i56 (13 R265). -/
def AccTile.isInt (x : AccTile) : Bool := x.status.getLsbD 0

def AccTile.mark (x : AccTile) (bits : BitVec 8) : AccTile := { x with status := x.status ||| bits }

/-- The status word with its computed bit 5 (13 R265). -/
def AccTile.word (x : AccTile) : Word :=
  (x.status.zeroExtend 64) ||| (if x.rmask != 0 || x.cmask != 0 then 32 else 0)

/-- Row i of a tile as real values, its first n elements (13 R250). DESIGN CHOICE (log 109): a row of scale 255 has factor 2^(255 − 127) in
the cells that are still computed from it (R254). -/
def State.tileNums (s : State) (g t : Nat) (w : BitVec 23) (i : Nat) : List Num :=
  match fmtOf (shapeFmt w) with
  | some f =>
    let k := tileRow g t i
    let d := mgets s.mem k 64
    let sc := (mget s.mem (scaleKey k)).toNat
    (List.range (shapeCols w)).map fun e => (f.read (elemAt d f.width e)).under sc
  | none => []

/-- Exact sum of products (13 R251): special values as IEEE 754, an exact zero sum +0 unless every term is −0. -/
def sumNum (ps : List Num) : Num := foldNum (Num.add false) ps

/-- The magnitude with the leading bit highest (13 R252). -/
def leadOf : Num → Option Int
  | .fin _ m e => if m = 0 then none else some (e + Nat.log2 m)
  | _ => none

def emaxOf (ps : List Num) : Option Int :=
  ps.foldl (fun a p => match a, leadOf p with
    | some x, some y => some (max x y)
    | none, y => y
    | x, none => x) none

/-- Truncate towards zero to a multiple of 2^low (13 R252). -/
def truncTo (low : Int) : Num → Num
  | .fin n m e => if low ≤ e then .fin n m e else .fin n (m / 2 ^ (low - e).toNat) low
  | x => x

/-- The windowed sum (13 R252). -/
def windowSum (short : Bool) (ps : List Num) : Num :=
  if ps.any fun p => match p with | .fin .. => false | _ => true then sumNum ps
  else
    match emaxOf ps with
    | none => sumNum ps
    | some e =>
      match sumNum (ps.map (truncTo (e - (if short then 57 else 153)))) with
      | .fin n m d => if m = 0 then .fin false 0 0 else .fin n m d
      | x => x

/-- The semirings (13 R249): 0 plus-times, 1 min-plus, 2 max-plus, 3 max-times, 4 or-and. -/
def termOf (sr : Nat) (x y : Num) : Num :=
  if sr = 3 then roundCell (x.mul y) else roundCell (x.add false y)

/-- min or max over the terms that are not NaN; a NaN cell stays (13 R253). -/
def foldBest (sr : Nat) (cell : Num) (ts : List Num) : Num :=
  if cell.isNaN then cell else ts.foldl (fun a t => if sr = 1 then a.least t else a.greatest t) cell

/-- One cell after a step, and whether it overflowed (13 R251 to R253). -/
def cellStep (sr : Nat) (isInt window short : Bool) (cell : Nat) (xs ys : List Num) : Nat × Bool :=
  if sr = 4 then
    (if cell != 0 || (List.zipWith (fun x y => !x.isZero && !y.isZero) xs ys).any id then 1 else 0, false)
  else if sr = 0 then
    let ps := List.zipWith Num.mul xs ys
    let p := if window then windowSum short ps else sumNum ps
    if isInt then
      match p with
      | .fin n m e => let q := roundTo 0 n m e 0; satCell (cellInt cell + (if n then -(q : Int) else q))
      | _ => (cell, false)
    else (cellBits ((fmtCell.read cell).add false p), false)
  else if (fmtCell.read cell).isNaN then (cell, false)
  else (cellBits (foldBest sr (fmtCell.read cell) (List.zipWith (termOf sr) xs ys)), false)

/-- The first ry cells of a row are updated (13 R250). -/
def stepRow (upd : Nat → List Num → Nat × Bool) : List Nat → List (List Num) → List (Nat × Bool)
  | c :: cs, y :: ys => upd c y :: stepRow upd cs ys
  | cs, [] => cs.map fun c => (c, false)
  | [], _ => []

/-- Rows i on of a step. -/
def State.stepRows (s : State) (g c x sr : Nat) (w : BitVec 23) (isInt window short : Bool) (ys : List (List Num)) (i : Nat) :
    Nat → State × Bool
  | 0 => (s, false)
  | n + 1 =>
    let xs := s.tileNums g x w i
    let row := stepRow (fun cell y => cellStep sr isInt window short cell xs y) (s.cellRow g c i) ys
    let t := s.setCellRow g c i (row.map fun r => r.1)
    let r := t.stepRows g c x sr w isInt window short ys (i + 1) n
    (r.1, r.2 || row.any fun r => r.2)

/-- The rows of a tile, below its shape's, that are poisoned, as a mask (13 R254). -/
def State.poisonRows (s : State) (g t : Nat) (rows : Nat) : Nat :=
  ((List.range rows).filter fun i => mget s.mem (scaleKey (tileRow g t i)) == 255).foldl (fun m i => m + 2 ^ i) 0

/-- The short window of a core: a thermal emergency of its die, where the policy permits it (13 R268, 23 R379, R380). -/
def State.shortWindow (s : State) (g : Nat) : Bool := s.power.now.short && s.power.emerg.getLsbD (dieOf g)

/-- b16 and f32 inputs use the window (13 R252). -/
def windowed (sr : Nat) (a b : BitVec 23) : Bool :=
  sr == 0 && (shapeFmt a == 0xC1 || shapeFmt a == 0xC2 || shapeFmt b == 0xC1 || shapeFmt b == 0xC2)

/-- The kind a step needs: i56 (13 R250). -/
def needsInt (sr : Nat) (a b : BitVec 23) : Bool := sr == 4 || (sr == 0 && fmtInt (shapeFmt a) && fmtInt (shapeFmt b))

/-- The checks of a step before it starts (13 R250). -/
def State.stepCheck (s : State) (c x y sr : Nat) : Except Stop Unit :=
  let a := s.shapeOf x
  let b := s.shapeOf y
  if !(shapeValid a && shapeValid b) then .error (.trap cFormat 0)
  else if widthOf (shapeFmt a) ≠ widthOf (shapeFmt b) then .error (.trap cFormat 0)
  else if (s.accOf s.curCore c).isInt != needsInt sr a b then .error (.trap cFormat 0)
  else .ok ()

def Core.count (c : Core) (num : Nat) (n : Nat) : Core := { c with ctr := tput c.ctr num (tget 0 c.ctr num + BitVec.ofNat 64 n) }

/-- One chunk step of core g, for slot k: the cells, the masks, E, the status bits and the counters (13 R250 to R254, R268).
DESIGN CHOICE (log 109): the short window of an emergency is judged when the step completes. -/
def State.chunkStep (s : State) (g k c x y sr : Nat) : State :=
  let a := (s.core g).shapeOf x
  let b := (s.core g).shapeOf y
  let tile := s.accOf g c
  let window := windowed sr a b
  let short := window && s.shortWindow g
  let half := s.half.contains g
  let ys := (List.range (shapeRows b)).map (s.tileNums g y b)
  let r := s.stepRows g c x sr a tile.isInt window short ys 0 (shapeRows a)
  let mr := s.poisonRows g x (shapeRows a)
  let mc := s.poisonRows g y (shapeRows b)
  let bits : BitVec 8 := (if short then 128 else 0) ||| (if half then 64 else 0) ||| (if r.2 then 16 else 0)
  let t := r.1.setAccTile g c
    { status := tile.status ||| bits, rmask := tile.rmask ||| BitVec.ofNat 64 mr, cmask := tile.cmask ||| BitVec.ofNat 64 mc }
  let t := t.setCore g (((t.core g).count 0x050 1).count 0x052 short.toNat)
  if mr = 0 ∧ mc = 0 then t else t.setSlot g k ((t.slot g k).setFlags (setBit (t.slot g k).flags 5 true))

/-- Cycles of a step: 32, or 64 on a half array (13 R255, R268). -/
def State.stepCycles (s : State) (g : Nat) : Nat := if s.half.contains g then 64 else 32

/-- mm (13 R250, R255): the step occupies the array; CHUNK_STEP_COMPLETE ends it. -/
def mmRun (s : State) (c x y sr : Nat) : Run := do
  let s ← s.takeTiles true [x, y] [8 + c]
  s.stepCheck c x y sr
  let core := s.curCoreOf
  .ok (s.setCurCore { core with
    array := some { slot := s.curSlot, c := c, x := x, y := y, sr := sr, till := core.cycle + s.stepCycles s.curCore,
                    replayed := false } })

/-- The step in flight is over: its last cycle writes C (13 R255). -/
def State.arrayDone (s : State) (g : Nat) : State :=
  match (s.core g).array with
  | none => s
  | some a => (s.chunkStep g a.slot a.c a.x a.y a.sr).setCore g
      { (s.chunkStep g a.slot a.c a.x a.y a.sr).core g with array := none }

/-- CHUNK_STEP_COMPLETE at its time. -/
def State.chunkDone (s : State) (g : Nat) : State :=
  match (s.core g).array with
  | some a => if a.till ≤ (s.core g).cycle then s.arrayDone g else s
  | none => s

/-- Cycles to load both images of a step, at 128 bytes a cycle and buffer (13 R258). -/
def State.damaskLoad (s : State) (g : Nat) (d : Damask) : Nat :=
  let x := s.slot g d.slot
  let n := moveCycles (shapeRows ((s.core g).shapeOf d.x))
  let m := moveCycles (shapeRows ((s.core g).shapeOf d.y))
  if tagOf (x.ptr d.a) = tagOf (x.ptr d.b) then n + m else max n m

/-- Cycles of one step: the array's, or the load of the images (13 R258). -/
def State.damaskCycles (s : State) (g : Nat) (d : Damask) : Nat := max (s.stepCycles g) (s.damaskLoad g d)

/-- The macro-operation starts: its slot parks until its last step completes (13 R256, R258). With lc 0 it completes. -/
def mmxRun (s : State) (c x y sr a b : Nat) : Run :=
  if x / 2 = y / 2 then .error (.trap cIllegal 0)
  else do
    let s ← s.takeTiles true [] [x, partner x, y, partner y, 8 + c]
    s.stepCheck c x y sr
    let t := (s.setShape (partner x) (s.shapeOf x)).setShape (partner y) (s.shapeOf y)
    if t.cur.lc = 0 then .ok t
    else
      let core := t.curCoreOf
      let d : Damask := { slot := t.curSlot, n := 0, c := c, x := x, y := y, sr := sr, a := a, b := b,
                          till := 0, replayed := false }
      let d := { d with till := core.cycle + t.damaskLoad t.curCore d + t.damaskCycles t.curCore d }
      .error (.wait (t.setCurCore { core with damask := some d }) .mtx .none .reply)

/-- The images of one step are loaded (13 R256): the A image first. -/
def State.loadImages (s : State) (d : Damask) : Run := do
  let tx := if d.n % 2 = 1 then partner d.x else d.x
  let ty := if d.n % 2 = 1 then partner d.y else d.y
  let t ← s.loadTile tx (runAddr (s.ptr d.a))
  t.loadTile ty (runAddr (s.ptr d.b))

/-- The macro-operation ends; its slot goes on at the next instruction (13 R258). -/
def State.damaskEnd (s : State) : State :=
  (s.setCurCore { s.curCoreOf with damask := none }).complete 4 4

/-- n bytes from key k take free values. -/
def scramble (m : List Host.Cell) (tick k : Nat) : Nat → List Host.Cell
  | 0 => m
  | n + 1 => mput (scramble m tick k n) (k + n) (Config.stageByte tick (k + n))

/-- The contents of a stage tile after a fault in mmx are not defined (13 R257): data and descriptors are free values. -/
def State.loseTile (s : State) (g t : Nat) : State :=
  let k := tileKey g t
  { s with mem := scramble (scramble s.mem s.ticks k 4096) s.ticks (fmtKey k) 128 }

/-- DAMASK_STEP for the macro-operation in flight on core g: the step's images, the step, lc and the pointers; a failing
image raises its fault at mmx (13 R256, R257). -/
def State.damaskStep (s : State) (g : Nat) (d : Damask) : State :=
  let s := { s with curCore := g, curSlot := d.slot }
  match s.loadImages d with
  | .error (.trap code addr) =>
    let t := (s.loseTile g (partner d.x)).loseTile g (partner d.y)
    ((t.setCurCore { t.curCoreOf with damask := none }).takeTrap code 0 addr s.cur.pc 4 none).clear
  | .error _ => s
  | .ok t =>
    let tx := if d.n % 2 = 1 then partner d.x else d.x
    let ty := if d.n % 2 = 1 then partner d.y else d.y
    let u := t.clear.chunkStep g d.slot d.c tx ty d.sr
    let v := ((u.setLc (u.cur.lc - 1)).stepPtr d.a (u.stepInt d.a))
    let w := v.stepPtr d.b (v.stepInt d.b)
    if w.cur.lc = 0 then w.damaskEnd
    else
      w.setCurCore { w.curCoreOf with
        damask := some { d with n := d.n + 1, till := w.curCoreOf.cycle + w.damaskCycles g d, replayed := false } }

/-- The macro-operation's next step at its time. In a cluster that is halted only the step in flight finishes, at the end of the
drain (13 R257). -/
def State.damaskDue (s : State) (g : Nat) : State :=
  match (s.core g).damask with
  | some d => if d.till ≤ (s.core g).cycle ∧ !(s.cluster (clusterOf g)).halt then s.damaskStep g d else s
  | none => s

/-- Take a core's island out of service (13 R267, 23 R377). -/
def State.islandOut (s : State) (i : Nat) : State := if s.outOf.contains i then s else { s with outOf := s.outOf ++ [i] }

/-- A step that is checked: plus-times on narrow and integer inputs (13 R267). -/
def Core.checkedStep (c : Core) (x y sr : Nat) : Bool :=
  let ok := fun f => f / 64 == 1 || f / 64 == 2
  sr == 0 && ok (shapeFmt (c.shapeOf x)) && ok (shapeFmt (c.shapeOf y))

/-- The second mismatch: no cell is written, the gang ends with an error record, the island leaves service (13 R267). -/
def State.machineCheck (s : State) (g k : Nat) : State :=
  let s := s.report (slotRecord s 5 g k 0 0)
  let s := s.setCore g { s.core g with array := none, damask := none }
  (s.abortGang (clusterOf g)).islandOut g

/-- RESIDUE_REPLAY: the first mismatch replays the step once, at 32 cycles; a second one ends it (13 R267). -/
def State.residue (s : State) (g k : Nat) (again : Bool) : State :=
  let c := s.core g
  match c.array, c.damask with
  | some a, _ =>
    if a.slot ≠ k ∨ !c.checkedStep a.x a.y a.sr then s
    else if a.replayed then (if again then s.machineCheck g k else s)
    else if again then s
    else
      let x := s.slot g k
      (s.setCore g ({ c with array := some { a with till := a.till + 32, replayed := true } }.count 0x051 1)).setSlot g k
        { x with readyAt := x.readyAt + 32 }
  | none, some d =>
    if d.slot ≠ k ∨ !c.checkedStep d.x d.y d.sr then s
    else if d.replayed then (if again then s.machineCheck g k else s)
    else if again then s
    else s.setCore g ({ c with damask := some { d with till := d.till + 32, replayed := true } }.count 0x051 1)
  | none, none => s

/-- MM (13 R250): the slot is ready 36 cycles after the start, 68 on a half array (13 R255). DESIGN CHOICE (log 101): while its step is in
flight the slot has left the rotation (05 R84) and is not parked. -/
def execMm (c x y r : BitVec 3) (s : State) : Host.Outcome State Fault Refusal :=
  retire s 4 (s.stepCycles s.curCore + 4) (mmRun s c.toNat x.toNat y.toNat r.toNat)

/-- MMX (13 R256). -/
def execMmx (c x y r a b : BitVec 3) (s : State) : Host.Outcome State Fault Refusal :=
  retire s 4 4 (mmxRun s c.toNat x.toNat y.toNat r.toNat a.toNat b.toNat)

/-- CHUNK_STEP_COMPLETE (13 R255). -/
def execChunkStepComplete (core : Nat) (s : State) : Host.Outcome State Fault Refusal :=
  if core < 1024 then .next (s.chunkDone core) else .fault .noSuchUnit

/-- DAMASK_STEP: one chunk step of the macro-operation that the step names, if it is the one in flight (13 R256). -/
def execDamaskStep (core slot n : Nat) (c x y r a b : BitVec 3) (s : State) : Host.Outcome State Fault Refusal :=
  if core < 1024 ∧ slot < 11 then
    .next (match (s.core core).damask with
      | some d =>
        if d.slot = slot ∧ d.n = n ∧ d.c = c.toNat ∧ d.x = x.toNat ∧ d.y = y.toNat ∧ d.sr = r.toNat ∧ d.a = a.toNat ∧
            d.b = b.toNat then s.damaskDue core
        else s
      | none => s)
  else .fault .noSuchUnit

/-- RESIDUE_REPLAY (13 R267). -/
def execResidueReplay (core slot : Nat) (again : Bool) (s : State) : Host.Outcome State Fault Refusal :=
  if core < 1024 ∧ slot < 11 then .next (s.residue core slot again) else .fault .noSuchUnit

end Sys2Proof.Machine
end

