-- ==== Sys2Proof/Machine/Accum.lean ====
section
/-!
DEFINITION. The accumulator instructions (13 R260 to R266).
-/
namespace Sys2Proof.Machine

/-- The cells of a fill (13 R261). -/
def fillCell (f : Nat) : Nat :=
  if f = 1 then fmtCell.infBits false else if f = 2 then fmtCell.infBits true else 0

/-- Apply a function to every row of a tile from row i on: the row index and the row, and whether a cell overflowed. -/
def State.mapRows (s : State) (g c : Nat) (f : Nat → List Nat → List (Nat × Bool)) (i : Nat) : Nat → State × Bool
  | 0 => (s, false)
  | n + 1 =>
    let row := f i (s.cellRow g c i)
    let t := s.setCellRow g c i (row.map fun r => r.1)
    let r := t.mapRows g c f (i + 1) n
    (r.1, r.2 || row.any fun r => r.2)

def State.fillTile (s : State) (g c f : Nat) : State :=
  if f = 1 ∨ f = 2 then (s.mapRows g c (fun _ row => row.map fun _ => (fillCell f, false)) 0 64).1
  else { s with mem := mclear s.mem (cellKey g c 0) 0x7000 }

/-- cclr (13 R261). -/
def cclrRun (s : State) (c f : Nat) : Run := do
  let s ← s.tilesFree [] [8 + c]
  .ok ((s.fillTile s.curCore c f).setAccTile s.curCore c { status := if f = 3 then 1 else 0, rmask := 0, cmask := 0 })

/-- The exact value of a cell (13 R262). -/
def cellNum (isInt : Bool) (bits : Nat) : Num :=
  if isInt then (let v := cellInt bits; .fin (decide (v < 0)) v.natAbs 0) else fmtCell.read bits

/-- Blocks a row takes in a format of width w (13 R262). -/
def rowBlocks (w : Nat) : Nat := max 1 (64 * w / 512)

/-- Cell (i, j) is poisoned (13 R247). -/
def AccTile.bad (x : AccTile) (i j : Nat) : Bool := x.rmask.getLsbD i || x.cmask.getLsbD j

/-- Block b of row i, converted, and whether E is set (13 R262). -/
def State.readBlock (s : State) (g c i b : Nat) (f : Fmt) (code : Byte) : Block × Bool :=
  let t := s.accOf g c
  let per := min 64 (lanesOf f.width)
  let js := (List.range per).map fun l => b * per + l
  if js.any (t.bad i) then (poisonBlock code, true)
  else
    let row := s.cellRow g c i
    let r := convertBlock f code s.cur.vf (js.map fun j => cellNum t.isInt (row.getD j 0))
    (padBlock r.1, r.2)

/-- The addresses of n rows of nb blocks, in order (13 R260). -/
def State.blockAddrs (s : State) (p n nb : Nat) : List (Nat × Nat × Word) :=
  (List.range n).flatMap fun i => (List.range nb).map fun b => (i, b, runAddr (s.rowAddr p i) b)

/-- Check the addresses of a transfer (13 R262, R263). -/
def State.checkBlocks (s : State) (k : AccKind) (ok : Nat → Bool) :
    List (Nat × Nat × Word) → Except Stop (State × List (Nat × Nat × Word × Loc))
  | [] => .ok (s, [])
  | (i, b, a) :: r => do
    let (t, l) ← s.locate a 64 64 k ok false true
    let (t, ls) ← t.checkBlocks k ok r
    .ok (t, (i, b, a, l) :: ls)

/-- Write the blocks of a crd. -/
def State.crdOut (s : State) (c : Nat) (f : Fmt) : List (Nat × Nat × Word × Loc) → Run
  | [] => .ok s
  | (i, b, a, l) :: r => do
    let x := s.readBlock s.curCore c i b f s.vfCode
    let t ← (s.raiseE x.2).putLoc a x.1 false l
    t.crdOut c f r

/-- crd (13 R262). DESIGN CHOICE (log 106): a vf.fmt that is no number format shows before an address. -/
def crdRun (s : State) (c p n : Nat) (post : Bool) : Except Stop (State × Nat) := do
  let s ← s.tilesFree [] [8 + c]
  let f ← s.vfNum
  let nb := rowBlocks f.width
  let (t, ls) ← s.checkBlocks .write tagLA (s.blockAddrs p n nb)
  let t ← t.crdOut c f ls
  let m := moveCycles (n * nb)
  .ok ((t.postStep post p n).useTile (8 + c) true m, m)

/-- Every block of a cwr carries format 0xC3 (13 R263). -/
def State.imagesFmt (s : State) : List (Nat × Nat × Word × Loc) → Except Stop Unit
  | [] => .ok ()
  | (_, _, a, l) :: r => if (s.rowBlock l).fmt = 0xC3 then s.imagesFmt r else .error (.trap cFormat a)

/-- The eight cells of one block of images (13 R263). -/
def imageCells (b : Block) : List Nat :=
  (elemsOf b.data 64).map fun x =>
    if b.scale = 255 ∨ b.scale = 127 then x / 256 else cellBits ((fmtCell.read (x / 256)).under b.scale.toNat)

/-- Write the cells of the blocks of a cwr. -/
def State.cwrIn (s : State) (c : Nat) : List (Nat × Nat × Word × Loc) → State
  | [] => s
  | (i, b, _, l) :: r =>
    let x := s.rowBlock l
    let g := s.curCore
    let t := s.writeBytes (cellKey g c i + 56 * b) ((imageCells x).flatMap fun v => leBytes 7 v)
    let tile := t.accOf g c
    (if x.scale = 255 then t.setAccTile g c { tile with rmask := tile.rmask ||| BitVec.ofNat 64 (2 ^ i) } else t).cwrIn c r

/-- cwr (13 R263). -/
def cwrRun (s : State) (c p n : Nat) (post : Bool) : Except Stop (State × Nat) := do
  let s ← s.tilesFree [] [8 + c]
  if (s.accOf s.curCore c).isInt then .error (.trap cFormat 0)
  else do
    let (t, ls) ← s.checkBlocks .read tagLAW (s.blockAddrs p n 8)
    let t := t.senseRows (ls.map fun l => l.2.2.2)
    t.imagesFmt ls
    let m := moveCycles (n * 8)
    .ok (((t.cwrIn c ls).postStep post p n).useTile (8 + c) true m, m)

/-- The additive operation of a semiring on two cells (13 R264). -/
def addCells (sr : Nat) (isInt : Bool) (x y : Nat) : Nat × Bool :=
  if sr = 4 then (if x != 0 || y != 0 then 1 else 0, false)
  else if isInt then
    (if sr = 0 then satCell (cellInt x + cellInt y)
     else (intCell (if sr = 1 then min (cellInt x) (cellInt y) else max (cellInt x) (cellInt y)), false))
  else if sr = 0 then (cellBits ((fmtCell.read x).add false (fmtCell.read y)), false)
  else if (fmtCell.read x).isNaN then (x, false)
  else (cellBits (foldBest sr (fmtCell.read x) [fmtCell.read y]), false)

/-- cadd (13 R264). -/
def caddRun (s : State) (c x sr : Nat) : Run := do
  let s ← s.tilesFree [] [8 + c, 8 + x]
  let g := s.curCore
  let a := s.accOf g c
  let b := s.accOf g x
  if a.isInt != b.isInt || (sr == 4 && !a.isInt) then .error (.trap cFormat 0)
  else
    let r := s.mapRows g c (fun i row => List.zipWith (addCells sr a.isInt) row (s.cellRow g x i)) 0 64
    .ok (r.1.setAccTile g c
      { status := a.status ||| (b.status &&& 0xD0) ||| (if r.2 then 16 else 0), rmask := a.rmask ||| b.rmask
        cmask := a.cmask ||| b.cmask })

/-- cstat (13 R265). -/
def cstatRun (s : State) (c sel : Nat) : Run := do
  let s ← s.tilesFree [] [8 + c]
  let t := s.accOf s.curCore c
  .ok (s.setAcc (if sel = 1 then t.rmask else if sel = 2 then t.cmask else t.word))

/-- One cell times 2^e (13 R266). -/
def scaleCell (isInt : Bool) (e : Int) (x : Nat) : Nat × Bool :=
  if isInt then
    let v := cellInt x
    if 0 ≤ e then satCell (v * 2 ^ e.toNat)
    else (let q := roundTo 0 (decide (v < 0)) v.natAbs e 0; (intCell (if v < 0 then -(q : Int) else q), false))
  else
    match fmtCell.read x with
    | .fin n m d => (cellBits ((Num.fin n m d).scale e), false)
    | _ => (x, false)

/-- cscl (13 R266). -/
def csclRun (s : State) (c : Nat) (e : Int) : Run := do
  let s ← s.tilesFree [] [8 + c]
  let g := s.curCore
  let a := s.accOf g c
  let r := s.mapRows g c (fun _ row => row.map (scaleCell a.isInt e)) 0 64
  .ok (r.1.setAccTile g c (a.mark (if r.2 then 16 else 0)))

/-- CCLR (13 R261). -/
def execCclr (c : BitVec 3) (f : BitVec 2) (s : State) : Host.Outcome State Fault Refusal :=
  retire s 4 4 (cclrRun s c.toNat f.toNat)

/-- CRD (13 R262). -/
def execCrd (c : BitVec 3) (p : Bool) (q : BitVec 3) (n : BitVec 6) (s : State) : Host.Outcome State Fault Refusal :=
  retireMoving s (crdRun s c.toNat q.toNat (n.toNat + 1) p)

/-- CWR (13 R263). -/
def execCwr (c : BitVec 3) (p : Bool) (q : BitVec 3) (n : BitVec 6) (s : State) : Host.Outcome State Fault Refusal :=
  retireMoving s (cwrRun s c.toNat q.toNat (n.toNat + 1) p)

/-- CADD (13 R264). -/
def execCadd (c x r : BitVec 3) (s : State) : Host.Outcome State Fault Refusal :=
  retire s 4 20 (caddRun s c.toNat x.toNat r.toNat)

/-- CSTAT (13 R265). -/
def execCstat (c : BitVec 3) (s : State) : Host.Outcome State Fault Refusal := retire s 4 4 (cstatRun s c.toNat 0)

/-- CSTAT_R (13 R265). -/
def execCstatR (c : BitVec 3) (s : State) : Host.Outcome State Fault Refusal := retire s 4 4 (cstatRun s c.toNat 1)

/-- CSTAT_C (13 R265). -/
def execCstatC (c : BitVec 3) (s : State) : Host.Outcome State Fault Refusal := retire s 4 4 (cstatRun s c.toNat 2)

/-- CSCL (13 R266). -/
def execCscl (c : BitVec 3) (e : BitVec 10) (s : State) : Host.Outcome State Fault Refusal :=
  retire s 4 20 (csclRun s c.toNat e.toInt)

end Sys2Proof.Machine
end

