-- ==== Sys2Proof/Machine/Gmem.lean ====
section
/-!
DEFINITION. Block access to G: gldv, gstv, gpref (09 R174 to R176).
-/
namespace Sys2Proof.Machine

/-- The owner number of a station that fetches a line for itself; the request's slot field holds the address. -/
def stationOwner (die : Nat) : Nat := 1040 + die

/-- The station of the slot's die asks for a line it lacks, on a page in mode 3 (09 R169, R176). A line that an own write is on
its way to is not asked for. -/
def State.fetchAhead (s : State) (r : Route) (e : PageEntry) (va : Nat) : State :=
  let die := dieOf s.curCore
  if pteMode e.pte ≠ 3 ∨ (s.cachedBlock die e.ctx va).isSome then s
  else
    match r with
    | .chip c pa =>
      if s.lineOut c (pa / 64 * 64) then s
      else s.requestFill (some (die, va / 64 * 64)) (stationOwner die) va e.ctx c (pa / 64 * 64) (.read 64)
    | .host l a => s.fillCache die e.ctx va (s.hostBlock l a)
    | .here pa => (s.lineRead die e va fun s => s.readHere e.ctx pa).1

/-- gldv: the G address is checked, then the local block, then the block moves (09 R175). -/
def gldvRun (s : State) (sp : Spec) (i : Int) : Run := do
  let (t, a) ← s.address sp i 64
  let p := t.ptr 6
  let u := t.stepPtr 6 (t.stepInt 6)
  let (u, l) ← u.locate a 64 64 .read tagG false false
  let (u, d) ← u.locate p 64 64 .write tagLaneWrite false false
  let (v, b) ← u.blockLoc l
  v.putLoc p b false d

/-- gstv (09 R175). -/
def gstvRun (s : State) (sp : Spec) (i : Int) : Run := do
  let (t, a) ← s.address sp i 64
  let p := t.ptr 6
  let u := t.stepPtr 6 (t.stepInt 6)
  let (u, l) ← u.locate a 64 64 .write tagG false false
  let (u, d) ← u.locate p 64 64 .read tagLaneRead false false
  let (v, b) ← u.blockLoc d
  v.putLoc a b true l

/-- gpref: on a page in mode 3 the station also asks for the line; anything refused is dropped (09 R176). -/
def gprefRun (s : State) (sp : Spec) (i : Int) : State :=
  match s.operand sp i 64 with
  | (t, .mem a) =>
    match t.judge a 64 64 .read tagG false false with
    | .ok (.glob r e va) => t.fetchAhead r e va
    | _ => t
  | (t, _) => t

/-- GLDV (09 R175). -/
def execGldv (sp : Spec) (i : BitVec 13) (s : State) : Host.Outcome State Fault Refusal := retire s 4 4 (gldvRun s sp i.toInt)

/-- GSTV (09 R175). -/
def execGstv (sp : Spec) (i : BitVec 13) (s : State) : Host.Outcome State Fault Refusal := retire s 4 4 (gstvRun s sp i.toInt)

/-- GPREF (09 R176). -/
def execGpref (sp : Spec) (i : BitVec 13) (s : State) : Host.Outcome State Fault Refusal :=
  retire s 4 4 (.ok (gprefRun s sp i.toInt))

end Sys2Proof.Machine
end

