-- ==== Sys2Proof/Machine/Amo.lean ====
section
/-!
DEFINITION. Scalar atomics (10 R194 to R198).
-/
namespace Sys2Proof.Machine

/-- binary64 as a format (10 R197). -/
def fmt64 : Fmt := { kind := .wide, width := 64, uns := false, e := 11, m := 52, low := 0 }

/-- IEEE sum rounded RNE, as bits (10 R197). -/
def floatAdd (size old v : Nat) : Nat :=
  let f := if size = 8 then fmt64 else fmt32
  (f.convert 0 127 ((f.read old).add false (f.read v))).bits

/-- The signed reading of the low size bytes. -/
def signedOf (size x : Nat) : Int := if 2 ^ (8 * size - 1) ≤ x then (x : Int) - 2 ^ (8 * size) else x

/-- The new word of an atomic, if it writes one (10 R197). -/
def amoNew (funct size old v x : Nat) : Option Nat :=
  match funct with
  | 0 => some ((old + v) % 2 ^ (8 * size))
  | 1 => some (old &&& v)
  | 2 => some (old ||| v)
  | 3 => some (old ^^^ v)
  | 4 => some (if signedOf size old ≤ signedOf size v then old else v)
  | 5 => some (if signedOf size old ≤ signedOf size v then v else old)
  | 6 => some (min old v)
  | 7 => some (max old v)
  | 8 => some v
  | 9 => if old = x then some v else none
  | _ => some (floatAdd size old v)

/-- Tags an atomic accepts: L, X, G (10 R194). -/
def tagAtomic (t : Nat) : Bool := t == 0 || t == 4 || t == 8

/-- Check the address of an atomic: its A part of X is no target (10 R194). -/
def State.atomicLoc (s : State) (a : Word) (size align : Nat) : Except Stop (State × Loc) :=
  match tagOf a, place s.curCore a with
  | 4, .buf 1 _ _ => .error (.trap cSpace a)
  | _, _ => s.locate a size align .atomic tagAtomic false false

/-- What a peer answers an atomic at an address, or the request for it; the line's copy here is dropped (10 R195, R198). A fault that
comes with the reply is one at that address (15 R274). -/
def State.askAtomic (s : State) (a : Word) (e : PageEntry) (va c pa : Nat) (op : RemoteOp) : Except Stop (State × MemRep) :=
  match s.recall with
  | some (.mem c' pa' rep) =>
    (match rep.fault with
     | some (code, _) => .error (.trap code a)
     | none => .ok (s.note (.mem c' pa' rep), rep))
  | _ =>
    if s.ownWriteOut c (pa / 64 * 64) then .error (s.hold .mem .none)
    else .error (((s.charge e).dropLine (dieOf s.curCore) e va).ask c pa op)

/-- An atomic on the word at a key: the poison check, then the new word through write, unless a write strikes (10 R195 to R197). -/
def State.amoKey (s : State) (ctx : Nat) (a : Word) (funct size v x k : Nat) (strike : Bool) (write : State → Nat → State) :
    State × Reply :=
  let t := s.sense ctx k size
  if poisoned t.mem k then (t, .fault cPoison a)
  else
    let old := mread t.mem k size
    match amoNew funct size old v x with
    | some n => if strike then (t, .fault cWatch a) else (write t n, .num old)
    | none => (t, .num old)

/-- Perform an atomic at a checked address, once: the state and the old word. In the core's own L it takes no park (10 R198). -/
def State.amoAt (s : State) (a : Word) (funct size : Nat) (v x : Nat) : Loc → Except Stop (State × Nat)
  | .buf win b g off =>
    (s.access (slowMem win) fun s =>
      s.amoKey (s.ctxOf s.curCore) a funct size v x (bufKey b g off) (s.strikes b g off size) fun t n =>
        t.writeBuf b g off (leBytes size n)).map fun y => (y.1, y.2.toNat)
  | .glob (.here pa) e va =>
    (s.access (slowMem true) fun s =>
      ((s.charge e).dropLine (dieOf s.curCore) e va).amoKey e.ctx a funct size v x pa false fun t n =>
        (t.write pa size n).mend e.ctx pa size false).map fun y => (y.1, y.2.toNat)
  | .glob (.chip c pa) e va =>
    (s.askAtomic a e va c pa (.amo funct size (BitVec.ofNat 64 v) (BitVec.ofNat 64 x))).map fun y => (y.1, y.2.old.toNat)
  | _ => .error (.trap cSpace a)

/-- The poison check of a target on this chip comes before the checks of acas's expected value (03 R31). -/
def State.targetFirst (s : State) (a : Word) (size : Nat) (l : Loc) : Run :=
  let check (s : State) (slow : Bool) (ctx k : Nat) : Run :=
    let t := s.sense ctx k size
    let bad := poisoned t.mem k
    (s.access (slowMem (slow && bad)) fun _ => (t, if bad then .fault cPoison a else .done)).map fun y => y.1
  match l with
  | .buf win b g off => check s win (s.ctxOf s.curCore) (bufKey b g off)
  | .glob (.here pa) e _ => check s true e.ctx pa
  | _ => .ok s

/-- The read of acas's expected value has met a fault. Where the target stands on another chip, that chip is asked whether S's block
is poisoned, since the fault of S, the first operand, is the one reported (03 R31, 10 R196). -/
def State.lateTarget (s : State) (a : Word) (code : Nat) (faddr : Word) : Loc → Stop
  | .glob (.chip c pa) _ _ =>
    let t := (s.note (.fault code faddr)).note .done
    (match t.recall with
     | some r => if r.toBlock.scale = 255 then .trap cPoison a else .trap code faddr
     | none => t.ask c (pa / 64 * 64) (.read 64))
  | _ => .trap code faddr

/-- The expected value of acas, read at p7 as S left it, once S's own checks are made (10 R197). -/
def State.expected (s : State) (a : Word) (size : Nat) (l : Loc) : Except Stop (State × Nat) := do
  let t ← s.targetFirst a size l
  match t.load (t.ptr 7) size with
  | .error (.trap code faddr) => .error (t.lateTarget a code faddr l)
  | x => x

/-- An atomic of size bytes (10 R197): S first; the expected value of acas is read at p7 as S left it. -/
def amoRun (s : State) (sp : Spec) (i : Int) (funct size : Nat) : Run := do
  let (t, a) ← s.address sp i size
  let (t, l) ← t.atomicLoc a size size
  let (u, x) ← if funct = 9 then t.expected a size l else .ok (t, 0)
  let v := u.acc.toNat % 2 ^ (8 * size)
  let (w, old) ← u.amoAt a funct size v x l
  let r : Word := BitVec.ofNat 64 old
  let y := (w.setAcc r).setFlags (setZN w.flags r)
  .ok (if funct = 9 then y.setF (old != x) else y)

/-- AADD (10 R197). -/
def execAadd (sp : Spec) (i : BitVec 13) (s : State) : Host.Outcome State Fault Refusal := retire s 4 4 (amoRun s sp i.toInt 0 8)

/-- AAND (10 R197). -/
def execAand (sp : Spec) (i : BitVec 13) (s : State) : Host.Outcome State Fault Refusal := retire s 4 4 (amoRun s sp i.toInt 1 8)

/-- AOR (10 R197). -/
def execAor (sp : Spec) (i : BitVec 13) (s : State) : Host.Outcome State Fault Refusal := retire s 4 4 (amoRun s sp i.toInt 2 8)

/-- AXOR (10 R197). -/
def execAxor (sp : Spec) (i : BitVec 13) (s : State) : Host.Outcome State Fault Refusal := retire s 4 4 (amoRun s sp i.toInt 3 8)

/-- AMIN (10 R197). -/
def execAmin (sp : Spec) (i : BitVec 13) (s : State) : Host.Outcome State Fault Refusal := retire s 4 4 (amoRun s sp i.toInt 4 8)

/-- AMAX (10 R197). -/
def execAmax (sp : Spec) (i : BitVec 13) (s : State) : Host.Outcome State Fault Refusal := retire s 4 4 (amoRun s sp i.toInt 5 8)

/-- AMINN (10 R197). -/
def execAminn (sp : Spec) (i : BitVec 13) (s : State) : Host.Outcome State Fault Refusal := retire s 4 4 (amoRun s sp i.toInt 6 8)

/-- AMAXN (10 R197). -/
def execAmaxn (sp : Spec) (i : BitVec 13) (s : State) : Host.Outcome State Fault Refusal := retire s 4 4 (amoRun s sp i.toInt 7 8)

/-- ASWP (10 R197). -/
def execAswp (sp : Spec) (i : BitVec 13) (s : State) : Host.Outcome State Fault Refusal := retire s 4 4 (amoRun s sp i.toInt 8 8)

/-- ACAS (10 R197). -/
def execAcas (sp : Spec) (i : BitVec 13) (s : State) : Host.Outcome State Fault Refusal := retire s 4 4 (amoRun s sp i.toInt 9 8)

/-- AADDF (10 R197). -/
def execAaddf (sp : Spec) (i : BitVec 13) (s : State) : Host.Outcome State Fault Refusal := retire s 4 4 (amoRun s sp i.toInt 10 8)

/-- AADD_W (10 R197). -/
def execAaddW (sp : Spec) (i : BitVec 13) (s : State) : Host.Outcome State Fault Refusal := retire s 4 4 (amoRun s sp i.toInt 0 4)

/-- AAND_W (10 R197). -/
def execAandW (sp : Spec) (i : BitVec 13) (s : State) : Host.Outcome State Fault Refusal := retire s 4 4 (amoRun s sp i.toInt 1 4)

/-- AOR_W (10 R197). -/
def execAorW (sp : Spec) (i : BitVec 13) (s : State) : Host.Outcome State Fault Refusal := retire s 4 4 (amoRun s sp i.toInt 2 4)

/-- AXOR_W (10 R197). -/
def execAxorW (sp : Spec) (i : BitVec 13) (s : State) : Host.Outcome State Fault Refusal := retire s 4 4 (amoRun s sp i.toInt 3 4)

/-- AMIN_W (10 R197). -/
def execAminW (sp : Spec) (i : BitVec 13) (s : State) : Host.Outcome State Fault Refusal := retire s 4 4 (amoRun s sp i.toInt 4 4)

/-- AMAX_W (10 R197). -/
def execAmaxW (sp : Spec) (i : BitVec 13) (s : State) : Host.Outcome State Fault Refusal := retire s 4 4 (amoRun s sp i.toInt 5 4)

/-- AMINN_W (10 R197). -/
def execAminnW (sp : Spec) (i : BitVec 13) (s : State) : Host.Outcome State Fault Refusal := retire s 4 4 (amoRun s sp i.toInt 6 4)

/-- AMAXN_W (10 R197). -/
def execAmaxnW (sp : Spec) (i : BitVec 13) (s : State) : Host.Outcome State Fault Refusal := retire s 4 4 (amoRun s sp i.toInt 7 4)

/-- ASWP_W (10 R197). -/
def execAswpW (sp : Spec) (i : BitVec 13) (s : State) : Host.Outcome State Fault Refusal := retire s 4 4 (amoRun s sp i.toInt 8 4)

/-- ACAS_W (10 R197). -/
def execAcasW (sp : Spec) (i : BitVec 13) (s : State) : Host.Outcome State Fault Refusal := retire s 4 4 (amoRun s sp i.toInt 9 4)

/-- AADDF_W (10 R197). -/
def execAaddfW (sp : Spec) (i : BitVec 13) (s : State) : Host.Outcome State Fault Refusal := retire s 4 4 (amoRun s sp i.toInt 10 4)

end Sys2Proof.Machine
end

