-- ==== Sys2Proof/Machine/Quant.lean ====
section
/-!
DEFINITION. The quantisation engines (07 R143 to R149): qsub, qstat, and the steps QUANT_COMMAND_RUN and
QUANT_COMMAND_COMPLETE.
-/
namespace Sys2Proof.Machine

def State.engine (s : State) (die : Nat) : QuantEngine := tget .reset s.quant die

def State.setEngine (s : State) (die : Nat) (q : QuantEngine) : State := { s with quant := tput s.quant die q }

/-- The fields of a command descriptor (07 R144). -/
structure QuantDesc where
  src   : Nat
  dst   : Nat
  nsrc  : Nat
  fw    : Nat
  op    : Nat
  group : Nat
  zp    : Nat
  stat  : Nat
  zeros : Nat
  deriving DecidableEq, Repr

def quantDesc (r : List Byte) : QuantDesc :=
  { src := field r 0 8, dst := field r 8 8, nsrc := field r 0x10 4, fw := field r 0x14 4, op := field r 0x18 1,
    group := field r 0x19 1, zp := field r 0x20 8, stat := field r 0x28 8, zeros := field r 0x1A 6 + field r 0x30 16 }

/-- A block address in G (07 R144). DEDUCED: offset bits [59:57] make no descriptor error, and the blocks lie in no range (log
94). -/
def gBlock (p : Nat) : Bool := p / 2 ^ 60 == 8 && p % 64 == 0

def gOff (p : Nat) : Nat := p % 2 ^ 60

def QuantDesc.vf (q : QuantDesc) : BitVec 19 := BitVec.ofNat 19 q.fw

def QuantDesc.fmt (q : QuantDesc) : Option Fmt := fmtOf (vfFmt q.vf)

def QuantDesc.wd (q : QuantDesc) : Nat := widthOf (vfFmt q.vf)

/-- Destination blocks of a command whose sources have width ws (07 R135). -/
def QuantDesc.ndst (q : QuantDesc) (ws : Nat) : Nat :=
  if q.wd ≤ ws then q.nsrc / (ws / q.wd) else q.nsrc * (q.wd / ws)

def overlap (a n b m : Nat) : Bool := a < b + m && b < a + n

/-- A descriptor error (07 R144). The rules of the fields hold for every operation; a destination format that the operation cannot
write counts as one, and statistics only writes none (log 89). -/
def QuantDesc.bad (q : QuantDesc) : Bool :=
  !gBlock q.src || !gBlock q.dst || q.nsrc == 0 || 2 ^ 24 < q.nsrc || 2 ^ 19 ≤ q.fw || 3 < q.op || 6 < q.group ||
  q.zeros != 0 || (if q.op == 1 || q.op == 2 then !gBlock q.zp else q.zp != 0) ||
  (q.stat != 0 && (q.stat / 2 ^ 60 != 8 || q.stat % 32 != 0)) || fmtReserved (vfFmt q.vf) ||
  (q.op != 3 && (q.fmt.isNone || (q.op == 1 && !fmtInt (vfFmt q.vf))))

/-- The rules that rest on the source width: whole destination blocks, and no partial overlap of the ranges (07 R144). Statistics
only has no destination range. -/
def QuantDesc.badRun (q : QuantDesc) (ws : Nat) : Bool :=
  q.fmt.isSome && q.nsrc % srcCount ws q.wd != 0 ||
    q.op != 3 && overlap q.src (64 * q.nsrc) q.dst (64 * q.ndst ws) && !(q.src == q.dst && ws == q.wd)

/-- Read n source blocks from index i on. -/
def State.quantReads (s : State) (j : Journal) (die ctx base i : Nat) : Nat → Got (List (Access Block))
  | 0 => .ok s j []
  | n + 1 =>
    match s.engineRead j (quantOwner die) ctx die i (base + 64 * i) true 0 with
    | .wait t log => .wait t log
    | .ok t k a =>
      match t.quantReads k die ctx base (i + 1) n with
      | .wait u log => .wait u log
      | .ok u k l => .ok u k (a :: l)

/-- Judge n destination blocks from index i on. -/
def State.quantJudges (s : State) (j : Journal) (ctx base i : Nat) : Nat → Got (List (Access (Route × PageEntry)))
  | 0 => .ok s j []
  | n + 1 =>
    match s.engineJudge j ctx i (base + 64 * i) with
    | .wait t log => .wait t log
    | .ok t k a =>
      match t.quantJudges k ctx base (i + 1) n with
      | .wait u log => .wait u log
      | .ok u k l => .ok u k (a :: l)

/-- The fault records of the refused accesses of one side (07 R146, 09 R183): one for each block. -/
def State.quantFaults (s : State) (die : Nat) (c : QuantCmd) (base side : Nat) : List (Access α) → State
  | [] => s
  | a :: r =>
    let t := if a.got.isSome then s
      else s.slotFault c.ctx c.core (faultBytes (base + 64 * a.idx) c.ctx (2 * 4096 + die * 1024) a.cause side s.chip c.core
        c.slot 0 c.descAt a.idx 1)
    t.quantFaults die c base side r

/-- A fixed-scale result format word. -/
def fixedVf (vf : BitVec 19) (s : Nat) : BitVec 19 := BitVec.ofNat 19 (vfFmt vf + vfMode vf * 256 + s * 2048)

/-- The lanes of one source block for an operation, with the zero points of op 1 beside them. -/
def quantVals (op : Nat) (z : Option Block) (b : Block) : List Num := if op = 2 then deqVals z b else blockVals b

/-- A source block that the operation cannot take as a block of width ws (07 R146). The spec names a differing width alone; DEDUCED:
a reserved or 0x00 code, and under op 2 a format that is no integer's, count the same (log 94). -/
def quantOdd (op ws : Nat) (b : Block) : Bool :=
  (fmtOf b.fmt.toNat).isNone || widthOf b.fmt.toNat != ws || (op == 2 && !fmtInt b.fmt.toNat)

/-- The elements of one destination block. -/
def quantElems (op : Nat) (f : Fmt) (z : Option Block) (mode s : Nat) (xs : List Num) : List Conv :=
  if op = 1 then
    (xs.zip ((List.range (lanesOf f.width)).map fun i => (z.map fun b => intAt b i).getD 0)).map
      fun x => quantOne f mode s x.1 x.2
  else xs.map (f.convert mode s)

/-- One destination block: poisoned, or its elements under a scale. -/
def quantOut (f : Fmt) (code : Byte) (poison : Bool) (s : Nat) (cs : List Conv) : Block :=
  if poison || s == 255 || cs.any fun c => c.poison then poisonBlock code
  else { data := packElems f.width (cs.map fun c => c.bits), fmt := code, scale := BitVec.ofNat 8 s }

/-- The share of a group's destination blocks: scale runs of 2^g blocks each take one scale (07 R144). -/
def quantScales (q : QuantDesc) (f : Fmt) : List (List (List Num)) → List Nat
  | [] => []
  | run :: rs =>
    let s := if vfAuto q.vf then f.autoScale run.flatten else vfScale q.vf
    List.replicate run.length s ++ quantScales q f rs

/-- Write the destination blocks of a group. -/
def State.quantPuts (s : State) (die base : Nat) : List (Access (Route × PageEntry) × Block) → State
  | [] => s
  | (a, b) :: r =>
    match a.got with
    | some x => ((s.charge x.2).enginePut (quantOwner die) die (base + 64 * a.idx) x b).quantPuts die base r
    | none => s.quantPuts die base r

def countNaN (xs : List Num) : Nat := (xs.filter Num.isNaN).length

/-- amax as binary32, rounded up (07 R145). -/
def amaxBits (xs : List Num) : Nat :=
  let m := maxMag xs
  (fmt32.convert 3 127 (.fin false m.1 m.2)).bits

/-- The tallies of the source blocks that were read (07 R145). -/
def QuantCmd.tally (c : QuantCmd) (bs : List Block) : QuantCmd :=
  let ok := bs.filter fun b => b.scale != 255
  let xs := ok.flatMap blockVals
  { c with
    amax := max c.amax (amaxBits xs), nnan := c.nnan + countNaN xs
    npois := c.npois + (bs.filter fun b => b.scale == 255).length }

/-- The destination blocks of a group, m of them, from its source blocks, with the elements that set E (07 R126, R127, R144, R146):
a scale is taken over the inputs of its blocks, poisoned source blocks apart. -/
def quantBlocks (q : QuantDesc) (f : Fmt) (ws : Nat) (z : Option Block) (bs : List Block) (m : Nat) : List (Block × Nat) :=
  let all := (bs.any (quantOdd q.op ws)) || (z.map fun b => b.scale == 255).getD false
  let per := lanesOf f.width
  let k := dstCount ws f.width
  let h := srcCount ws f.width
  let feed := (List.range m).map fun d => (bs.drop (d / k * h)).take h
  let bad := feed.map fun l => all || l.any fun b => b.scale == 255
  let part := fun (d : Nat) (l : List Block) => ((l.flatMap (quantVals q.op z)).drop (d % k * per)).take per
  let vals := (List.range m).map fun d => part d (feed.getD d [])
  let seen := (List.range m).map fun d => if all then [] else part d ((feed.getD d []).filter fun b => b.scale != 255)
  let run := 2 ^ q.group
  let scales := quantScales q f (chunks run (ceilDiv m run) seen)
  (vals.zip (bad.zip scales)).map fun v =>
    let cs := if v.2.1 || v.2.2 == 255 then [] else quantElems q.op f z (vfMode q.vf) v.2.2 v.1
    (quantOut f (BitVec.ofNat 8 (vfFmt q.vf)) v.2.1 v.2.2 cs, (cs.filter fun x => x.e).length)

/-- One group of a command (07 R144, R146): sources from i (n of them), destinations from j (m of them). A destination that stalls holds
back the acceptance of all (16 R316). Writes that could overtake the engine's own to the same block are held back (16 R292). -/
def State.quantGroup (s : State) (die : Nat) (c : QuantCmd) (q : QuantDesc) (f : Fmt) (ws : Nat) (z : Option Block)
    (i n j m : Nat) : Got QuantCmd :=
  match s.quantReads (.start c.log) die c.ctx (gOff q.src) i n with
  | .wait t log => .wait t log
  | .ok t k rd =>
    match t.quantJudges k c.ctx (gOff q.dst) j m with
    | .wait u _ => .wait u k.all
    | .ok u k wr =>
      if (rd.any fun a => a.got.isNone) || (wr.any fun a => a.got.isNone) then
        .ok ((u.quantFaults die c (gOff q.src) 0 rd).quantFaults die c (gOff q.dst) 1 wr) k
          { c with status := 1, nskip := c.nskip + n }
      else if wr.any fun a => (a.got.map fun r => u.engineWaits (quantOwner die) r.1).getD false then .wait u k.all
      else
        let bs := rd.filterMap fun a => a.got
        let c := c.tally bs
        if q.op = 3 then .ok u k c
        else
          let outs := quantBlocks q f ws z bs m
          .ok (u.quantPuts die (gOff q.dst) (wr.zip (outs.map fun o => o.1))) k
            { c with done := c.done + m, nsat := c.nsat + (outs.map fun o => o.2).sum }

/-- The groups of a command from the next one on (07 R143, R144): gs source and gd destination blocks each, the last one shorter. A
command that waits keeps its place. -/
def State.quantGroups (s : State) (die : Nat) (c : QuantCmd) (q : QuantDesc) (f : Fmt) (ws : Nat) (z : Option Block)
    (gs gd nd : Nat) : Nat → State × QuantCmd
  | 0 => (s, c)
  | fuel + 1 =>
    let g := c.next
    if q.nsrc ≤ g * gs then (s, { c with ran := true })
    else
      match s.quantGroup die c q f ws z (g * gs) (min gs (q.nsrc - g * gs)) (g * gd) (min gd (nd - g * gd)) with
      | .wait t log => (t, { c with log := log })
      | .ok t _ d => t.quantGroups die { d with next := g + 1, log := [] } q f ws z gs gd nd fuel

/-- Read the zero-point block of op 1 and 2: none where the operation has none. -/
def State.zeroBlock (s : State) (j : Journal) (die : Nat) (c : QuantCmd) (q : QuantDesc) : Got (Access (Option Block)) :=
  if q.op = 1 ∨ q.op = 2 then
    match s.engineRead j (quantOwner die) c.ctx die 0 (gOff q.zp) true 0 with
    | .ok t k a => .ok t k { idx := 0, cause := a.cause, page := a.page, got := a.got.map some }
    | .wait t log => .wait t log
  else .ok s j (.yes 0 none)

/-- A zero-point block of the format that vqnt or vdeq asks for (07 R138, R139). -/
def zeroFits (q : QuantDesc) (ws : Nat) : Option Block → Bool
  | none => true
  | some b => if q.op == 1 then b.fmt.toNat == vfFmt q.vf else fmtInt b.fmt.toNat && widthOf b.fmt.toNat == ws

/-- The width of the sources: the first block's, vf's where it is refused or has none (07 R146). -/
def firstWidth (q : QuantDesc) : Option Block → Nat
  | some b => if (fmtOf b.fmt.toNat).isSome then widthOf b.fmt.toNat else q.wd
  | none => q.wd

/-- A command that has begun goes on (07 R144). -/
def State.quantGo (s : State) (die : Nat) (c : QuantCmd) (q : QuantDesc) (ws : Nat) (z : Option Block) : State × QuantCmd :=
  let f := q.fmt.getD fmt32
  let k := if q.op = 3 then 1 else dstCount ws f.width
  let gd := if q.op = 3 then 0 else max (2 ^ q.group) k
  let gs := if q.op = 3 then 1 else gd * srcCount ws f.width / k
  let nd := if q.op = 3 then 0 else q.ndst ws
  s.quantGroups die c q f ws z gs gd nd (q.nsrc + 1)

/-- Run a command, from its beginning or from where it stands (07 R144, R146): the first source block gives the width, then the zero
points are read, then the groups follow, the first block's access being that of the first group. -/
def State.quantCommand (s : State) (die : Nat) (c : QuantCmd) : State × QuantCmd :=
  let q := quantDesc c.desc
  let early := { c with ran := true, status := 2, log := [] }
  match c.begun with
  | some (ws, z) => s.quantGo die c q ws z
  | none =>
    if q.bad then (s, early)
    else
      match s.engineRead (.start c.log) (quantOwner die) c.ctx die 0 (gOff q.src) true 0 with
      | .wait t log => (t, { c with log := log })
      | .ok t j first =>
        let ws := firstWidth q first.got
        if q.badRun ws then (t, early)
        else
          match t.zeroBlock j die c q with
          | .wait u log => (u, { c with log := log })
          | .ok u k a =>
            match a.got with
            | none => (u.quantFaults die c (gOff q.zp) 0 [a], { c with ran := true, status := 1, nskip := q.nsrc, log := [] })
            | some z =>
              if !zeroFits q ws z then (u, early)
              else u.quantGo die { c with begun := some (ws, z), log := k.past.take 1 } q ws z

/-- The command served next (07 R143): the one that the engine works on; else contexts in turn, each in ticket order. -/
def QuantEngine.pick (q : QuantEngine) : Option QuantCmd :=
  let later := q.queue.filter fun c => q.served < c.ctx
  let least := fun l : List QuantCmd =>
    l.find? fun c => l.all fun d => c.ctx < d.ctx || (c.ctx == d.ctx && c.ticket ≤ d.ticket)
  match q.queue.find? QuantCmd.taken with
  | some c => some c
  | none =>
    match least later with
    | some c => some c
    | none => least q.queue

def QuantEngine.replace (q : QuantEngine) (c : QuantCmd) : QuantEngine :=
  { q with queue := q.queue.map fun d => if d.ctx == c.ctx && d.ticket == c.ticket then c else d }

/-- QUANT_COMMAND_RUN: the engine takes one command and executes it, as far as it need not wait (07 R143 to R146). -/
def State.quantRun (s : State) (die : Nat) : State :=
  let q := s.engine die
  if q.queue.any fun c => c.ran then s
  else
    match q.pick with
    | none => s
    | some c =>
      let r := s.quantCommand die c
      r.1.setEngine die { (r.1.engine die).replace r.2 with served := c.ctx }

/-- The statistics record (07 R145). -/
def QuantCmd.stats (c : QuantCmd) : List Byte :=
  leBytes 4 c.amax ++ leBytes 4 c.status ++ leBytes 8 c.done ++ leBytes 4 c.nsat ++ leBytes 4 c.nnan ++ leBytes 4 c.npois ++
  leBytes 4 c.nskip

/-- A command is complete: the timeline counter takes its ticket (07 R148). -/
def State.quantEnd (s : State) (die : Nat) (c : QuantCmd) : State :=
  let q := s.engine die
  s.setEngine die { q with
    queue := q.queue.filter fun e => !(e.ctx == c.ctx && e.ticket == c.ticket), tline := tput q.tline c.ctx c.ticket
    bad := if c.status = 0 then q.bad else tput q.bad c.ctx (c.ticket, c.status) }

/-- QUANT_COMMAND_COMPLETE: once every block has been written, on other chips too, the statistics record is written, and once that
is performed the command is complete (07 R145, R148; 09 R190). DESIGN CHOICE (log 98): a record that is refused is dropped with one
fault record, and the status stays as it was. -/
def State.quantDone (s : State) (die : Nat) : State :=
  let q := s.engine die
  match q.queue.find? fun c => c.ran with
  | none => s
  | some c =>
    let d := quantDesc c.desc
    if s.remote.any fun r => r.core == quantOwner die then s
    else if c.recorded || d.stat = 0 || d.stat / 2 ^ 60 ≠ 8 || d.stat % 32 ≠ 0 then s.quantEnd die c
    else
      match s.engineJudge (.start c.log) c.ctx 0 (gOff d.stat) with
      | .wait t log => t.setEngine die ((t.engine die).replace { c with log := log })
      | .ok t _ a =>
        match a.got with
        | none => (t.quantFaults die c (gOff d.stat) 1 [a]).quantEnd die c
        | some r =>
          let u := (t.charge r.2).engineBytes (quantOwner die) die (gOff d.stat) r c.stats
          if u.remote.any fun r => r.core == quantOwner die then
            u.setEngine die ((u.engine die).replace { c with recorded := true })
          else u.quantEnd die c

/-- An engine's answer to a command: its ticket, or 0 where the queue is full (07 R147). DESIGN CHOICE (log 98): the command that runs
still takes one of the 128 entries. Its reads observe what the slot wrote before (07 R148): the lines that the stations of its die hold
for the context are dropped. -/
def State.quantSubmit (s : State) (die : Nat) (d : List Byte) (at_ : Nat) : State × Reply :=
  let q := s.engine die
  if 128 ≤ q.queue.length then (s, .num 0)
  else
    let ctx := s.ctxOf s.curCore
    let n := tget 0 q.tickets ctx + 1
    let c : QuantCmd :=
      { ctx := ctx, gang := ((s.cluster (clusterOf s.curCore)).gang).getD 0, core := s.curCore, slot := s.curSlot, ticket := n
        desc := d, descAt := at_, ran := false, status := 0, amax := 0, done := 0, nsat := 0, nnan := 0, npois := 0, nskip := 0
        begun := none, next := 0, log := [], recorded := false }
    ((s.dropLines die ctx).setEngine die { q with queue := q.queue ++ [c], tickets := tput q.tickets ctx n }, .num n)

/-- qsub k, src (07 R147): 64 bytes of L, poison check included; the slot parks for the engine's answer. -/
def qsubRun (s : State) (die : Nat) (sp : Spec) (i : Int) : Run := do
  let (t, a) ← s.address sp i 8
  let (u, l) ← t.locate a 64 64 .read (fun tag => tag == 0) false false
  let (v, b) ← u.blockLoc l
  if b.scale = 255 then .error (s.faultAt v cPoison a)
  else do
    let (w, r) ← v.access (slowMem true) fun x => x.quantSubmit die b.data (offOf a)
    .ok ((w.setAcc (BitVec.ofNat 64 r.toNat)).setF (r.toNat == 0))

/-- What qstat reports of the engine of a die (07 R149); the command that runs counts in the queue (log 98). -/
def State.quantStatus (s : State) (die : Nat) : Nat :=
  let q := s.engine die
  let b := tget (0, 0) q.bad (s.ctxOf s.curCore)
  b.1 * 65536 + b.2 * 256 + (128 - q.queue.length)

/-- qstat k (07 R149). -/
def qstatRun (s : State) (die : Nat) : Run := do
  let (t, r) ← s.access (slowMem true) fun x => (x, .num (x.quantStatus die))
  .ok (t.setAcc (BitVec.ofNat 64 r.toNat))

/-- QSUB (07 R147). -/
def execQsub (k : BitVec 2) (sp : Spec) (i : BitVec 8) (s : State) : Host.Outcome State Fault Refusal :=
  retire s 4 4 (qsubRun s k.toNat sp i.toInt)

/-- QSTAT (07 R149). -/
def execQstat (k : BitVec 2) (s : State) : Host.Outcome State Fault Refusal := retire s 4 4 (qstatRun s k.toNat)

/-- QUANT_COMMAND_RUN (07 R144). -/
def execQuantCommandRun (die : Nat) (s : State) : Host.Outcome State Fault Refusal :=
  if die < 4 then .next (s.quantRun die) else .fault .noSuchUnit

/-- QUANT_COMMAND_COMPLETE (07 R148). -/
def execQuantCommandComplete (die : Nat) (s : State) : Host.Outcome State Fault Refusal :=
  if die < 4 then .next (s.quantDone die) else .fault .noSuchUnit

end Sys2Proof.Machine
end

