-- ==== Sys2Proof/Machine/Copies.lean ====
section
/-!
DEFINITION. Copies: the COPY class and the steps COPY_ACCEPT, COPY_SECTOR and COPY_COMPLETE (09 R177 to R189; 12 R237,
R238; 13 R248).
-/
namespace Sys2Proof.Machine

/-- A copy descriptor (09 R178); dimension 0 has no stride of its own. -/
structure CopyDesc where
  src    : Nat
  dst    : Nat
  crec   : Nat
  pad    : Nat
  fmt    : Nat
  ctl    : Nat
  zero   : Nat
  ss     : List Int
  ds     : List Int
  sx     : List Nat
  dx     : List Nat
  sst    : List Int
  dst_   : List Int
  deriving DecidableEq, Repr

def copyDesc (r : List Byte) : CopyDesc :=
  { src := field r 0 8, dst := field r 8 8, crec := field r 0x10 4, pad := field r 0x14 4, fmt := field r 0x18 1
    ctl := field r 0x19 1, zero := field r 0x1A 2
    ss := four.map fun d => fieldS r (0x1C + 4 * d) 4
    ds := four.map fun d => fieldS r (0x2C + 4 * d) 4
    sx := four.map fun d => field r (0x3C + 4 * d) 4
    dx := four.map fun d => field r (0x4C + 4 * d) 4
    sst := 0 :: [0, 1, 2].map fun d => fieldS r (0x5C + 6 * d) 6
    dst_ := 0 :: [0, 1, 2].map fun d => fieldS r (0x6E + 6 * d) 6 }

def CopyDesc.width (d : CopyDesc) : Nat := widthOf d.fmt

/-- A source in C: cells of 7 bytes delivered as images of 8 (13 R248). -/
def CopyDesc.fromC (d : CopyDesc) : Bool := d.src / 2 ^ 60 == 3

/-- Along dimension 0 a unit is one element, or one byte of two 4-bit elements, whose starts and extents are even (09 R178). -/
def CopyDesc.half (d : CopyDesc) : Nat := if d.width = 4 then 2 else 1

def CopyDesc.unit (d : CopyDesc) : Nat := if d.width = 4 then 1 else d.width / 8

/-- Bytes of a source unit. -/
def CopyDesc.sunit (d : CopyDesc) : Nat := if d.fromC then 7 else d.unit

def CopyDesc.rank (d : CopyDesc) : Nat := d.ctl % 8

def CopyDesc.mapped (d : CopyDesc) : Bool := 128 ≤ d.ctl

def CopyDesc.len (d : CopyDesc) (i : Nat) : Nat := if i = 0 then d.dx.getD 0 0 / d.half else d.dx.getD i 0

/-- Units of the box, and its sectors (09 R181). -/
def CopyDesc.units (d : CopyDesc) : Nat := d.len 0 * d.len 1 * d.len 2 * d.len 3

def CopyDesc.total (d : CopyDesc) : Nat := ceilDiv (d.units * d.unit) 512

/-- The completion record and the map lie in L (09 R179, R184). -/
def CopyDesc.recordFits (d : CopyDesc) : Bool :=
  d.crec % 32 == 0 && d.crec + 32 + (if d.mapped then ceilDiv d.total 8 else 0) ≤ 0x40000

def fits64 (x : Int) : Bool := -(2 ^ 63) ≤ x && x < 2 ^ 63

/-- The signed reading of a 64-bit base. -/
def base64 (b : Nat) : Int := if 2 ^ 63 ≤ b then (b : Int) - 2 ^ 64 else b

/-- Add the dimensions of one corner; none where a product or a sum overflows (09 R179). DESIGN CHOICE (log 108): a dimension of extent 0
has its corners at its start, and a copy that moves nothing is refused where a corner overflows. -/
def cornerSum (unit0 : Int → Int) (st : List Int) (ex : List Nat) (strides : List Int) (corner : Nat) (acc : Int) :
    List Nat → Bool
  | [] => true
  | k :: ks =>
    let c := st.getD k 0 + (if corner / 2 ^ k % 2 = 1 then ((ex.getD k 0 - 1 : Nat) : Int) else 0)
    let p := if k = 0 then unit0 c else c * strides.getD k 0
    fits64 p && fits64 (acc + p) && cornerSum unit0 st ex strides corner (acc + p) ks

def cornersFit (base : Nat) (unit0 : Int → Int) (st : List Int) (ex : List Nat) (strides : List Int) : Bool :=
  (List.range 16).all fun c => cornerSum unit0 st ex strides c (base64 base) four

/-- The spaces of a copy's two sides (09 R166, R177); kind 0 is a cluster copy engine. -/
def CopyDesc.spacesBad (d : CopyDesc) (kind : Nat) (packet : Bool) : Bool :=
  let a := d.src / 2 ^ 60
  let b := d.dst / 2 ^ 60
  !(if kind = 0 then decide (a ≤ 4) else a == 8) || !(b == 0 || b == 1 || b == 2 || b == 4 || b == 8) || (packet && b != 8)

/-- A descriptor error (09 R179, 13 R248). -/
def CopyDesc.bad (d : CopyDesc) (kind : Nat) (packet : Bool) : Bool :=
  d.zero != 0 || d.ctl / 8 % 16 != 0 || d.rank == 0 || 4 < d.rank || fmtReserved d.fmt ||
  (four.any fun k => d.rank ≤ k && (d.ss.getD k 0 != 0 || d.ds.getD k 0 != 0 || d.sx.getD k 0 != 1 || d.dx.getD k 0 != 1)) ||
  (d.width == 4 &&
    (d.ss.getD 0 0 % 2 != 0 || d.ds.getD 0 0 % 2 != 0 || d.sx.getD 0 0 % 2 != 0 || d.dx.getD 0 0 % 2 != 0)) ||
  d.spacesBad kind packet || (d.fromC && d.fmt != 0xC3) || (!packet && !d.recordFits) ||
  !cornersFit d.src (fun c => c * (if d.fromC then 56 else d.width) / 8) d.ss d.dx d.sst ||
  !cornersFit d.dst (fun c => c * d.width / 8) d.ds d.dx d.dst_

/-- One unit of a sector: where it goes, and where it comes from, or pad (09 R180). -/
structure CopyUnit where
  dst : Nat
  src : Option Nat
  deriving DecidableEq, Repr

def inside (c : Int) (n : Nat) : Bool := 0 ≤ c && c < n

/-- The index vector of unit n of the box, dimension 0 fastest (09 R181). -/
def CopyDesc.index (d : CopyDesc) (n : Nat) : List Int :=
  [((n % d.len 0 : Nat) : Int), ((n / d.len 0 % d.len 1 : Nat) : Int), ((n / (d.len 0 * d.len 1) % d.len 2 : Nat) : Int),
    ((n / (d.len 0 * d.len 1 * d.len 2) : Nat) : Int)]

def at64 (base : Nat) (x : Int) : Nat := (((base : Int) + x) % (2 ^ 64 : Int)).toNat

/-- Unit n: none when it is skipped (09 R180). -/
def CopyDesc.unitAt (d : CopyDesc) (n : Nat) : Option CopyUnit :=
  let i := d.index n
  let h : Int := d.half
  let cs := four.map fun k => (if k = 0 then d.ss.getD 0 0 / h else d.ss.getD k 0) + i.getD k 0
  let cd := four.map fun k => (if k = 0 then d.ds.getD 0 0 / h else d.ds.getD k 0) + i.getD k 0
  if !(four.all fun k => inside (cd.getD k 0) (d.len k)) then none
  else
    let dst := at64 d.dst (cd.getD 0 0 * d.unit + ([1, 2, 3].map fun k => cd.getD k 0 * d.dst_.getD k 0).sum)
    let src := at64 d.src (cs.getD 0 0 * d.sunit + ([1, 2, 3].map fun k => cs.getD k 0 * d.sst.getD k 0).sum)
    let ok := four.all fun k => inside (cs.getD k 0) (if k = 0 then d.sx.getD 0 0 / d.half else d.sx.getD k 0)
    some { dst := dst, src := if ok then some src else none }

/-- The units of sector k, in stream order (09 R181). -/
def CopyDesc.sector (d : CopyDesc) (k : Nat) : List CopyUnit :=
  let per := 512 / d.unit
  (List.range (min per (d.units - k * per))).filterMap fun j => d.unitAt (k * per + j)

/-- The bytes of a pad unit (09 R178). -/
def CopyDesc.padBytes (d : CopyDesc) : List Byte :=
  if d.width = 4 then [BitVec.ofNat 8 (d.pad % 16 * 17)] else leBytes d.unit d.pad

/-- The addresses that a run of units touches on a side, byte by byte. -/
def CopyDesc.srcBytes (d : CopyDesc) (us : List CopyUnit) : List Nat :=
  us.flatMap fun u => match u.src with
    | some a => (List.range d.sunit).map fun j => (a + j) % 2 ^ 64
    | none => []

def CopyDesc.dstBytes (d : CopyDesc) (us : List CopyUnit) : List Nat :=
  us.flatMap fun u => (List.range d.unit).map fun j => (u.dst + j) % 2 ^ 64

/-- Each 64-byte block of a list of addresses, once, in the order met. -/
def blocksOf : List Nat → List Nat → List Nat
  | [], seen => seen.reverse
  | a :: as, seen => blocksOf as (if seen.contains (a / 64 * 64) then seen else a / 64 * 64 :: seen)

/-- The kind, die and unit of an engine number (09 R183). -/
def engKind (e : Nat) : Nat := e / 4096 % 16
def engDie (e : Nat) : Nat := e / 1024 % 4
def engChip (e : Nat) : Nat := e / 65536

/-- Where the writes into one destination block go. -/
inductive Target where
  | buf (b g off : Nat)
  | glob (r : Route × PageEntry) (va : Nat)

/-- The page of a refused address (09 R183): of the entry in force, else the 64 KiB unit. -/
def State.faultPage (s : State) (ctx a cause : Nat) : Nat × Nat :=
  let unit := (a / 65536 * 65536, 65536)
  if a / 2 ^ 60 = 8 ∧ cause ≠ 5 then
    match s.entry ctx (a % 2 ^ 60) with
    | some e => if pteSizeCode e.pte = 3 then unit else (2 ^ 63 + e.va, pteSize e.pte)
    | none => unit
  else unit

/-- A refused address of a copy, at the page of the entry in force. -/
def State.copyNo (s : State) (c : Copy) (a cause : Nat) : State × Option Reply :=
  let p := s.faultPage c.ctx a cause
  (s, some (.refused cause p.1 p.2))

/-- JUDGE one block that a sector reads or writes in G (09 R166, R170); none where the sector waits. -/
def State.judgeG (s : State) (c : Copy) (a : Nat) (write : Bool) : State × Option Reply :=
  let va := a % 2 ^ 60
  if 2 ^ 57 ≤ va then s.copyNo c a 5
  else match s.verdict c.ctx va false (if write then .write else .read) with
    | .go r e => (s, some (.place (.glob r e va) write))
    | .refuse n => s.copyNo c a n
    | .stall => (s.freezeAt c.ctx va, none)
    | .pull key tile =>
      match (if write then none else s.entry c.ctx va) with
      | some e => (s.startPull key tile, some (.touch key tile e va))
      | none => s.copyNo c a 2

/-- JUDGE one source block of a copy (09 R166, R183); none while the accumulator tile it reads is in use (13 R248). -/
def State.judgeSource (s : State) (c : Copy) (a : Nat) : State × Option Reply :=
  if a / 2 ^ 60 = 8 then s.judgeG c a false
  else if engKind c.engine ≠ 0 then s.copyNo c a 5
  else
    match place c.core (BitVec.ofNat 64 a) with
    | .buf b g off =>
      if b = 3 ∧ (s.core g).busyFor (8 + off / 0x7000) = true then (s, none) else (s, some (.place (.buf false b g off) false))
    | _ => s.copyNo c a 5

/-- JUDGE one destination block of a copy (09 R166, R170; 15 R272). -/
def State.judgeTarget (s : State) (c : Copy) (a : Nat) : State × Option Reply :=
  if a / 2 ^ 60 = 8 then s.judgeG c a true
  else if c.packet.isSome then s.copyNo c a 5
  else
    match place c.core (BitVec.ofNat 64 a) with
    | .buf b g off => if b = 3 ∨ (b = 0 ∧ s.supervisor g off 64) then s.copyNo c a 5 else (s, some (.place (.buf false b g off) true))
    | _ => s.copyNo c a 5

def judgeEach (f : State → Nat → State × Option Reply) (s : State) : List Nat → State × Option (List Reply)
  | [] => (s, some [])
  | a :: as =>
    match f s a with
    | (t, none) => (t, none)
    | (t, some r) =>
      let x := judgeEach f t as
      (x.1, x.2.map fun l => r :: l)

/-- A SECTOR IS JUDGED once, at one moment, as the one operation it is (06 R95, 12 R238): every block that it reads or writes. none
where it waits: it is judged anew when the stall ends (log 98). -/
def State.judgeSector (s : State) (c : Copy) (sbs dbs : List Nat) : State × Option (List Reply) :=
  if !c.log.isEmpty then (s, some c.log)
  else
    match judgeEach (fun t a => t.judgeSource c a) s sbs with
    | (t, none) => (t, none)
    | (t, some rs) =>
      let x := judgeEach (fun t a => t.judgeTarget c a) t dbs
      (x.1, x.2.map fun ws => rs ++ ws)

/-- A refused access of a judged sector. -/
def refusedAccess (a cause page size : Nat) : Access α := { idx := a, cause := cause, page := (page, size), got := none }

/-- Take one source block of a judged sector (12 R237); C is read cell by cell. A touch whose pull is refused is refused at its view's
page. -/
def State.copyTake (s : State) (j : Journal) (id : Nat) (c : Copy) (d : CopyDesc) (a : Nat) : Got (Access Block) :=
  match j.rest with
  | .refused n p z :: _ => .ok s (j.note (.refused n p z)) (refusedAccess a n p z)
  | .place (.buf w b g off) k :: _ =>
    if b = 3 then
      (if (s.core g).busyFor (8 + off / 0x7000) then .wait s j.all
       else
         .ok s (j.note (.place (.buf w b g off) k)) (.yes a { data := mgets s.mem (cKey g off) 64, fmt := 0xC3, scale := 127 }))
    else
      let t := s.sense c.ctx (bufKey b g off) 64
      t.gotBlock j a (blockAt t.mem (bufKey b g off))
  | .touch key tile e va :: _ =>
    (match s.tileRoute key tile e va with
     | some (some r) => s.engineTake j (copyOwner id) (engDie c.engine) a va false (BitVec.ofNat 8 d.fmt) r e
     | some none =>
       .ok s (j.note (.refused 3 (2 ^ 63 + e.va) (pteSize e.pte))) (refusedAccess a 3 (2 ^ 63 + e.va) (pteSize e.pte))
     | none => .wait s j.all)
  | _ => s.engineRead j (copyOwner id) c.ctx (engDie c.engine) a (a % 2 ^ 60) false (BitVec.ofNat 8 d.fmt)

/-- The place of one destination block of a judged sector. -/
def State.copyTarget (s : State) (j : Journal) (a : Nat) : Got (Access Target) :=
  match j.rest with
  | .place (.glob r e va) w :: _ => .ok s (j.note (.place (.glob r e va) w)) (.yes a (.glob (r, e) va))
  | .place (.buf w b g off) k :: _ => .ok s (j.note (.place (.buf w b g off) k)) (.yes a (.buf b g off))
  | .refused n p z :: _ => .ok s (j.note (.refused n p z)) (refusedAccess a n p z)
  | _ => .ok s j (.no a 5)

/-- The refusals of a judgement, block by block. -/
def refusals : List Nat → List Reply → List (Access Block)
  | a :: as, .refused n p z :: rs => refusedAccess a n p z :: refusals as rs
  | a :: as, _ :: rs => .yes a (poisonBlock 0) :: refusals as rs
  | _, _ => []

/-- Make accesses one after another; the first that waits stops the rest. -/
def eachAccess (f : State → Journal → Nat → Got (Access α)) (s : State) (j : Journal) : List Nat → Got (List (Access α))
  | [] => .ok s j []
  | a :: as =>
    match f s j a with
    | .wait t l => .wait t l
    | .ok t k x =>
      match eachAccess f t k as with
      | .wait t l => .wait t l
      | .ok t k xs => .ok t k (x :: xs)

/-- A virtual address as records give it: without its space tag for G (09 R172, R183; 12 R239). -/
def untagged (a : Nat) : Nat := if a / 2 ^ 60 = 8 then a % 2 ^ 60 else a

/-- The sector at a position of a copy's pass. -/
def Copy.sectorAt (c : Copy) (i : Nat) : Nat := if c.replay then c.todo.getD i 0 else i

/-- Whether a sector touches a page. -/
def CopyDesc.touches (d : CopyDesc) (k page size : Nat) : Bool :=
  let us := d.sector k
  (d.srcBytes us ++ d.dstBytes us).any fun a => decide (page ≤ a) && decide (a < page + size)

/-- The last position of a pass whose sector touches a page, from position m + lo down; lo if none above it does. -/
def Copy.lastTouch (c : Copy) (d : CopyDesc) (page size lo : Nat) : Nat → Nat
  | 0 => lo
  | m + 1 => if d.touches (c.sectorAt (lo + m + 1)) page size then lo + m + 1 else c.lastTouch d page size lo m

/-- Note a refused address of the sector at position i on its page; a page counts a sector once (09 R183). DESIGN CHOICE (log 108): cause
and side are those of the first refusal noted, the source's before the destination's (12 R238). -/
def Copy.noteFault (c : Copy) (d : CopyDesc) (count i page size va cause side : Nat) : List (CopyFault × Nat) → List (CopyFault × Nat)
  | [] =>
    [({ page := page, size := size, va := untagged va, cause := cause, side := side, first := c.sectorAt i, count := 1
        last := c.lastTouch d page size i (count - 1 - i) }, i)]
  | (f, seen) :: r =>
    if f.page = page ∧ f.size = size then
      ({ f with va := min f.va (untagged va), count := if seen = i then f.count else f.count + 1 }, i) :: r
    else (f, seen) :: c.noteFault d count i page size va cause side r

/-- The refused addresses of one side of the sector at position i. -/
def Copy.noteSide (c : Copy) (d : CopyDesc) (count i side : Nat) (bytes : List Nat) :
    List (Access α) → List (CopyFault × Nat) → List (CopyFault × Nat)
  | [], fs => fs
  | a :: as, fs =>
    if a.got.isSome then c.noteSide d count i side bytes as fs
    else
      let mine := bytes.filter fun b => b / 64 * 64 == a.idx
      let va := mine.foldl min (mine.headD a.idx)
      c.noteSide d count i side bytes as (c.noteFault d count i a.page.1 a.page.2 va a.cause side fs)

/-- A byte to be written: its offset in its block, its value, the descriptor its source gives. -/
structure CopyByte where
  off   : Nat
  val   : Byte
  fmt   : Byte
  scale : Byte
  deriving DecidableEq, Repr

def findBlock (l : List (Access Block)) (a : Nat) : Block :=
  match l.find? fun x => x.idx == a with
  | some x => x.got.getD (poisonBlock 0)
  | none => poisonBlock 0

/-- The image bytes of a C cell and whether it is poisoned (13 R248). -/
def State.cellImage (s : State) (c : Copy) (a : Nat) : List Byte × Bool :=
  match place c.core (BitVec.ofNat 64 a) with
  | .buf 3 g off =>
    let t := off / 0x7000
    let i := off % 0x7000 / 0x1C0
    let j := off % 0x1C0 / 7
    let x := tget AccTile.reset (s.core g).acc t
    let v := mread s.mem (cKey g off) 7
    let bits :=
      if x.status.getLsbD 0 then
        let w : Int := if v < 2 ^ 55 then v else (v : Int) - 2 ^ 56
        ((fmtOf 0xC3).getD fmt32).convert 0 127 (.fin (decide (w < 0)) w.natAbs 0) |>.bits
      else v * 256
    (leBytes 8 bits, x.rmask.getLsbD i || x.cmask.getLsbD j)
  | _ => (leBytes 8 0, true)

/-- The bytes that one unit writes, with their addresses (09 R180, R182). -/
def State.unitBytes (s : State) (c : Copy) (d : CopyDesc) (src : List (Access Block)) (u : CopyUnit) : List (Nat × CopyByte) :=
  let mk := fun (j : Nat) (v f sc : Byte) =>
    let a := (u.dst + j) % 2 ^ 64
    (a / 64 * 64, { off := a % 64, val := v, fmt := f, scale := sc : CopyByte })
  match u.src with
  | none => d.padBytes.zipIdx.map fun p => mk p.2 p.1 (BitVec.ofNat 8 d.fmt) 127
  | some a =>
    if d.fromC then
      let x := s.cellImage c a
      x.1.zipIdx.map fun p => mk p.2 p.1 0xC3 (if x.2 then 255 else 127)
    else
      (List.range d.unit).map fun j =>
        let b := (a + j) % 2 ^ 64
        let k := findBlock src (b / 64 * 64)
        mk j (k.data.getD (b % 64) 0) k.fmt k.scale

/-- The byte with the lowest offset. -/
def lowest : List CopyByte → Option CopyByte
  | [] => none
  | x :: xs => match lowest xs with
    | some y => some (if x.off ≤ y.off then x else y)
    | none => some x

/-- The record of a destination block after the writes of one sector (09 R182): bs are the bytes that stand, and bad says that
some byte written came from a poisoned block. -/
def mergeBlock (a : Nat) (old : Option CopyBlock) (bad : Bool) (bs : List CopyByte) : CopyBlock :=
  match lowest bs, old with
  | some b, some o =>
    if o.low < b.off then { o with poison := o.poison || bad }
    else { addr := a, low := b.off, fmt := b.fmt, scale := b.scale, poison := o.poison || bad }
  | some b, none => { addr := a, low := b.off, fmt := b.fmt, scale := b.scale, poison := bad }
  | none, some o => o
  | none, none => { addr := a, low := 64, fmt := 0, scale := 127, poison := false }

/-- Consecutive bytes as runs. -/
def runsOf : List CopyByte → List (Nat × List Byte)
  | [] => []
  | b :: r =>
    match runsOf r with
    | (o, l) :: t => if o = b.off + 1 then (b.off, b.val :: l) :: t else (b.off, [b.val]) :: (o, l) :: t
    | [] => [(b.off, [b.val])]

/-- A write by an engine into a buffer: data bytes, watches, watchpoints (10 R203, 21 R352). -/
def State.engineBuf (s : State) (ctx engine b g off : Nat) (bs : List Byte) : State :=
  let s := (s.writeBytes (bufKey b g off) bs).mend ctx (bufKey b g off) bs.length false
  let s := if b = 0 then s.fire g off bs.length none else s
  if b ≤ 1 then s.struck b g off bs.length 1 0 (engine % 65536) else s

def Route.add (o : Nat) : Route → Route
  | .here pa => .here (pa + o)
  | .chip k pa => .chip k (pa + o)
  | .host h a => .host h (a + o)

def State.putRuns (s : State) (id : Nat) (c : Copy) (t : Target) : List (Nat × List Byte) → State
  | [] => s
  | (o, l) :: r =>
    let u := match t with
      | .buf b g off => s.engineBuf c.ctx c.engine b g (off + o) l
      | .glob x va => s.engineBytes (copyOwner id) (engDie c.engine) (va + o) (x.1.add o, x.2) l
    u.putRuns id c t r

/-- The descriptor of a destination block; a write of a descriptor counts as a write of its block (10 R203, 21 R350, R352). -/
def State.putDesc (s : State) (c : Copy) (t : Target) (f sc : Byte) : State :=
  match t with
  | .buf b g off =>
    let s := { s with mem := setDesc s.mem (bufKey b g off) (some f) sc }
    let s := if b = 0 then s.fire g off 64 none else s
    if b ≤ 1 then s.struck b g off 64 1 0 (c.engine % 65536) else s
  | .glob (.here pa, e) va => { s with mem := setDesc s.mem pa (some f) sc }.patchDesc (engDie c.engine) e va (some f) sc
  | .glob _ _ => s

/-- A buffer's block that is replaced whole is clean (09 R192). -/
def State.renew (s : State) (ctx : Nat) : Target → State
  | .buf b g off => s.mend ctx (bufKey b g off) 64 true
  | .glob _ _ => s

/-- Whether the merge of some runs of bytes into a block finds an uncorrectable error, or an earlier one of the copy at another chip
has: the block is poisoned then, for the rest of the copy too (09 R182, R192, R193). -/
def State.mergeFlawed (s : State) (c : Copy) (t : Target) (runs : List (Nat × List Byte)) : Bool :=
  let at_ := fun k => runs.any fun r => s.flawed (k + r.1) r.2.length true false
  match t with
  | .buf b g off => at_ (bufKey b g off)
  | .glob (.here pa, _) _ => at_ (pa / 64 * 64)
  | .glob (.chip k pa, _) _ => c.spoiled.contains (k, pa / 64 * 64)
  | _ => false

/-- Write part of a destination block: the bytes, then the descriptor (07 R123, 09 R182); a block of another chip as one request. -/
def State.putPart (s : State) (id : Nat) (c : Copy) (t : Target) (runs : List (Nat × List Byte)) (f sc : Byte) : State :=
  match t with
  | .glob (.chip k pa, e) va =>
    ((s.request (copyOwner id) 0 e.ctx k (pa / 64 * 64) (.merge runs f sc)).patchRuns (engDie c.engine) e va runs).patchDesc
      (engDie c.engine) e va (some f) sc
  | _ => (s.putRuns id c t runs).putDesc c t f sc

/-- Write one destination block: a whole block of G as one, else its bytes and its descriptor (07 R123, 09 R182). -/
def State.putTarget (s : State) (id : Nat) (c : Copy) (t : Target) (bs : List CopyByte) (f sc : Byte) : State :=
  match t with
  | .glob x va =>
    if bs.length = 64 then s.enginePut (copyOwner id) (engDie c.engine) va x { data := bs.map fun b => b.val, fmt := f, scale := sc }
    else s.putPart id c t (runsOf bs) f sc
  | _ => (if bs.length = 64 then s.renew c.ctx t else s).putPart id c t (runsOf bs) f sc

/-- Write the blocks of a sector (09 R181, R182): the state and the copy's block records. -/
def State.copyWrites (s : State) (id : Nat) (c : Copy) (bytes : List (Nat × CopyByte)) :
    List (Access Target) → State × Copy
  | [] => (s, c)
  | a :: as =>
    match a.got with
    | none => s.copyWrites id c bytes as
    | some t =>
      let mine := (bytes.filter fun b => b.1 == a.idx).map fun b => b.2
      -- a later byte of the stream for the same place wins
      let last := (List.range 64).filterMap fun o => (mine.filter fun b => b.off == o).getLast?
      let old := c.blocks.find? fun b => b.addr == a.idx
      let bad := (mine.any fun b => b.scale == 255) || last.length != 64 && s.mergeFlawed c t (runsOf last)
      let m := mergeBlock a.idx old bad last
      let u := s.putTarget id c t last m.fmt (if m.poison then 255 else m.scale)
      u.copyWrites id { c with blocks := m :: c.blocks.filter fun b => b.addr != a.idx } bytes as

/-- The counted pages that a sector touched count it once each (09 R172). -/
def State.chargePages (s : State) (ctx : Nat) : List Nat → List Nat → State
  | [], _ => s
  | a :: as, seen =>
    if a / 2 ^ 60 = 8 then
      match s.entry ctx (a % 2 ^ 60) with
      | some e => if seen.contains e.va then s.chargePages ctx as seen else (s.charge e).chargePages ctx as (e.va :: seen)
      | none => s.chargePages ctx as seen
    else s.chargePages ctx as seen

/-- Whether the gang of a copy still takes the end of its copies on its cores (09 R189). -/
def State.copyHome (s : State) (c : Copy) : Bool :=
  let x := s.gang c.gang
  x.state == .running || x.state == .halting

/-- A write of a copy's record or map into its core's L: one that meets the supervisor range is refused, and nothing of it is
written (15 R272; log 90). -/
def State.recordWrite (s : State) (c : Copy) (off : Nat) (bs : List Byte) : State :=
  if s.supervisor c.core off bs.length then s else s.engineBuf c.ctx c.engine 0 c.core off bs

/-- Clear bits of the miss map (09 R187). -/
def State.clearBits (s : State) (c : Copy) (d : CopyDesc) : List Nat → State
  | [] => s
  | k :: ks =>
    let off := d.crec + 32 + k / 8
    let s := s.sense c.ctx (lKey c.core off) 1
    let b := (mget s.mem (lKey c.core off)).toNat
    (s.recordWrite c off [BitVec.ofNat 8 (if b / 2 ^ (k % 8) % 2 = 1 then b - 2 ^ (k % 8) else b)]).clearBits c d ks

def State.setCopy (s : State) (id : Nat) (c : Copy) : State := { s with copies := tput s.copies id c }

/-- Sectors of the pass. -/
def Copy.count (c : Copy) : Nat := if c.replay then c.todo.length else (copyDesc c.desc).total

/-- The oldest copy of an engine's queue runs. -/
def State.headCopy (s : State) (id : Nat) : Bool :=
  match s.copies.lookup id with
  | some c => !(s.copies.any fun e => e.1 < id && e.2.engine == c.engine && !e.2.suspended && !e.2.ended)
  | none => false

/-- A C source address that is no cell boundary (13 R248). -/
def CopyDesc.offCell (d : CopyDesc) (us : List CopyUnit) : Option Nat :=
  if d.fromC then us.findSome? fun u => match u.src with
    | some a => if a % 2 ^ 60 % 7 = 0 ∧ a % 2 ^ 60 < 0x38000 then none else some a
    | none => none
  else none

/-- A copy with a side in a buffer of the cluster (09 R189). -/
def Copy.inBuffers (c : Copy) : Bool :=
  let d := copyDesc c.desc
  d.src / 2 ^ 60 != 8 || d.dst / 2 ^ 60 != 8

/-- A copy that takes no further sector: its cluster copy engine is frozen by a debug halt (21 R345), or its gang is halting and it has
a side in the cluster's buffers. The sector that it has begun is completed in the drain (09 R189, 21 R346). -/
def State.copyStands (s : State) (c : Copy) : Bool :=
  c.log.isEmpty &&
    (engKind c.engine == 0 && engChip c.engine == s.chip && (s.cluster (64 * engDie c.engine + c.engine % 64)).frozen ||
      c.packet.isNone && c.inBuffers && (s.gang c.gang).state == .halting)

/-- Append the records of the fault pages whose last sector stands at position i (09 R183, 12 R238). -/
def State.copyFaults (s : State) (c : Copy) (i : Nat) : List CopyFault → State
  | [] => s
  | f :: fs =>
    let core := if c.packet.isSome then 0xFFFF else c.core
    (if f.last = i then
       s.slotFault c.ctx core (faultBytes f.va c.ctx (c.engine % 65536) f.cause f.side (engChip c.engine) core
         (if c.packet.isSome then 0xFF else c.slot) c.tok c.descAt f.first f.count)
     else s).copyFaults c i fs

/-- The accumulator tiles that a sector has read are in use until its move ends (13 R248, R259). -/
def State.useCells (s : State) (c : Copy) : List Nat → State
  | [] => s
  | a :: as =>
    match place c.core (BitVec.ofNat 64 a) with
    | .buf 3 g off =>
      let x := s.core g
      let u : Use := { slot := copySlot, tile := 8 + off / 0x7000, write := false, till := x.cycle + 1 + Config.latency s.ticks }
      (if x.uses.contains u then s else s.setCore g { x with uses := u :: x.uses }).useCells c as
    | _ => s.useCells c as

/-- A sector that has been judged and read is written (09 R181, R182, R187): a bit of the miss map of a gang that is saved waits for
its restore (R189). -/
def State.moveSector (s : State) (id : Nat) (c : Copy) (d : CopyDesc) (k : Nat) (us : List CopyUnit) (sb db : List Nat)
    (src : List (Access Block)) (dst : List (Access Target)) : State :=
  let bytes := us.flatMap (s.unitBytes c d src)
  let t := (if d.fromC then s.useCells c sb else s).chargePages c.ctx (blocksOf sb [] ++ blocksOf db []) []
  let v := t.copyWrites id c bytes dst
  let home := v.1.copyHome c
  let x := { v.2 with
    next := c.next + 1, moved := c.moved + bytes.length, log := []
    cleared := if c.replay && !home then c.cleared ++ [k] else c.cleared }
  let y := v.1.setCopy id x
  (if c.replay && home then y.clearBits c d [k] else y).copyFaults c c.next c.faults

/-- A sector that is refused becomes missing (09 R183). DESIGN CHOICE (log 98): it counts at no counted page (09 R172). -/
def State.missSector (s : State) (id : Nat) (c : Copy) (d : CopyDesc) (k : Nat) (sb db : List Nat) (src : List (Access α))
    (dst : List (Access β)) : State :=
  let seen := c.faults.map fun f => (f, c.count)
  let fs := (c.noteSide d c.count c.next 1 db dst (c.noteSide d c.count c.next 0 sb src seen)).map fun f => f.1
  (s.setCopy id { c with next := c.next + 1, missing := c.missing ++ [k], faults := fs, log := [] }).copyFaults c c.next fs

/-- Whether a target is a block to which the copy has a write on its way. -/
def State.targetWaits (s : State) (id : Nat) (a : Access Target) : Bool :=
  match a.got with
  | some (.glob r _) => s.engineWaits (copyOwner id) r.1
  | _ => false

/-- A judged sector takes its source blocks, waiting for those of other chips and for pulls; then it is written (09 R181). -/
def State.goSector (s : State) (id : Nat) (c : Copy) (d : CopyDesc) (k : Nat) (us : List CopyUnit) (sb db : List Nat)
    (log : List Reply) : State :=
  match eachAccess (fun t j a => t.copyTake j id c d a) s (.start log) (blocksOf sb []) with
  | .wait t l => t.setCopy id { c with log := l }
  | .ok t j src =>
    match eachAccess (fun t j a => t.copyTarget j a) t j (blocksOf db []) with
    | .wait t l => t.setCopy id { c with log := l }
    | .ok t j dst =>
      if src.any fun a => a.got.isNone then t.missSector id c d k sb db src dst
      else if dst.any (t.targetWaits id) then t.setCopy id { c with log := j.all }
      else t.moveSector id c d k us sb db src dst

/-- COPY_SECTOR: the next sector of an accepted copy moves, becomes missing, or waits (09 R181 to R183). -/
def State.copySector (s : State) (id : Nat) : State :=
  match s.copies.lookup id with
  | none => s
  | some c =>
    if !c.accepted || c.suspended || c.ended || c.status = 2 || c.count ≤ c.next || s.copyStands c then s
    else
      let d := copyDesc c.desc
      let k := c.sectorAt c.next
      let us := d.sector k
      let sb := d.srcBytes us
      let db := d.dstBytes us
      let sbs := blocksOf sb []
      let dbs := blocksOf db []
      match s.judgeSector c sbs dbs with
      | (t, none) => t
      | (t, some log) =>
        let bad : List (Access Block) := match d.offCell us with
          | some a => [refusedAccess (a / 64 * 64) 5 (s.faultPage c.ctx a 5).1 (s.faultPage c.ctx a 5).2]
          | none => []
        let rs := bad ++ refusals sbs log
        let ws := refusals dbs (log.drop sbs.length)
        if c.log.isEmpty ∧ ((rs ++ ws).any fun a => a.got.isNone) then t.missSector id c d k sb db rs ws
        else t.goSector id c d k us sb db log

/-- The set bits of a miss map. -/
def mapBits (bs : List Byte) (n : Nat) : List Nat :=
  (List.range n).filter fun k => (bs.getD (k / 8) 0).toNat / 2 ^ (k % 8) % 2 == 1

/-- A descriptor that the engine refuses with status 2 (09 R179, R187). -/
def Copy.refused (c : Copy) : Bool :=
  let d := copyDesc c.desc
  d.bad (engKind c.engine) c.packet.isSome || (c.replay && !d.mapped)

/-- COPY_ACCEPT: the engine takes the descriptor or gives it status 2; a replay reads its map (09 R179, R187). -/
def State.copyAccept (s : State) (id : Nat) : State :=
  match s.copies.lookup id with
  | none => s
  | some c =>
    if c.accepted then s
    else
      let d := copyDesc c.desc
      if c.refused then s.setCopy id { c with accepted := true, status := 2 }
      else
        let n := ceilDiv d.total 8
        let t := if c.replay then s.sense c.ctx (lKey c.core (d.crec + 32)) n else s
        let todo := if c.replay then mapBits (mgets t.mem (lKey c.core (d.crec + 32)) n) d.total else []
        t.setCopy id { c with accepted := true, todo := todo }

/-- The lowest faulting address, 0 for none. -/
def firstFault : List CopyFault → Nat
  | [] => 0
  | [f] => f.va
  | f :: fs => min f.va (firstFault fs)

/-- The completion record (09 R184). -/
def recordBytes (moved total missing status first : Nat) : List Byte :=
  leBytes 8 moved ++ leBytes 4 total ++ leBytes 4 missing ++ leBytes 4 status ++ leBytes 4 0 ++ leBytes 8 first

def mapBytes (missing : List Nat) (n : Nat) : List Byte :=
  (List.range (ceilDiv n 8)).map fun b =>
    BitVec.ofNat 8 (((List.range 8).filter fun j => missing.contains (8 * b + j)).foldl (fun m j => m + 2 ^ j) 0)

/-- What follows the total in the completion record. -/
def recordTail (missing status first : Nat) : List Byte :=
  leBytes 4 missing ++ leBytes 4 status ++ leBytes 4 0 ++ leBytes 8 first

/-- Write the completion record and the map of a copy at a status; the bytes moved (09 R184, R187). DESIGN CHOICE (log 108): after a
replay first is the lower of what stood there and the lowest address that failed now, 0 standing for none. -/
def State.writeRecord (s : State) (c : Copy) (status : Nat) : State × Nat :=
  let d := copyDesc c.desc
  let k := lKey c.core d.crec
  let s := if c.replay && d.recordFits then s.sense c.ctx k (32 + if d.mapped then ceilDiv d.total 8 else 0) else s
  let old := mread s.mem k 8
  if !d.recordFits then (s, 0)
  else if c.status = 2 then
    (if c.replay then (s.recordWrite c (d.crec + 16) (leBytes 4 2), old)
     else
       let t := s.recordWrite c d.crec (recordBytes 0 0 0 2 0)
       (if d.mapped then t.recordWrite c (d.crec + 32) (mapBytes [] d.total) else t, 0))
  else if c.replay then
    let left := (mapBits (mgets s.mem (k + 32) (ceilDiv d.total 8)) d.total).length
    let before := mread s.mem (k + 24) 8
    let now := firstFault c.faults
    let first := if before = 0 then now else if now = 0 then before else min before now
    let st := if status = 3 then 3 else if left = 0 then 0 else 1
    let t := s.recordWrite c d.crec (leBytes 8 (old + c.moved))
    (t.recordWrite c (d.crec + 12) (recordTail left st first), old + c.moved)
  else
    let st := if status = 3 then 3 else if c.missing.isEmpty then 0 else 1
    let t := s.recordWrite c d.crec (recordBytes c.moved d.total c.missing.length st (firstFault c.faults))
    (if d.mapped && st != 3 then t.recordWrite c (d.crec + 32) (mapBytes c.missing d.total) else t, c.moved)

/-- The final status of a copy. -/
def State.finalStatus (s : State) (c : Copy) : Nat :=
  let d := copyDesc c.desc
  if c.status = 2 then 2
  else if c.replay then (if (mapBits (mgets s.mem (lKey c.core (d.crec + 32)) (ceilDiv d.total 8)) d.total).isEmpty then 0 else 1)
  else if c.missing.isEmpty then 0 else 1

/-- Deliver the end of a copy to its slot: the record and the map, then the token (09 R188). -/
def State.copyDeliver (s : State) (id : Nat) (c : Copy) : State :=
  let st := s.finalStatus c
  let r := s.writeRecord c st
  let x := r.1.slot c.core c.slot
  let tok := { tget Tok.idle x.tok c.tok with busy := false, status := st, moved := BitVec.ofNat 64 r.2 }
  { r.1.setSlot c.core c.slot { x with tok := tput x.tok c.tok tok } with copies := tdel r.1.copies id }.leaveEngine c

/-- The end of a copy packet (20 R332, R334): bytes moved, and the sectors missing as the detail. -/
def State.copyPacketDone (s : State) (id k : Nat) (c : Copy) : State :=
  let st := if c.status = 2 then 6 else if c.missing.isEmpty then 0 else 4
  let tl := ((s.started.lookup k).map (·.tl)).getD 0
  (({ s with copies := tdel s.copies id }.leaveEngine c).tlDone c.ctx tl).finishPacket k (BitVec.ofNat 64 c.moved) st c.missing.length

/-- COPY_COMPLETE: the record, the map and the token, or the end of the packet; a copy whose gang is
saved keeps them until the restore (09 R183, R188, R189). Writes on their way to another chip are awaited first. -/
def State.copyComplete (s : State) (id : Nat) : State :=
  match s.copies.lookup id with
  | none => s
  | some c =>
    if !c.accepted || c.suspended || c.ended || (c.status ≠ 2 && c.next < c.count) ||
        (s.remote.any fun r => r.core == copyOwner id) then s
    else
      match c.packet with
      | some k => s.copyPacketDone id k c
      | none => if s.copyHome c then s.copyDeliver id c else s.setCopy id { c with ended := true }

/-- The engine of a copy whose source base is given (09 R177). DESIGN CHOICE (log 94): a source base in a view's page whose tile is
not pulled translates to no frame, and takes the streamer of a base that the station refuses. -/
def State.engineFor (s : State) (g ctx src : Nat) : Nat :=
  let cce := s.chip * 65536 + dieOf g * 1024 + clusterOf g % 64
  let fall := s.chip * 65536 + 4096 + dieOf g * 1024 + 4 * (stationOf (src % 2 ^ 60) / 4)
  let stream := fun (chip pa : Nat) => chip * 65536 + 4096 + dieOfPa pa * 1024 + bankOf pa % 128 / 2
  if src / 2 ^ 60 = 8 then
    if 2 ^ 57 ≤ src % 2 ^ 60 then fall
    else match s.verdict ctx (src % 2 ^ 60) false .read with
      | .go (.here pa) _ => stream s.chip pa
      | .go (.chip c pa) _ => stream c pa
      | .go (.host l _) _ => s.chip * 65536 + 4096 + linkDie l * 1024
      | _ => fall
  else cce

/-- A queue has room for 32 descriptors, those of other chips among them (09 R177). -/
def State.engineRoom (s : State) (e : Nat) : Bool :=
  (s.copies.filter fun c => c.2.engine == e && !c.2.ended && !c.2.suspended).length +
    (s.guests.filter fun g => s.chip * 65536 + g.engine == e).length < 32

/-- The 128 bytes of a descriptor, read as sixteen scalar loads of L (09 R186). -/
def State.descLoads (s : State) (a : Word) (j : Nat) : Nat → Except Stop (State × List Byte)
  | 0 => .ok (s, [])
  | n + 1 => do
    let (t, l) ← s.locate (ptrAdd a (8 * j)) 8 8 .read (fun t => t == 0) false false
    let (u, v) ← t.loadLoc (ptrAdd a (8 * j)) 8 l
    let (w, r) ← u.descLoads a (j + 1) n
    .ok (w, leBytes 8 v ++ r)

/-- The engine has taken a copy: it stands in the queue, and its token is busy; its reads observe what the slot wrote before, so the
lines that the stations of its die hold for the context are dropped (09 R186). guest as in Copy. -/
def State.copyTaken (s : State) (k e : Nat) (d : List Byte) (at_ : Nat) (replay : Bool) (guest : Option Nat) : State :=
  let g := s.curCore
  let c : Copy :=
    { core := g, slot := s.curSlot, tok := k, ctx := s.ctxOf g, gang := ((s.cluster (clusterOf g)).gang).getD 0, desc := d
      descAt := at_, engine := e, accepted := false, suspended := false, ended := false, status := 0, next := 0
      todo := [], moved := 0, missing := [], faults := [], blocks := [], replay := replay, packet := none, log := [], cleared := []
      guest := guest, spoiled := [] }
  let t := { s.dropLines (engDie e) c.ctx with nextId := s.nextId + 1, copies := tput s.copies s.nextId c }
  let tok := { tget Tok.idle t.cur.tok k with busy := true, desc := at_, crec := field d 0x10 4 }
  t.setCur { t.cur with tok := tput t.cur.tok k tok }

/-- An engine has taken the copy of packet k (09 R177, 20 R332): what the host has written before is seen (20 R330). -/
def State.packetTaken (s : State) (k e : Nat) (p : Packet) (guest : Option Nat) : State :=
  let c : Copy :=
    { core := 0xFFFF, slot := 0xFF, tok := 0, ctx := p.ctx, gang := 0, desc := (p.body.drop 0x10).take 128, descAt := p.q, engine := e
      accepted := false, suspended := false, ended := false, status := 0, next := 0, todo := [], moved := 0, missing := [], faults := []
      blocks := [], replay := false, packet := some k, log := [], cleared := [], guest := guest, spoiled := [] }
  { s.dropLines (engDie e) c.ctx with nextId := s.nextId + 1, copies := tput s.copies s.nextId c }

/-- The engine's answer to a descriptor, 0 for room in its queue: an engine of this chip gives it at once, and it arrives later;
that of another chip answers the active message that carries the descriptor (09 R177, R186). The copies that engines of other
chips run are worked by steps of this chip (log 35). -/
def State.copyAsked (s : State) (k e : Nat) (d : List Byte) (at_ : Nat) (replay : Bool) : Run :=
  if engChip e = s.chip then do
    let (t, r) ← s.access (slowMem true) fun x => if x.engineRoom e then (x.copyTaken k e d at_ replay none, .num 0) else (x, .num 1)
    .ok (t.setF (r.toNat != 0))
  else
    match s.recall with
    | some r =>
      let t := s.note r
      match r with
      | .mem _ _ rep => .ok (if rep.old = 0 then (t.copyTaken k e d at_ replay (some rep.id)).setF false else t.setF true)
      | _ => .ok (t.setF true)
    | none => .error (s.ask (engChip e) 0 (.copy (e % 65536) d))

/-- Wait for a token (09 R186, R188). -/
def State.tokIdle (s : State) (busy : Bool) : Except Stop Unit := if busy then .error (s.hold .tok .none) else .ok ()

/-- cpy and cpyr (09 R186, R187). -/
def cpyRun (s : State) (k : Nat) (sp : Spec) (i : Int) (replay : Bool) : Run := do
  let (t, a) ← s.address sp i 8
  let (u, _) ← t.locate a 128 128 .read (fun x => x == 0) false false
  let (v, d) ← u.descLoads a 0 16
  let w ← v.once (v.tokIdle (tget Tok.idle v.cur.tok k).busy)
  let (x, e) ← w.access none fun x => (x, .num (x.engineFor x.curCore (x.ctxOf x.curCore) (field d 0 8)))
  x.copyAsked k e.toNat d (offOf a) replay

/-- wtok (09 R188): it acquires what the copies wrote. -/
def wtokRun (s : State) (mask : Nat) : Run := do
  s.tokIdle ((List.range 8).any fun k => mask / 2 ^ k % 2 == 1 && (tget Tok.idle s.cur.tok k).busy)
  .ok (if mask = 0 then s else s.acquire)

/-- ttok (09 R188). -/
def ttokRun (s : State) (k : Nat) : State :=
  let t := tget Tok.idle s.cur.tok k
  let f := setBit (setBit (setBit s.flags 0 (!t.busy)) 1 (!t.busy && t.status != 0)) 2 (!t.busy && t.status == 2)
  (if t.busy then s else s.acquire).setFlags (setBit f 3 false)

/-- tokr (09 R188): like wtok it waits for the copy's end, and acquires what the copy wrote (11 R225). -/
def tokrRun (s : State) (k : Nat) : Run := do
  let t := tget Tok.idle s.cur.tok k
  s.tokIdle t.busy
  .ok ((s.acquire.setAcc t.moved).setFlags (setBit (setBit s.flags 0 (t.moved == 0)) 1 false))

/-- CPY (09 R186). -/
def execCpy (k : BitVec 3) (sp : Spec) (i : BitVec 8) (s : State) : Host.Outcome State Fault Refusal :=
  retire s 4 4 (cpyRun s k.toNat sp i.toInt false)

/-- CPYR (09 R187). -/
def execCpyr (k : BitVec 3) (sp : Spec) (i : BitVec 8) (s : State) : Host.Outcome State Fault Refusal :=
  retire s 4 4 (cpyRun s k.toNat sp i.toInt true)

/-- WTOK (09 R188). -/
def execWtok (m : BitVec 8) (s : State) : Host.Outcome State Fault Refusal := retire s 4 4 (wtokRun s m.toNat)

/-- TTOK (09 R188). -/
def execTtok (k : BitVec 3) (s : State) : Host.Outcome State Fault Refusal := retire s 4 4 (.ok (ttokRun s k.toNat))

/-- TOKR (09 R188). -/
def execTokr (k : BitVec 3) (s : State) : Host.Outcome State Fault Refusal := retire s 4 4 (tokrRun s k.toNat)

/-- COPY_ACCEPT (09 R179). -/
def execCopyAccept (id : Nat) (s : State) : Host.Outcome State Fault Refusal := .next (s.copyAccept id)

/-- COPY_SECTOR (09 R181). -/
def execCopySector (id : Nat) (s : State) : Host.Outcome State Fault Refusal := .next (s.copySector id)

/-- COPY_COMPLETE (09 R188). -/
def execCopyComplete (id : Nat) (s : State) : Host.Outcome State Fault Refusal := .next (s.copyComplete id)

end Sys2Proof.Machine
end

