-- ==== Sys2Proof/Machine/Control.lean ====
section
/-!
DEFINITION. The meanings of the control and thread classes: BCC, CALL, LOOP, JMP, THREAD (05 R65 to R81).
-/
namespace Sys2Proof.Machine

/-- A conditional transfer of a word of len bytes (05 R66, R70). -/
def branch (s : State) (len : Nat) (taken : Bool) (target : Word) : Host.Outcome State Fault Refusal :=
  .next (if taken then (s.jump target).complete 0 4 else s.complete len 4)

/-- The target pc + d × 2 (03 R23). -/
def State.relative (s : State) (d : Int) : Word := s.cur.pc + BitVec.ofInt 64 (d * 2)

/-- The checks of an absolute target: space first, then alignment (05 R65). -/
def checkTarget (x : Word) : Except Stop Unit :=
  if 0x40000 ≤ x.toNat then .error (.trap cSpace x)
  else if x.getLsbD 0 then .error (.trap cMisaligned x)
  else .ok ()

/-- Push the return address: the stack moves by 8 bytes (05 R67). -/
def State.pushReturn (s : State) (ret : Word) : Run := do
  let t := ptrAdd (s.ptr 7) (-8)
  let u ← s.store t 8 ret.toNat
  .ok (u.setPtr 7 t)

/-- A transfer that is part of a meaning. -/
def goTo (target : Word) (s : State) : State := (s.jump target).complete 0 4

/-- loop (05 R68). -/
def loopRun (s : State) (d : Int) : Host.Outcome State Fault Refusal :=
  let t := s.setLc (s.cur.lc - 1)
  branch t 4 (t.cur.lc != 0) (s.relative d)

/-- call (05 R67). -/
def callRun (s : State) (d : Int) : Run := do
  let t ← s.pushReturn (s.cur.pc + 4)
  .ok (goTo (s.relative d) t)

/-- jmp (05 R69). -/
def jmpRun (s : State) (sp : Spec) (i : Int) : Run := do
  let (t, x) ← s.source sp i 8
  checkTarget x
  .ok (goTo x t)

/-- jsr: S and its step first, then the check, then the push (05 R69). -/
def jsrRun (s : State) (sp : Spec) (i : Int) : Run := do
  let (t, x) ← s.source sp i 8
  checkTarget x
  let u ← t.pushReturn (s.cur.pc + 4)
  .ok (goTo x u)

/-- ret (05 R69). -/
def retRun (s : State) : Run := do
  let (t, v) ← s.load (s.ptr 7) 8
  let x := BitVec.ofNat 64 v
  checkTarget x
  .ok (goTo x (t.stepPtr 7 8))

/-- lcset (05 R69). -/
def lcsetRun (s : State) (sp : Spec) (i : Int) : Run := do
  let (t, x) ← s.source sp i 8
  .ok (t.setLc (x.truncate 32))

/-- The lowest-numbered free slot among 1 to 10 (05 R77). -/
def Core.freeSlot (c : Core) : Option Nat :=
  [1, 2, 3, 4, 5, 6, 7, 8, 9, 10].find? fun k => !(tget Slot.reset c.slots k).live

/-- A helper at its start (02 R18). -/
def helperSlot (k cycle : Nat) (pc x : Word) (vf : BitVec 19) : Slot :=
  { Slot.reset with
    live := true, pc := pc, a := x, p := [(7, BitVec.ofNat 64 (0x34000 + (k + 1) * 0x1000))], vf := vf
    readyAt := cycle + 1 }

/-- start (05 R77): the operand is read first; then the lowest free slot is taken, or F is set. DESIGN CHOICE (log 107): after an operand
that parks, the slot that is free when its value has come. -/
def startRun (s : State) (sp : Spec) (d : Int) : Run := do
  let (t, x) ← s.source sp 0 8
  match t.curCoreOf.freeSlot with
  | some k =>
    let h := helperSlot k t.curCoreOf.cycle (s.relative d) x t.cur.vf
    .ok ((t.setSlot t.curCore k h).setF false)
  | none => .ok (t.setF true)

/-- Whether a token of a slot is busy. -/
def Slot.tokBusy (x : Slot) : Bool := x.tok.any fun e => e.2.busy

/-- Whether another slot of a core is live. -/
def Core.othersLive (c : Core) (k : Nat) : Bool := (List.range 11).any fun j => j != k && (tget Slot.reset c.slots j).live

/-- end (05 R78, R79): wait for the stores, which this chip performs when they issue and which have left the package unless no port
is up; then for the tokens, in slot 0 for the helpers; then the slot is free, or the core done. -/
def endRun (s : State) : Run :=
  if s.storesStuck s.curCore s.curSlot then .error (s.hold .mem .none)
  else if s.cur.tokBusy then .error (s.hold .tok .none)
  else if s.curSlot = 0 then
    (if s.curCoreOf.othersLive 0 then .error (s.hold .join .none)
     else .ok ((s.setCur { s.cur with live := false, park := none }).coreDone s.curCore))
  else .ok (s.setCur Slot.reset)

/-- A slot that is ready in this cycle (05 R82, R83): it is not parked, or its event has been delivered. -/
def Slot.ready (x : Slot) (cycle : Nat) : Bool :=
  x.live && decide (x.readyAt ≤ cycle) && match x.park with
    | none => true
    | some p => p.woken

/-- The slots of a core, other than k, that are ready. -/
def Core.readyOthers (c : Core) (k : Nat) : List Nat :=
  (List.range 11).filter fun j => j != k && (tget Slot.reset c.slots j).ready c.cycle

/-- The mask of live slots of a core (05 R81). -/
def Core.liveMask (c : Core) : Nat :=
  ((List.range 11).filter fun j => (tget Slot.reset c.slots j).live).foldl (fun m j => m + 2 ^ j) 0

/-- live (05 R81). -/
def liveRun (s : State) : State :=
  let m := s.curCoreOf.liveMask
  (s.setFlags (setBit (setBit s.flags 0 (m / 2 == 0)) 1 false)).setAcc (BitVec.ofNat 64 m)

/-- idr (05 R76). -/
def idrRun (s : State) (n : Nat) : State :=
  let v := BitVec.ofNat 64 (s.identity s.curCore s.curSlot n)
  (s.setFlags (setZN s.flags v)).setAcc v

/-- The condition of a branch (03 R40). -/
def cond (f : BitVec 7) : Nat → Bool
  | 0 => true
  | 1 => flagZ f
  | 2 => !flagZ f
  | 3 => flagN f
  | 4 => !flagN f
  | 5 => flagC f
  | 6 => !flagC f
  | 7 => flagV f
  | 8 => !flagV f
  | 9 => flagF f
  | 10 => !flagF f
  | 11 => !flagZ f && (flagN f == flagV f)
  | 12 => flagZ f || (flagN f != flagV f)
  | 13 => flagN f == flagV f
  | _ => flagN f != flagV f

/-- B (05 R66, 03 R40 code 0). -/
def execB (d : BitVec 21) (s : State) : Host.Outcome State Fault Refusal :=
  branch s 4 (cond s.flags 0) (s.relative d.toInt)

/-- BZ (05 R66, 03 R40 code 1). -/
def execBz (d : BitVec 21) (s : State) : Host.Outcome State Fault Refusal :=
  branch s 4 (cond s.flags 1) (s.relative d.toInt)

/-- BNZ (05 R66, 03 R40 code 2). -/
def execBnz (d : BitVec 21) (s : State) : Host.Outcome State Fault Refusal :=
  branch s 4 (cond s.flags 2) (s.relative d.toInt)

/-- BN (05 R66, 03 R40 code 3). -/
def execBn (d : BitVec 21) (s : State) : Host.Outcome State Fault Refusal :=
  branch s 4 (cond s.flags 3) (s.relative d.toInt)

/-- BNN (05 R66, 03 R40 code 4). -/
def execBnn (d : BitVec 21) (s : State) : Host.Outcome State Fault Refusal :=
  branch s 4 (cond s.flags 4) (s.relative d.toInt)

/-- BC (05 R66, 03 R40 code 5). -/
def execBc (d : BitVec 21) (s : State) : Host.Outcome State Fault Refusal :=
  branch s 4 (cond s.flags 5) (s.relative d.toInt)

/-- BNC (05 R66, 03 R40 code 6). -/
def execBnc (d : BitVec 21) (s : State) : Host.Outcome State Fault Refusal :=
  branch s 4 (cond s.flags 6) (s.relative d.toInt)

/-- BV (05 R66, 03 R40 code 7). -/
def execBv (d : BitVec 21) (s : State) : Host.Outcome State Fault Refusal :=
  branch s 4 (cond s.flags 7) (s.relative d.toInt)

/-- BNV (05 R66, 03 R40 code 8). -/
def execBnv (d : BitVec 21) (s : State) : Host.Outcome State Fault Refusal :=
  branch s 4 (cond s.flags 8) (s.relative d.toInt)

/-- BF (05 R66, 03 R40 code 9). -/
def execBf (d : BitVec 21) (s : State) : Host.Outcome State Fault Refusal :=
  branch s 4 (cond s.flags 9) (s.relative d.toInt)

/-- BNF (05 R66, 03 R40 code 10). -/
def execBnf (d : BitVec 21) (s : State) : Host.Outcome State Fault Refusal :=
  branch s 4 (cond s.flags 10) (s.relative d.toInt)

/-- BGT (05 R66, 03 R40 code 11). -/
def execBgt (d : BitVec 21) (s : State) : Host.Outcome State Fault Refusal :=
  branch s 4 (cond s.flags 11) (s.relative d.toInt)

/-- BLE (05 R66, 03 R40 code 12). -/
def execBle (d : BitVec 21) (s : State) : Host.Outcome State Fault Refusal :=
  branch s 4 (cond s.flags 12) (s.relative d.toInt)

/-- BGE (05 R66, 03 R40 code 13). -/
def execBge (d : BitVec 21) (s : State) : Host.Outcome State Fault Refusal :=
  branch s 4 (cond s.flags 13) (s.relative d.toInt)

/-- BLT (05 R66, 03 R40 code 14). -/
def execBlt (d : BitVec 21) (s : State) : Host.Outcome State Fault Refusal :=
  branch s 4 (cond s.flags 14) (s.relative d.toInt)

/-- CALL (05 R67). -/
def execCall (d : BitVec 21) (s : State) : Host.Outcome State Fault Refusal :=
  settle s 4 (callRun s d.toInt)

/-- LOOP (05 R68). -/
def execLoop (d : BitVec 21) (s : State) : Host.Outcome State Fault Refusal :=
  loopRun s d.toInt

/-- JMP (05 R69). -/
def execJmp (sp : Spec) (i : BitVec 13) (s : State) : Host.Outcome State Fault Refusal :=
  settle s 4 (jmpRun s sp i.toInt)

/-- JSR (05 R69). -/
def execJsr (sp : Spec) (i : BitVec 13) (s : State) : Host.Outcome State Fault Refusal :=
  settle s 4 (jsrRun s sp i.toInt)

/-- LCSET (05 R69). -/
def execLcset (sp : Spec) (i : BitVec 13) (s : State) : Host.Outcome State Fault Refusal :=
  retire s 4 4 (lcsetRun s sp i.toInt)

/-- RET (05 R69). -/
def execRet (s : State) : Host.Outcome State Fault Refusal :=
  settle s 4 (retRun s)

/-- START (05 R77). -/
def execStart (sp : Spec) (i : BitVec 13) (s : State) : Host.Outcome State Fault Refusal :=
  retire s 4 4 (startRun s sp i.toInt)

/-- END (05 R78, R79). -/
def execEndSlot (s : State) : Host.Outcome State Fault Refusal :=
  settle s 4 (endRun s)

/-- YIELD: stay out until every slot that was ready has issued or parked (05 R80). -/
def execYield (s : State) : Host.Outcome State Fault Refusal :=
  retire s 4 4 (.ok (s.setCur { s.cur with yields := s.curCoreOf.readyOthers s.curSlot }))

/-- LIVE (05 R81). -/
def execLive (s : State) : Host.Outcome State Fault Refusal :=
  retire s 4 4 (.ok (liveRun s))

/-- IDR (05 R76). -/
def execIdr (n : BitVec 13) (s : State) : Host.Outcome State Fault Refusal :=
  retire s 4 4 (.ok (idrRun s n.toNat))

end Sys2Proof.Machine
end

