-- ==== Sys2Proof/Machine/Home.lean ====
section
/-!
DEFINITION. The homes of this chip: how each operation on a leased object is judged there (06 R94 to R113, 10 R206 to R213),
the waits they hold and the answers they give.
-/
namespace Sys2Proof.Machine

/-- Owner numbers at a home: a context of this chip under its identifier, one of chip c under 1024 × (1 + c) + identifier. -/
def State.ownerKey (s : State) (chip ctx : Nat) : Nat := if chip = s.chip then ctx else 1024 * (1 + chip) + ctx

/-- Core numbers of mirror registrations, likewise. -/
def State.coreKey (s : State) (chip core : Nat) : Nat := if chip = s.chip then core else 1024 * (1 + chip) + core

/-- The owner number under which a packet of the front end waits at a home. -/
def packetOwner (k : Nat) : Nat := 2 ^ 20 + k

/-- The longest lease of a class, ns (06 R92). -/
def maxLease (cls : Nat) : Nat :=
  match cls with
  | 1 => 16000000000
  | 2 => 4000000000
  | 3 => 4000000000
  | 4 => 1000000
  | 5 => 256000000
  | 6 => 16000000
  | 7 => 4000000
  | _ => 0

/-- A range whose pages are not yet scrubbed (06 R100), a path that still holds accepted messages (06 R95, 16 R316), or a stub with an
accepted pull on its way, which completes after E too (16 R313; log 102). -/
def Lease.unscrubbed (l : Lease) : Bool :=
  match l.data with
  | .range .. => true
  | .path x => !x.held.isEmpty
  | .stub x => !x.pulling.isEmpty
  | _ => false

/-- An index free for reuse (06 R94). -/
def State.freeIndex (s : State) (l : Lease) : Bool :=
  !(l.inUse && s.leaseLive l) && l.gen < 0xFFFF && !l.unscrubbed

/-- A touch of a view that was accepted under an index and waits for its tile: of a slot, a copy, a quantisation command or a launch
image (16 R313; log 102). -/
def touchesKey (key : Nat) (log : List Reply) : Bool :=
  log.any fun r => match r with
    | .touch k _ _ _ => k == key
    | _ => false

def State.touchWaits (s : State) (key : Nat) : Bool :=
  (s.cores.any fun c => c.2.slots.any fun x => x.2.live && touchesKey key x.2.replies) ||
    (s.copies.any fun c => touchesKey key c.2.log) ||
    (s.quant.any fun q => q.2.queue.any fun c => touchesKey key c.log) ||
    s.graphs.any fun g => g.2.nodes.any fun n => touchesKey key n.2.log

/-- The lowest free index of a unit, 0 to 262,143 (06 R94). -/
def State.freeFrom (s : State) (unit : Nat) : Nat → Nat → Option Nat
  | 0, _ => none
  | n + 1, i => if s.freeIndex (s.lease unit i) && !s.touchWaits (leaseKey unit i) then some i else s.freeFrom unit n (i + 1)

def State.lowestFree (s : State) (unit : Nat) : Option Nat := s.freeFrom unit 262144 0

/-- Create a lease at an index: the next generation (06 R94), and its handle (06 R93). -/
def State.create (s : State) (cls die idx owner e : Nat) (data : LeaseData) : State × Word :=
  let unit := unitOf cls die
  let g := (s.lease unit idx).gen + 1
  (s.setLease unit idx { cls := cls, gen := g, e := e, anchored := false, owner := owner, inUse := true, data := data },
    mkHandle g cls die s.chip idx)

/-- A reply that says nothing yet. -/
def repTo (s : State) (r : HomeReq) (h : Word) : HomeRep :=
  { id := r.id, ctx := r.ctx, chip := s.chip, queued := false, h := h, a := 0, f := false, e := 0, fault := none, size := 0,
    owner := 0 }

/-- The lapsed-resource fault of a handle (06 R111). -/
def lapsed (p : HomeRep) : HomeRep := { p with fault := some (cLapsed, p.h) }

/-- A refusal: F ← 1, a ← n. -/
def refuse (p : HomeRep) (n : Nat) : HomeRep := { p with f := true, a := BitVec.ofNat 64 n }

/-- The parameters of a grant break 06 R105. -/
def grantBad (k : Nat) (w0 w1 : Word) : Bool :=
  let a := w0.toNat
  let b := w1.toNat
  if k = 2 then
    let page := sizeOfCode (b / 2 ^ 40 % 4)
    let size := b % 2 ^ 40
    2 ^ 45 ≤ b || b / 2 ^ 40 % 4 == 3 || a / 2 ^ 60 != 8 || 2 ^ 57 < a % 2 ^ 60 + size || a % page != 0 || size == 0 ||
      size % page != 0
  else if k = 3 then 4 ≤ b
  else if k = 5 then 2 ^ 16 ≤ a || a == 0 || 4 ≤ b
  else b != 0 || hClass w0 != 2

/-- The units a grant takes (06 R105). -/
def grantUnits (k : Nat) (w1 : Word) : Nat := if k = 2 then w1.toNat % 2 ^ 40 / 65536 else 1

/-- The virtual range va to va + size meets a live page of the context: a range's, or a view's (06 R104). -/
def State.vaTaken (s : State) (ctx va size : Nat) : Bool :=
  s.entries.any fun e => e.ctx == ctx && e.live s && e.va < va + size && va < e.va + pteSize e.pte

/-- Frames in use on this chip: those of pages whose range still stands or is not yet scrubbed, those that a change of pages took
from such a range (06 R100), and the save areas. -/
def State.framesUsed (s : State) : List (Nat × Nat) :=
  (s.entries.filter fun e =>
    let l := tget Lease.unused s.leases e.lease
    ptePeer e.pte == s.chip && pteMode e.pte != 0 && pteMode e.pte != 5 && l.gen == e.gen && l.unscrubbed).map
      (fun e => (pteFrame e.pte * 4096, pteSize e.pte)) ++
  (s.dirty.map fun d => (d.pa, d.size)) ++
  (s.contexts.filter fun c => c.2.live).map fun c => (c.2.saveBase, c.2.saveSize)

def alignUp (x n : Nat) : Nat := (x + n - 1) / n * n

/-- The n lowest free frames of a page size between c and lim. -/
def takeFrames (used : List (Nat × Nat)) (page lim : Nat) : Nat → Nat → Nat → Option (List Nat)
  | _, _, 0 => some []
  | 0, _, _ => none
  | fuel + 1, c, n + 1 =>
    if lim < c + page then none
    else match used.find? fun u => c < u.1 + u.2 && u.1 < c + page with
      | some u => takeFrames used page lim fuel (alignUp (u.1 + u.2) page) (n + 1)
      | none => (takeFrames used page lim fuel (c + page) n).map fun l => c :: l

/-- Frames for n pages on a die; the top 4 MiB of the die are its engine's (10 R206). DESIGN CHOICE
(log 17): that place of the engine's, and the lowest free frames for a range. -/
def State.dieFrames (s : State) (die page n : Nat) : Option (List Nat) :=
  let used := s.framesUsed
  takeFrames used page ((die + 1) * dieSize - 2 ^ 22) (used.length + n) (alignUp (die * dieSize) page) n

/-- Deal the pages of a striped range to the dies in turn (06 R105). -/
def State.rangeFrames (s : State) (die page n : Nat) (striped : Bool) : Option (List Nat) :=
  if striped then do
    let a ← s.dieFrames (die % 4) page ((n + 3) / 4)
    let b ← s.dieFrames ((die + 1) % 4) page ((n + 2) / 4)
    let c ← s.dieFrames ((die + 2) % 4) page ((n + 1) / 4)
    let d ← s.dieFrames ((die + 3) % 4) page (n / 4)
    some ((List.range n).map fun i => ([a, b, c, d].getD (i % 4) []).getD (i / 4) 0)
  else s.dieFrames die page n

/-- Install the pages of a range or of a change (06 R104, 09 R168). New entries stand before old ones, and nothing that a station
keeps of a lapsed entry at their addresses stays (09 R171, R172). -/
def State.install (s : State) (ctx va page key gen : Nat) (ptes : List Word) : State :=
  let new := (List.range ptes.length).map fun i =>
    { ctx := ctx, va := va + i * page, pte := ptes.getD i 0, lease := key, gen := gen : PageEntry }
  { s with entries := new ++ s.entries }.entryChanged ctx va (page * ptes.length)

/-- An entry from a template: mode, peer, threshold and permissions; size and stripe from the range (20 R333). -/
def templatePte (w : Word) (frame code : Nat) (striped : Bool) : Word :=
  BitVec.ofNat 64 (ptePeer w * 2 ^ 52 + pteMode w * 2 ^ 48 + frame % 2 ^ 34 * 2 ^ 12 + pteThr w * 2 ^ 8 +
    (if striped then 64 else 0) + code * 16 + w.toNat % 16)

/-- The entries of n pages: frames of this chip for mode 1, else consecutive frames from the template's (20 R333). -/
def State.rangePtes (s : State) (w : Word) (die code n : Nat) (striped : Bool) : Option (List Word) :=
  if pteMode w = 1 then
    (s.rangeFrames die (sizeOfCode code) n striped).map fun fs => fs.map fun f => templatePte w (f / 4096) code striped
  else
    some ((List.range n).map fun i => templatePte w (pteFrame w + i * (sizeOfCode code / 4096)) code striped)

/-- A new range at its home (06 R104, 20 R333): an overlap, no free index, no free frames, or the range and its handle. -/
def State.grantRange (s : State) (p : HomeRep) (owner d : Nat) (w0 w1 tpl : Word) : State × HomeRep :=
  let b := w1.toNat
  let die := b / 2 ^ 42 % 4
  let code := b / 2 ^ 40 % 4
  let page := sizeOfCode code
  let size := b % 2 ^ 40
  let striped := b / 2 ^ 44 % 2 == 1
  if s.vaTaken owner (offOf w0) size then (s, refuse p 5)
  else match s.lowestFree (unitOf 2 die) with
    | none => (s, refuse p 4)
    | some i =>
      match s.rangePtes tpl die code (size / page) striped with
      | none => (s, refuse p 1)
      | some ptes =>
        let r := s.create 2 die i owner (s.dt + d) (.range (offOf w0) size code striped)
        (r.1.install owner (offOf w0) page (leaseKey (unitOf 2 die) i) (hGen r.2) ptes, { p with a := r.2, e := s.dt + d })

/-- The destination range of a path stands: not stale, live (06 R104, 17 R321). -/
def State.rangeLive (s : State) (h : Word) : Bool := hClass h == 2 && !s.staleHere h && s.leaseLive (s.record h)

def State.rangeSize (s : State) (h : Word) : Nat :=
  match (s.record h).data with
  | .range _ size _ _ => size
  | _ => 0

/-- grant 6 at the home of the destination range (06 R92, R104). -/
def State.grantPath (s : State) (p : HomeRep) (chip owner d : Nat) (w0 : Word) : State × HomeRep :=
  if !s.rangeLive w0 then (s, refuse p 3)
  else match s.lowestFree (unitOf 6 (hDie w0)) with
    | none => (s, refuse p 4)
    | some i =>
      let r := s.create 6 (hDie w0) i owner (s.dt + d) (.path { src := chip, range := w0, expect := 0, poisoned := [], held := [] })
      (r.1, { p with a := r.2, e := s.dt + d, size := s.rangeSize w0, owner := (s.record w0).owner })

/-- grant at its home (06 R104): a range's pages are in mode 1 with U, R, W and AT. What stands before the home's part has been
judged where the request was made. -/
def State.grantHome (s : State) (r : HomeReq) (k : Nat) (d w0 w1 : Word) : State × HomeRep :=
  let p := repTo s r 0
  let owner := s.ownerKey r.chip r.ctx
  let n := min d.toNat (maxLease k)
  if k = 2 then s.grantRange p owner n w0 w1 (mkPte 1 s.chip 0 0 15 false)
  else if k = 6 then s.grantPath p r.chip owner n w0
  else
    let die := w1.toNat % 4
    match s.lowestFree (unitOf k die) with
    | none => (s, refuse p 4)
    | some i =>
      let c := s.create k die i owner (s.dt + n) (if k = 3 then .svar w0 [] else .barrier w0.toNat 0 0)
      (c.1, { p with a := c.2, e := s.dt + n })

/-- What judges grant before the home does (06 R104): the refusal, none for the home's part. -/
def State.grantRefusal (s : State) (ctx k : Nat) (d w0 w1 : Word) : Option Nat :=
  if d = 0 || grantBad k w0 w1 then some 2
  else if s.quotaLeft ctx k < grantUnits k w1 then some 1
  else if k = 6 ∧ s.staleShape w0 then some 3
  else none

/-- The home chip of a grant (06 R92). -/
def State.grantChip (s : State) (k : Nat) (w0 : Word) : Nat := if k = 6 then hChip w0 else s.chip

/-- A link message to the pins of a stub (16 R315). -/
def State.sendLink (s : State) (chip : Nat) (h : Word) (e : Nat) : State :=
  if chip = s.chip then s.later (.link h e) else s.emit (.link chip h e)

/-- The destination range of a path lease still stands (17 R321). -/
def State.pathRangeOk (s : State) (l : Lease) : Bool :=
  match l.data with
  | .path x => s.rangeLive x.range
  | _ => true

/-- renew at the home (06 R106, 17 R321): the accepted reply names the handle. -/
def State.renewHome (s : State) (r : HomeReq) (h d : Word) : State × HomeRep :=
  let p := repTo s r h
  let l := s.record h
  if s.staleHere h || !(s.leaseLive l) || hClass h == 1 || l.owner != s.ownerKey r.chip r.ctx || !s.pathRangeOk l then
    (s, refuse p 0)
  else if l.anchored then (s, { p with a := h, e := s.leaseEnd l })
  else
    let e := max l.e (s.dt + min d.toNat (maxLease (hClass h)))
    let t := s.setRecord h { l with e := e }
    let u := match l.data with
      | .stub x => t.sendLink x.src h e
      | _ => t
    (u, { p with a := h, e := e })

/-- life at the home (06 R107): the expiry, 0 for a stale handle. -/
def State.lifeHome (s : State) (r : HomeReq) (h : Word) : HomeRep :=
  let p := repTo s r h
  if s.staleHere h then p else { p with e := s.leaseEnd (s.record h) }

/-- anchor at the home (06 R109). DESIGN CHOICE (log 94): the class that decides is that of the record at the handle's index, where
the handle's own class field names another class of the same unit. -/
def State.anchorHome (s : State) (r : HomeReq) (h : Word) : State × HomeRep :=
  let p := repTo s r h
  let l := s.record h
  if s.staleHere h || !(s.leaseLive l) then (s, lapsed p)
  else if (l.cls != 2 && l.cls != 3) || l.owner != s.ownerKey r.chip r.ctx then (s, refuse p 0)
  else if l.anchored then (s, { p with e := s.leaseEnd l })
  else
    let m := { l with anchored := true }
    (s.setRecord h m, { p with e := s.leaseEnd m })

/-- Bits [23:0] of hinfo for a stale handle (06 R110). -/
def hinfoStale : Word := 0x800000#64

/-- hinfo at the home (06 R110): bits [23:0] in a, the expiry beside them. -/
def State.hinfoHome (s : State) (r : HomeReq) (h : Word) : HomeRep :=
  let p := repTo s r h
  let l := s.record h
  if s.staleHere h then { p with a := hinfoStale }
  else
    let state := if s.leaseLive l then (if l.anchored then 3 else 0) else 1
    { p with a := BitVec.ofNat 64 (state * 2 ^ 22 + l.cls * 2 ^ 16 + l.owner % 1024), e := s.leaseEnd l }

/-- The record a synchronisation handle names, if it may be used as class cls: not stale, of the class, live (10 R207). -/
def State.syncRecord (s : State) (cls : Nat) (h : Word) : Option Lease :=
  let l := s.record h
  if hClass h != cls || s.staleHere h || !(s.leaseLive l) then none else some l

/-- What the chip notes of a reply whatever has become of the slot: the path's record (06 R104, R106; 16 R294), and a lock
that is held on another chip (10 R213). A renewal brings back a path that its source has discarded (17 R321). -/
def State.noteReply (s : State) (p : HomeRep) : State :=
  if p.f || p.queued || p.fault.isSome || p.e == 0 then s
  else if hClass p.a = 6 then
    if s.paths.any fun x => x.h == p.a then
      { s with paths := s.paths.map fun x => if x.h == p.a then { x with ed := p.e, gone := false } else x }
    else if p.size = 0 then s
    else
      { s with paths := s.paths ++ [{ h := p.a, owner := p.ctx, ed := p.e, size := p.size, dstCtx := p.owner, seq := 0,
                                      unacked := [], since := 0, gone := false }] }
  else if hClass p.a = 4 ∧ p.chip ≠ s.chip then
    { s with away := { h := p.a, ctx := p.ctx, e := p.e } :: s.away.filter fun x => x.h != p.a }
  else s

/-- A slot that waits for an answer takes note of it: one that waits for the reply runs on, one that waits for a cycle or a tile
finds it in its log (04 R53). -/
def Slot.answered (x : Slot) (id : Nat) (r : Reply) : Slot :=
  match x.park with
  | some k =>
    if x.live ∧ x.asked = id then
      (match k.wake with
       | .reply => { x with replies := x.replies ++ [r], park := some { k with wake := .till 0, woken := true } }
       | .till _ => { x with replies := x.replies ++ [r] }
       | .poll => x)
    else x
  | none => x

def State.answerSlot (s : State) (g k id : Nat) (r : Reply) : State := s.setSlot g k ((s.slot g k).answered id r)

/-- The end of a packet that waits for a home (20 R332). -/
def State.answerPacket (s : State) (k : Nat) (p : HomeRep) : State :=
  s.finishPacket k (if p.fault.isSome then 0 else p.a) (if p.fault.isSome then 3 else 0) 0

/-- Answer a request at the chip and the slot that made it, or the packet that waits (06 R103, 20 R332). -/
def State.answer (s : State) (r : HomeReq) (p : HomeRep) : State :=
  if r.chip ≠ s.chip then s.emit (.homeReply r.chip r.core r.slot p)
  else if packetOwner 0 ≤ r.core then s.answerPacket (r.core - packetOwner 0) p
  else s.answerSlot r.core r.slot r.id (.home p)

/-- What a request that waits for a signal or a phase is answered with, none while it waits on (10 R208, R211). -/
def State.waitAnswer (s : State) (r : HomeReq) : Option HomeRep :=
  match r.op with
  | .sigw h v =>
    match s.syncRecord 3 h with
    | none => some (lapsed (repTo s r h))
    | some l => match l.data with
      | .svar x _ => if v.toNat ≤ x.toNat then some { repTo s r h with a := x } else none
      | _ => some (lapsed (repTo s r h))
  | .barw h v =>
    match s.syncRecord 5 h with
    | none => some (lapsed (repTo s r h))
    | some l => match l.data with
      | .barrier _ _ ph => if v.toNat < ph.toNat then some { repTo s r h with a := ph } else none
      | _ => some (lapsed (repTo s r h))
  | _ => none

/-- Answer the held waits whose condition holds or whose object has lapsed (06 R97). -/
def State.settleWaits (s : State) : List HomeReq → State
  | [] => s
  | r :: rs =>
    match s.waitAnswer r with
    | some p => (({ s with waiting := s.waiting.filter fun q => q != r }).answer r p).settleWaits rs
    | none => s.settleWaits rs

/-- A mirror write after a change, or at registration (10 R210). -/
def State.mirrorDue (s : State) (unit idx : Nat) (v : Word) (i : Nat) (m : Nat × Nat) : State :=
  if m.1 < 1024 then s.later (.mirror unit idx i)
  else s.emit (.mirror (m.1 / 1024 - 1) (m.1 % 1024) m.2 (s.handleAt (leaseKey unit idx)) v)

def State.mirrorAll (s : State) (unit idx : Nat) (v : Word) (i : Nat) : List (Nat × Nat) → State
  | [] => s
  | m :: ms => (s.mirrorDue unit idx v i m).mirrorAll unit idx v (i + 1) ms

/-- Add to a sync variable at its home: the new value, none where the handle is refused (10 R208). -/
def State.sigAdd (s : State) (h v : Word) : Option (State × Word) :=
  match s.syncRecord 3 h with
  | none => none
  | some l => match l.data with
    | .svar x ms =>
      let t := s.setRecord h { l with data := .svar (x + v) ms }
      let u := t.mirrorAll (unitOf 3 (hDie h)) (hIndex h) (x + v) 0 ms
      some (u.settleWaits u.waiting, x + v)
    | _ => none

/-- sigm at the home (10 R210): at most 8 registrations. -/
def State.sigmHome (s : State) (r : HomeReq) (h addr : Word) : State × HomeRep :=
  let p := repTo s r h
  match s.syncRecord 3 h with
  | none => (s, lapsed p)
  | some l => match l.data with
    | .svar x ms =>
      if 8 ≤ ms.length then (s, { p with f := true })
      else
        let m := (s.coreKey r.chip r.core, offOf addr)
        let t := s.setRecord h { l with data := .svar x (ms ++ [m]) }
        (t.mirrorDue (unitOf 3 (hDie h)) (hIndex h) x ms.length m, p)
    | _ => (s, lapsed p)

/-- barr at the home (10 R211). -/
def State.barrHome (s : State) (r : HomeReq) (h : Word) : State × HomeRep :=
  let p := repTo s r h
  match s.syncRecord 5 h with
  | none => (s, lapsed p)
  | some l => match l.data with
    | .barrier n k ph =>
      let full := k + 1 = n
      let t := s.setRecord h { l with data := .barrier n (if full then 0 else k + 1) (if full then ph + 1 else ph) }
      (t.settleWaits t.waiting, { p with a := ph })
    | _ => (s, lapsed p)

/-- The word of a lock request. -/
def lockOf (r : HomeReq) : Option (Nat × Word × Bool) :=
  match r.op with
  | .lk pa _ d room => some (pa, d, room)
  | _ => none

/-- Whether the context of a lock request has q.lock left: here its quota, for another chip the given answer (10 R213). -/
def State.lockRoom (s : State) (r : HomeReq) (room : Bool) : Bool :=
  if r.chip = s.chip then 0 < s.quotaLeft r.ctx 4 else room

/-- Create a lock lease at its home (10 R213). -/
def State.takeLock (s : State) (r : HomeReq) (pa e : Nat) (room : Bool) : State × HomeRep :=
  let p := repTo s r 0
  match (if s.lockRoom r room then s.lowestFree (unitOf 4 (dieOfPa pa)) else none) with
  | none => (s, { p with f := true })
  | some i =>
    let c := s.create 4 (dieOfPa pa) i (s.ownerKey r.chip r.ctx) e (.lock pa)
    (c.1, { p with a := c.2, e := e })

/-- The waiters of a lock word. -/
def State.lockQueue (s : State) (pa : Nat) : List HomeReq :=
  s.waiting.filter fun r => match lockOf r with
    | some (p, _) => p == pa
    | none => false

/-- Hand a lapsed lock to its waiters in order (06 R113, 10 R213): the first with quota holds it from E on; those before it
are answered with a ← 0, F ← 1. Whether the context of a waiter of another chip still has quota at E is a free value (log 94). -/
def State.handOver (s : State) (pa e : Nat) : List HomeReq → State
  | [] => s
  | r :: rs =>
    match r.op with
    | .lk _ _ d _ =>
      let room := Config.quotaThere s.ticks (r.chip + 4096 * r.id)
      let t := { s with waiting := s.waiting.filter fun q => q != r }
      let c := t.takeLock r pa (e + min d.toNat (maxLease 4)) room
      let u := c.1.answer r c.2
      if c.2.f then u.handOver pa e rs else u
    | _ => s.handOver pa e rs

/-- The first lock lease whose lapse is not yet settled. -/
def State.lapsedLock (s : State) : Option (Nat × Lease × Nat) :=
  s.leases.findSome? fun e => match e.2.data with
    | .lock pa => if e.2.inUse && !(s.leaseLive e.2) then some (e.1, e.2, pa) else none
    | _ => none

/-- Settle the lock leases that have lapsed, one after another. -/
def State.settleLocks (s : State) : Nat → State
  | 0 => s
  | n + 1 =>
    match s.lapsedLock with
    | none => s
    | some (k, l, pa) =>
      let t := { s with leases := tput s.leases k { l with inUse := false, data := .none } }
      (t.handOver pa l.e (t.lockQueue pa)).settleLocks n

/-- What time has done at the homes: lapsed locks pass on, waits on lapsed objects end (06 R97). -/
def State.settleHomes (s : State) : State :=
  let t := s.settleLocks (s.leases.length + s.waiting.length + 1)
  t.settleWaits t.waiting

/-- The live lock lease on a word. -/
def State.lockHolder (s : State) (pa : Nat) : Option Lease :=
  (s.leases.find? fun e => e.2.data == .lock pa && e.2.inUse && s.leaseLive e.2).map fun e => e.2

/-- lk at the home (10 R213, R214): none while it waits. -/
def State.lkHome (s : State) (r : HomeReq) (pa : Nat) (wait : Bool) (d : Word) (room : Bool) : State × Option HomeRep :=
  let p := repTo s r 0
  if d = 0 then (s, some { p with f := true })
  else match s.lockHolder pa with
    | none =>
      let c := s.takeLock r pa (s.dt + min d.toNat (maxLease 4)) room
      (c.1, some c.2)
    | some l =>
      if l.owner = s.ownerKey r.chip r.ctx ∨ !wait ∨ 64 ≤ (s.lockQueue pa).length then (s, some { p with f := true, e := l.e })
      else ({ s with waiting := s.waiting ++ [r] }, none)

/-- dmap at the stub's home, in the order of 16 R312; the view's pages are in mode 5 with U and R. -/
def State.dmapHome (s : State) (r : HomeReq) (h view backing : Word) : State × HomeRep :=
  let p := repTo s r h
  let l := s.record h
  if s.staleHere h || !(s.leaseLive l) || hClass h != 7 then (s, lapsed p)
  else if l.owner != s.ownerKey r.chip r.ctx then (s, refuse p 1)
  else match l.data with
    | .stub x =>
      let va := offOf view
      let span := alignUp x.size 65536
      if x.view.isSome then (s, refuse p 3)
      else if tagOf view ≠ 8 ∨ va % 65536 ≠ 0 ∨ 2 ^ 57 < va + span ∨ s.vaTaken r.ctx va span then (s, refuse p 2)
      else if s.staleShape backing || hClass backing != 2 || hChip backing != s.chip || hDie backing != hDie h ||
          !s.rangeLive backing || (s.record backing).owner != l.owner || s.rangeSize backing < x.size then (s, refuse p 4)
      else
        let t := s.setRecord h { l with data := .stub { x with view := some va, backing := backing } }
        let key := leaseKey (unitOf 7 (hDie h)) (hIndex h)
        (t.install r.ctx va 65536 key l.gen (List.replicate (span / 65536) (mkPte 5 s.chip 0 0 9 false)),
          { p with e := s.leaseEnd l })
    | _ => (s, lapsed p)

/-- Drop what the slots of a cluster of another chip hold here (10 R208, R210, R213). -/
def State.dropFor (s : State) (chip core : Nat) : State :=
  let keys := (coresOf (clusterOf core)).map fun g => s.coreKey chip g
  { s with
    leases := s.leases.map fun e => (e.1, match e.2.data with
      | .svar v ms => { e.2 with data := .svar v (ms.filter fun m => !keys.contains m.1) }
      | _ => e.2)
    waiting := s.waiting.filter fun r => !(r.chip == chip && clusterOf r.core == clusterOf core) }

/-- Hold a wait, or answer it at once. -/
def State.holdWait (s : State) (r : HomeReq) : State × Option HomeRep :=
  match s.waitAnswer r with
  | some p => (s, some p)
  | none => ({ s with waiting := s.waiting ++ [r] }, none)

/-- One operation at a home of this chip (06 R95, R96): the reply, none for one that is held. -/
def State.homeOp (s : State) (r : HomeReq) : State × Option HomeRep :=
  let s := s.settleHomes
  match r.op with
  | .grant k d w0 w1 => let x := s.grantHome r k d w0 w1; (x.1, some x.2)
  | .renew h d => let x := s.renewHome r h d; (x.1, some x.2)
  | .life h => (s, some (s.lifeHome r h))
  | .anchor h => let x := s.anchorHome r h; (x.1, some x.2)
  | .hinfo h => (s, some (s.hinfoHome r h))
  | .sig h v =>
    match s.sigAdd h v with
    | some (t, x) => (t, some { repTo s r h with a := x })
    | none => (s, some (lapsed (repTo s r h)))
  | .sigw _ _ => s.holdWait r
  | .sigm h a => let x := s.sigmHome r h a; (x.1, some x.2)
  | .barr h => let x := s.barrHome r h; (x.1, some x.2)
  | .barw _ _ => s.holdWait r
  | .lk pa wait d room => s.lkHome r pa wait d room
  | .dmap h view backing => let x := s.dmapHome r h view backing; (x.1, some x.2)
  | .withdraw => (s.dropFor r.chip r.core, none)

/-- A home that holds a request says so: of a lock by the notice of 10 R213, of another wait by a hold notice that names the
request, so that the wait is no missing answer (16 R292; log 88). -/
def State.heldNotice (s : State) (r : HomeReq) : State :=
  if (lockOf r).isSome then s.answer r { repTo s r 0 with queued := true }
  else s.emit (.holdNotice r.chip (BitVec.ofNat 64 r.id))

/-- Keep the answer to a request of another chip until it is acknowledged: a resent request is decided once (16 R292; that this
holds for every operation of a home is the model's reading, log 88). -/
def State.keepAnswer (s : State) (r : HomeReq) (p : HomeRep) : State :=
  if r.chip = s.chip then s else { s with homeDone := s.homeDone ++ [((r.chip, r.id), p)] }

/-- HOME_REQUEST: a request of another chip reaches its home here (06 R95, R103). One that was decided, or that is held, is not
decided again. -/
def State.homeRequest (s : State) (r : HomeReq) : State :=
  match s.homeDone.lookup (r.chip, r.id) with
  | some p => s.answer r p
  | none =>
    if s.waiting.contains r then s.heldNotice r
    else match s.homeOp r with
      | (t, some p) => (t.keepAnswer r p).answer r p
      | (t, none) => if r.op = .withdraw then t else t.heldNotice r

/-- A queued notice changes the reason of the slot's park (10 R213). -/
def Slot.queuedAt (x : Slot) (id : Nat) : Slot :=
  match x.park with
  | some k =>
    if x.live ∧ x.asked = id ∧ k.wake = .reply then { x with park := some { k with reason := .tline, res := .again } } else x
  | none => x

/-- The answer to an answer: it need not be kept any longer (16 R292). -/
def State.thank (s : State) (chip id : Nat) : State :=
  s.emit (.ack chip { chip := s.chip, path := 0, seq := id, marked := false, refused := false, handle := 0, e := 0, reason := 0 })

/-- The timers of a request start anew: the other side holds it (16 R316, R292). -/
def HomeOut.held (id dt : Nat) (o : HomeOut) : HomeOut := if o.req.id = id then { o with resend := 0, since := dt } else o

def RemoteOut.held (id dt : Nat) (q : RemoteOut) : RemoteOut := if q.id = id then { q with resend := 0, since := dt } else q

def State.heldAt (s : State) (id : Nat) : State :=
  { s with homeOut := s.homeOut.map (HomeOut.held id s.dt), remote := s.remote.map (RemoteOut.held id s.dt) }

/-- HOME_REPLY: a home of another chip answers a slot or a packet (06 R103, 20 R332); an answer to a request that no longer stands
is discarded (16 R292). -/
def State.homeReply (s : State) (core slot : Nat) (p : HomeRep) : State :=
  if p.queued then (s.setSlot core slot ((s.slot core slot).queuedAt p.id)).heldAt p.id
  else
    let s := { s.noteReply p with homeOut := s.homeOut.filter fun o => o.req.id != p.id }.thank p.chip p.id
    if packetOwner 0 ≤ core then s.answerPacket (core - packetOwner 0) p else s.answerSlot core slot p.id (.home p)

/-- A lease operation, and a wait, is executed anew by a slot that a pre-emption finds parked on it (15 R282). -/
def redone : HomeOp → Bool
  | .grant .. => true
  | .renew .. => true
  | .life _ => true
  | .anchor _ => true
  | .hinfo _ => true
  | .sigw .. => true
  | .barw .. => true
  | _ => false

def isLock : HomeOp → Bool
  | .lk .. => true
  | _ => false

/-- Send a request to a home of another chip; the station keeps it until it is answered (16 R292). -/
def State.sendHome (s : State) (chip : Nat) (req : HomeReq) : State :=
  { s.emit (.home chip req) with homeOut := s.homeOut ++ [{ chip := chip, owner := if req.core < 1024 then req.core else nobody, req := req, resend := 0, fails := 0, since := s.dt }] }

/-- What a slot parks on while its home decides: whether a pre-emption executes it anew (15 R282). -/
def homeRes (op : HomeOp) : Resource := if redone op then .again else .none

/-- Note that a home of another chip may hold a mirror or a wait of this slot's cluster. -/
def State.noteAsked (s : State) (chip : Nat) : State :=
  let e := (chip, clusterOf s.curCore)
  if chip = s.chip || s.asked.contains e then s else { s with asked := e :: s.asked }

/-- Note the word that a registration at another chip names: a mirror write to it is taken until the registration ends (10 R210). -/
def State.noteMirror (s : State) (chip : Nat) : HomeOp → State
  | .sigm h a => if chip = s.chip then s else { s with mirrors := (s.curCore, offOf a, h) :: s.mirrors }
  | _ => s

/-- An operation that may leave a wait or a mirror at its home. -/
def homeKeeps : HomeOp → Bool
  | .sigm .. => true
  | op => homeHolds op

/-- Ask a home for an operation, once for the instruction that runs: its reply; or the slot parks with reason r for the answer, and
with w once the home holds the request (06 R103, 10 R213). A home of this chip decides when it is asked, and answers later. -/
def State.callHome (s : State) (chip : Nat) (op : HomeOp) (r w : Reason) : Except Stop (State × HomeRep) :=
  match s.recall with
  | some (.home p) => .ok (s.note (.home p), p)
  | some _ =>
    let t := s.note .done
    match t.recall with
    | some (.home p) => .ok (t.note (.home p), p)
    | _ => .error (.wait t w .again .reply)
  | none =>
    let req : HomeReq :=
      { chip := s.chip, core := s.curCore, slot := s.curSlot, ctx := s.ctxOf s.curCore, id := s.nextId, op := op }
    let u := ({ s with nextId := s.nextId + 1 }).setCur { s.cur with asked := s.nextId }
    if chip = s.chip then
      match u.homeOp req with
      | (v, some p) => .error (.wait ((v.noteReply p).note (.home p)) r (homeRes op) v.soon)
      | (v, none) =>
        .error (if isLock op then .wait (v.note .done) r .again v.soon else .wait v w .again .reply)
    else .error (.wait (((if homeKeeps op then u.noteAsked chip else u).noteMirror chip op).sendHome chip req) r (homeRes op) .reply)

/-- The life that a reply reports, seen from this chip (06 R107). -/
def State.lifeOf (s : State) (p : HomeRep) : Word :=
  BitVec.ofNat 64 (p.e - s.dt - (if p.chip = s.chip then 0 else 200))

/-- HOME_REQUEST (06 R95). -/
def execHomeRequest (r : HomeReq) (s : State) : Host.Outcome State Fault Refusal := .next (s.homeRequest r)

/-- HOME_REPLY (06 R103). -/
def execHomeReply (core slot : Nat) (r : HomeRep) (s : State) : Host.Outcome State Fault Refusal :=
  if (core < 1024 ∧ slot < 11) ∨ packetOwner 0 ≤ core then .next (s.homeReply core slot r) else .fault .noSuchUnit

end Sys2Proof.Machine
end

