-- ==== Sys2Proof/Machine/LeaseInstr.lean ====
section
/-!
DEFINITION. The lease instructions (06 R102 to R111): grant, renew, life, hgen, anchor, hinfo.
-/
namespace Sys2Proof.Machine

/-- n words from an address on, as scalar loads of 8 bytes (06 R102). -/
def State.words (s : State) (a : Word) : Nat → Except Stop (State × List Word)
  | 0 => .ok (s, [])
  | n + 1 => do
    let (t, v) ← s.load a 8
    let (u, l) ← t.words (ptrAdd a 8) n
    .ok (u, BitVec.ofNat 64 v :: l)

/-- An instruction that reads n words and asks a home once (06 R102, R103): its operand steps, the words are read; pre is what is
judged before the request leaves, and may answer itself, after a park as every answer; ask names the home and the operation; r and
w are the reasons of the park, and fin ends the instruction. -/
def State.homeCalled (s : State) (sp : Spec) (i : Int) (n : Nat) (pre : State → List Word → Except Stop (Option HomeRep))
    (ask : State → List Word → Nat × HomeOp) (r w : Reason) (fin : State → HomeRep → Run) : Run := do
  let (t, a) ← s.address sp i 8
  let (u, ws) ← t.words a n
  match (← if u.recall.isNone then pre u ws else .ok none) with
  | some p => .error (.wait (u.note (.home p)) r (homeRes (ask u ws).2) u.soon)
  | none => do
    let (v, p) ← u.callHome (ask u ws).1 (ask u ws).2 r w
    fin v p

/-- An answer that the issuing chip gives itself, for a handle (06 R93). -/
def State.ownRep (s : State) (h : Word) : HomeRep :=
  { id := 0, ctx := s.ctxOf s.curCore, chip := s.chip, queued := false, h := h, a := 0, f := false, e := 0, fault := none,
    size := 0, owner := 0 }

/-- The trace record of an answered lease instruction (21 R356). -/
def State.leaseTrace (s : State) (pc h : Word) : State :=
  s.trace s.curCore s.curSlot 2 3 pc h s.acc (flagF s.flags)

/-- A reply that reports a fault raises it at the instruction (06 R109, R111). -/
def faultOf (p : HomeRep) : Except Stop Unit :=
  match p.fault with
  | some (code, addr) => .error (.trap code addr)
  | none => .ok ()

/-- The life, written to a. -/
def State.setLife (s : State) (p : HomeRep) : State := s.setAcc (s.lifeOf p)

/-- grant (06 R104). -/
def grantRun (s : State) (k : Nat) (sp : Spec) (i : Int) : Run :=
  s.homeCalled sp i 2
    (fun t ws =>
      match t.grantRefusal (t.ctxOf t.curCore) k t.acc (ws.getD 0 0) (ws.getD 1 0) with
      | some n => .ok (some (refuse (t.ownRep 0) n))
      | none => .ok none)
    (fun t ws => (t.grantChip k (ws.getD 0 0), .grant k t.acc (ws.getD 0 0) (ws.getD 1 0))) .mem .mem
    (fun t p => .ok (((t.setAcc p.a).setF p.f).leaseTrace s.cur.pc 0))

/-- The answer of the issuing chip for a handle that is stale by its shape (06 R93), none for another. -/
def State.shapeAnswer (s : State) (h : Word) (p : HomeRep) : Except Stop (Option HomeRep) :=
  .ok (if s.staleShape h then some p else none)

/-- renew (06 R106). -/
def renewRun (s : State) (sp : Spec) (i : Int) : Run :=
  s.homeCalled sp i 1 (fun t ws => t.shapeAnswer (ws.getD 0 0) (refuse (t.ownRep (ws.getD 0 0)) 0))
    (fun t ws => (hChip (ws.getD 0 0), .renew (ws.getD 0 0) t.acc)) .mem .mem
    (fun t p => .ok ((((if p.f then t.setAcc 0 else t.setLife p).setF p.f)).leaseTrace s.cur.pc p.h))

/-- The source's copy of a path's expiry (06 R107). -/
def State.pathCopy (s : State) (h : Word) : Option PathSrc := s.paths.find? fun p => p.h == h && !p.gone

/-- life of a path that this chip has the source record of: it is answered here (06 R107). -/
def State.lifeHere (s : State) (h : Word) : Option HomeRep :=
  if s.staleShape h then some (s.ownRep h)
  else (s.pathCopy h).map fun x => { s.ownRep h with chip := hChip h, e := x.ed }

/-- life (06 R107). -/
def lifeRun (s : State) (sp : Spec) (i : Int) : Run :=
  s.homeCalled sp i 1 (fun t ws => .ok (t.lifeHere (ws.getD 0 0)))
    (fun _ ws => (hChip (ws.getD 0 0), .life (ws.getD 0 0))) .mem .mem
    (fun t p => .ok ((t.setLife p).leaseTrace s.cur.pc p.h))

/-- The class 1 handle of a context (06 R108, 20 R333). -/
def State.ctxHandle (s : State) (c : Nat) : Word :=
  mkHandle (s.ctxLease c).gen 1 (linkDie (s.context c).link) s.chip c

/-- hgen (06 R103, R108): the home, on this chip, answers after a park; a pre-emption executes it anew. -/
def hgenRun (s : State) : Run := do
  let (t, r) ← s.access (some (.mem, .again)) fun u => (u, .num (u.ctxHandle (u.ctxOf u.curCore)).toNat)
  .ok ((t.setAcc (BitVec.ofNat 64 r.toNat)).leaseTrace s.cur.pc 0)

/-- A handle that is stale by its shape is refused with the lapsed-resource fault (06 R93, R111). -/
def State.shapely (s : State) (h : Word) : Except Stop Unit := if s.staleShape h then .error (.trap cLapsed h) else .ok ()

/-- anchor (06 R109). -/
def anchorRun (s : State) (sp : Spec) (i : Int) : Run :=
  s.homeCalled sp i 1
    (fun t ws => do
      t.shapely (ws.getD 0 0)
      .ok none)
    (fun _ ws => (hChip (ws.getD 0 0), .anchor (ws.getD 0 0))) .mem .mem
    (fun t p => do
      faultOf p
      .ok ((((if p.f then t.setAcc 0 else t.setLife p).setF p.f)).leaseTrace s.cur.pc p.h))

/-- hinfo (06 R110). -/
def hinfoRun (s : State) (sp : Spec) (i : Int) : Run :=
  s.homeCalled sp i 1
    (fun t ws => t.shapeAnswer (ws.getD 0 0) { t.ownRep (ws.getD 0 0) with a := hinfoStale })
    (fun _ ws => (hChip (ws.getD 0 0), .hinfo (ws.getD 0 0))) .mem .mem
    (fun t p =>
      .ok ((t.setAcc (BitVec.ofNat 64 ((t.lifeOf p).toNat / 1000 * 2 ^ 24 + p.a.toNat))).leaseTrace s.cur.pc p.h))

/-- GRANT (06 R104). -/
def execGrant (k : BitVec 5) (sp : Spec) (i : BitVec 8) (s : State) : Host.Outcome State Fault Refusal :=
  retire s 4 4 (grantRun s k.toNat sp i.toInt)

/-- RENEW (06 R106). -/
def execRenew (sp : Spec) (i : BitVec 8) (s : State) : Host.Outcome State Fault Refusal := retire s 4 4 (renewRun s sp i.toInt)

/-- LIFE (06 R107). -/
def execLife (sp : Spec) (i : BitVec 8) (s : State) : Host.Outcome State Fault Refusal := retire s 4 4 (lifeRun s sp i.toInt)

/-- HGEN (06 R108). -/
def execHgen (s : State) : Host.Outcome State Fault Refusal := retire s 4 4 (hgenRun s)

/-- ANCHOR (06 R109). -/
def execAnchor (sp : Spec) (i : BitVec 8) (s : State) : Host.Outcome State Fault Refusal := retire s 4 4 (anchorRun s sp i.toInt)

/-- HINFO (06 R110). -/
def execHinfo (sp : Spec) (i : BitVec 8) (s : State) : Host.Outcome State Fault Refusal := retire s 4 4 (hinfoRun s sp i.toInt)

end Sys2Proof.Machine
end

