-- ==== Sys2Proof/Machine/Sync.lean ====
section
/-!
DEFINITION. The SYNC class (10 R203 to R215), its release (10 R209, 11 R221), and the step MIRROR_WRITE.
-/
namespace Sys2Proof.Machine

/-- The checks of a watch operand: any space but the slot's own L is refused, the system space too (10 R204). -/
def State.watchLoc (s : State) (sp : Spec) (i : Int) : Except Stop (State × Nat) := do
  let (t, a) ← s.address sp i 8
  let (u, _) ← t.locate a 8 8 .read (fun tag => tag == 0) false true
  .ok (u, offOf a)

/-- watch (10 R204). -/
def watchRun (s : State) (sp : Spec) (i : Int) : Run := do
  let (t, w) ← s.watchLoc sp i
  let x := t.cur
  if x.watch.contains w then .ok (t.setF false)
  else if 4 ≤ x.watch.length then .ok (t.setF true)
  else .ok ((t.setCur { x with watch := x.watch ++ [w] }).setF false)

/-- watch.rm (10 R204). -/
def watchRmRun (s : State) (sp : Spec) (i : Int) : Run := do
  let (t, w) ← s.watchLoc sp i
  let x := t.cur
  if x.watch.contains w then .ok ((t.setCur { x with watch := x.watch.filter fun v => v != w }).setF false)
  else .ok (t.setF true)

/-- watch.clr (10 R204). -/
def watchClrRun (s : State) : State := (s.setCur { s.cur with watch := [], fired := false }).setF false

/-- W and F after a sleep (10 R205). -/
def State.slept (s : State) (w : Bool) : State :=
  let t := s.setCur { s.cur with restored := false, fired := false }
  t.setFlags (setBit (setBit t.flags 6 w) 4 false)

/-- sleep, in the order of 10 R205. A wake acquires the writes that fired, and what they carried: a mirror write at domain scope
(10 R209, 11 R225). -/
def sleepRun (s : State) : Run :=
  let x := s.cur
  if x.restored then .ok (s.slept true)
  else if x.fired then .ok (s.slept false).acquire
  else if x.watch.isEmpty then .ok (s.setF true)
  else .error (s.hold .sleep .none)

/-- The arrival bits of barrier k of a cluster (10 R212). -/
def Cluster.bar (cl : Cluster) (k : Nat) : BitVec 4 := tget 0 cl.cbar k

/-- A slot that waits for the round of barrier k is released. -/
def Slot.release (k : Nat) (x : Slot) : Slot := if x.cbar = some (k, true) then { x with cbar := some (k, false) } else x

def State.releaseCores (s : State) (k : Nat) : List Nat → State
  | [] => s
  | g :: gs =>
    (s.setCore g { s.core g with slots := (s.core g).slots.map fun e => (e.1, e.2.release k) }).releaseCores k gs

/-- A slot that runs arrives at barrier k with its core's bit clear (10 R212). -/
def State.arrive (s : State) (k : Nat) : Run :=
  let c := clusterOf s.curCore
  let cl := s.cluster c
  let bits := cl.bar k ||| (1#4 <<< (s.curCore % 4))
  if bits = 15#4 then
    let t := (s.setCluster c { cl with cbar := tput cl.cbar k 0 }).releaseCores k (coresOf c)
    .ok (t.setCur { t.cur with cbar := none })
  else
    let t := s.setCluster c { cl with cbar := tput cl.cbar k bits }
    .error ((t.setCur { t.cur with cbar := some (k, true) }).hold .bar .none)

/-- cbar (10 R212): a slot whose core's bit is set queues for the next round. -/
def cbarRun (s : State) (k : Nat) : Run :=
  match s.cur.cbar with
  | some (_, false) => .ok (s.setCur { s.cur with cbar := none })
  | some (_, true) => .error (s.hold .bar .none)
  | none =>
    if ((s.cluster (clusterOf s.curCore)).bar k).getLsbD (s.curCore % 4) || s.behind (.cbar k) then .error (s.hold .bar (.cbar k))
    else s.arrive k

/-- A slot's accesses and messages on their way to other chips (11 R221, R223). -/
def State.offChip (s : State) (g k : Nat) : Bool :=
  s.hasOut g k || s.paths.any fun p => hChip p.h != s.chip && p.unacked.any fun f => f.owner == g && f.msg.slot == k

/-- Writes that left the chip under a number below n and are not yet acknowledged (10 R209). -/
def State.writesOut (s : State) (n : Nat) : Bool :=
  (s.remote.any fun r => r.id < n && opWrites r.op) ||
    s.paths.any fun p => hChip p.h != s.chip && p.unacked.any fun f => f.id < n

/-- A release at domain scope (10 R209, 11 R221): the slot's own accesses, and every write that any agent of the chip had sent off
the chip when the instruction issued, are acknowledged. The slot keeps the number of the next message at its issue while it waits. -/
def State.released (s : State) (r : Reason) (res : Resource) : Except Stop Unit :=
  let n := s.cur.mark.getD s.nextId
  if s.offChip s.curCore s.curSlot || s.writesOut n then .error (s.hold r res) else .ok ()

/-- What a SYNC instruction on a handle is judged by before its request leaves (10 R207, 06 R111). -/
def State.syncPre (t : State) (ws : List Word) : Except Stop (Option HomeRep) := do
  t.shapely (ws.getD 0 0)
  .ok none

/-- An instruction whose answer goes to a, or is a fault (10 R208, R211). -/
def endWith (fin : State → HomeRep → State) (t : State) (p : HomeRep) : Run := do
  faultOf p
  .ok (fin t p)

/-- barr (10 R211): a release at domain scope first. -/
def barrRun (s : State) (sp : Spec) (i : Int) : Run :=
  s.homeCalled sp i 1
    (fun t ws => do
      t.shapely (ws.getD 0 0)
      t.released .mem .none
      .ok none)
    (fun _ ws => (hChip (ws.getD 0 0), .barr (ws.getD 0 0))) .mem .mem (endWith fun t p => t.setAcc p.a)

/-- barw (10 R211). -/
def barwRun (s : State) (sp : Spec) (i : Int) : Run :=
  s.homeCalled sp i 1 State.syncPre (fun t ws => (hChip (ws.getD 0 0), .barw (ws.getD 0 0) t.acc)) .bar .bar
    (endWith fun t p => (t.setAcc p.a).acquire)

/-- sig (10 R208, R209): it leaves once the slot's release is done and every write sent off the chip before it issued has been
acknowledged. -/
def sigRun (s : State) (sp : Spec) (i : Int) : Run :=
  s.homeCalled sp i 1
    (fun t ws => do
      t.shapely (ws.getD 0 0)
      t.released .tline .none
      .ok none)
    (fun t ws => (hChip (ws.getD 0 0), .sig (ws.getD 0 0) t.acc)) .tline .tline (endWith fun t p => t.setAcc p.a)

/-- sigw (10 R208). -/
def sigwRun (s : State) (sp : Spec) (i : Int) : Run :=
  s.homeCalled sp i 1 State.syncPre (fun t ws => (hChip (ws.getD 0 0), .sigw (ws.getD 0 0) t.acc)) .tline .tline
    (endWith fun t p => (t.setAcc p.a).acquire)

/-- sigm (10 R208, R210). -/
def sigmRun (s : State) (sp : Spec) (i : Int) : Run :=
  s.homeCalled sp i 1
    (fun t ws =>
      let a := t.acc
      if tagOf a ≠ 0 ∨ a.toNat % 8 ≠ 0 ∨ 0x40000 ≤ offOf a then .error (.trap cSpace a) else t.syncPre ws)
    (fun t ws => (hChip (ws.getD 0 0), .sigm (ws.getD 0 0) t.acc)) .tline .tline (endWith fun t p => t.setF p.f)

/-- The end of an lk: the handle, with an acquire at domain scope (11 R230), or the life of the holder's lease (10 R213). -/
def State.lkDone (s : State) (p : HomeRep) : State := if p.f then (s.setLife p).setF true else ((s.setAcc p.a).setF false).acquire

/-- The home chip of a lock word, and the word's device address there (10 R194, R213). -/
def lockHome (chip : Nat) : Loc → Option (Nat × Nat)
  | .glob (.here pa) _ _ => some (chip, pa)
  | .glob (.chip c pa) _ _ => some (c, pa)
  | _ => none

/-- lk (10 R213): the word is checked as for an atomic, and neither read nor written. -/
def lkRun (s : State) (wait : Bool) (sp : Spec) (i : Int) : Run := do
  let (t, a) ← s.address sp i 8
  let (u, l) ← t.locate a 8 8 .atomic tagG false false
  match lockHome u.chip l with
  | some (c, pa) => do
    let room := decide (0 < u.quotaLeft (u.ctxOf u.curCore) 4)
    let (v, p) ← u.callHome c (.lk pa wait u.acc room) .mem .tline
    .ok (v.lkDone p)
  | none => .error (.trap cSpace a)

/-- Timeline counter k of the context (10 R215). -/
def State.timeline (s : State) (k : Nat) : Nat :=
  let c := s.ctxOf s.curCore
  if k < 4 then tget 0 (s.engine k).tline c
  else tlCount (s.context c).tlDone (s.context c).tlDone.length 0

/-- twait (10 R215). -/
def twaitRun (s : State) (k : Nat) : Run :=
  if s.acc.toNat ≤ s.timeline k then .ok (s.setAcc (BitVec.ofNat 64 (s.timeline k))).acquire else .error (s.hold .tline .again)

/-- tread (10 R215): the slot parks for the read. -/
def treadRun (s : State) (k : Nat) : Run := do
  let (t, r) ← s.access (slowMem true) fun x => (x, .num (x.timeline k))
  .ok (t.setAcc (BitVec.ofNat 64 r.toNat))

/-- A mirror write reaches core g's L (10 R210): one that strikes the supervisor range is dropped and counted (15 R272). -/
def State.mirrorLand (s : State) (g off eng : Nat) (v : Word) : State :=
  if s.supervisor g off 8 then s.bumpDie (dieOf g) 0x0D0
  else (((s.writeBytes (lKey g off) (leBytes 8 v.toNat)).mend (s.ctxOf g) (lKey g off) 8 false).fire g off 8 none).struck 0 g off 8 1 0 (eng % 65536)

/-- MIRROR_WRITE (10 R210): of a registration that still stands; a late one of another gang's changes nothing (14 R270). -/
def State.mirrorWrite (s : State) : MirrorStep → State
  | .home unit idx i =>
    let l := s.lease unit idx
    match l.data with
    | .svar v ms =>
      if l.inUse && s.leaseLive l then
        (match ms[i]? with
         | some m => if m.1 < 1024 then s.mirrorLand m.1 m.2 (Config.mirrorEngine (unit % 4)) v else s
         | none => s)
      else s
    | _ => s
  | .arrive g off h v =>
    if s.mirrors.contains (g, off, h) then s.mirrorLand g off (Config.mirrorEngine 0) v else s

/-- WATCH (10 R204). -/
def execWatch (sp : Spec) (i : BitVec 8) (s : State) : Host.Outcome State Fault Refusal := retire s 4 4 (watchRun s sp i.toInt)

/-- WATCH_RM (10 R204). -/
def execWatchRm (sp : Spec) (i : BitVec 8) (s : State) : Host.Outcome State Fault Refusal := retire s 4 4 (watchRmRun s sp i.toInt)

/-- WATCH_CLR (10 R204). -/
def execWatchClr (s : State) : Host.Outcome State Fault Refusal := retire s 4 4 (.ok (watchClrRun s))

/-- SLEEP (10 R205). -/
def execSleep (s : State) : Host.Outcome State Fault Refusal := retire s 4 4 (sleepRun s)

/-- CBAR (10 R212). -/
def execCbar (k : BitVec 2) (s : State) : Host.Outcome State Fault Refusal := retire s 4 4 (cbarRun s k.toNat)

/-- BARR (10 R211). -/
def execBarr (sp : Spec) (i : BitVec 8) (s : State) : Host.Outcome State Fault Refusal := retire s 4 4 (barrRun s sp i.toInt)

/-- BARW (10 R211). -/
def execBarw (sp : Spec) (i : BitVec 8) (s : State) : Host.Outcome State Fault Refusal := retire s 4 4 (barwRun s sp i.toInt)

/-- SIG (10 R208). -/
def execSig (sp : Spec) (i : BitVec 8) (s : State) : Host.Outcome State Fault Refusal := retire s 4 4 (sigRun s sp i.toInt)

/-- SIGW (10 R208). -/
def execSigw (sp : Spec) (i : BitVec 8) (s : State) : Host.Outcome State Fault Refusal := retire s 4 4 (sigwRun s sp i.toInt)

/-- SIGM (10 R210). -/
def execSigm (sp : Spec) (i : BitVec 8) (s : State) : Host.Outcome State Fault Refusal := retire s 4 4 (sigmRun s sp i.toInt)

/-- LK (10 R213). -/
def execLk (k : BitVec 1) (sp : Spec) (i : BitVec 8) (s : State) : Host.Outcome State Fault Refusal :=
  retire s 4 4 (lkRun s (k == 1#1) sp i.toInt)

/-- TWAIT (10 R215). -/
def execTwait (k : BitVec 5) (s : State) : Host.Outcome State Fault Refusal := retire s 4 4 (twaitRun s k.toNat)

/-- TREAD (10 R215). -/
def execTread (k : BitVec 5) (s : State) : Host.Outcome State Fault Refusal := retire s 4 4 (treadRun s k.toNat)

/-- MIRROR_WRITE (10 R210). -/
def execMirrorWrite (m : MirrorStep) (s : State) : Host.Outcome State Fault Refusal :=
  match m with
  | .home unit idx _ => if unit < 8 ∧ idx < 262144 then .next (s.mirrorWrite m) else .fault .noSuchUnit
  | .arrive g off _ _ => if g < 1024 ∧ off + 8 ≤ 0x40000 then .next (s.mirrorWrite m) else .fault .noSuchUnit

end Sys2Proof.Machine
end

