-- ==== Sys2Proof/Machine/Fence.lean ====
section
/-!
DEFINITION. fence, bfence, isync (11 R220 to R224, R235) and icinv (15 R280) with the arrival of its broadcast. Accesses to
this chip are performed at their acceptance point in this model, so a release waits only for what is on its way to other chips.
-/
namespace Sys2Proof.Machine

/-- Whether an order releases, and whether it acquires: 0 sc, 1 acq, 2 rel, 3 acqrel (11 R220, R221). -/
def releases (o : Nat) : Bool := o != 1

def acquires (o : Nat) : Bool := o != 2

/-- fence (11 R221); a release narrower than domain waits for nothing that leaves the chip (11 R218, R223). -/
def fenceRun (s : State) (o scope : Nat) : Run := do
  if scope = 4 && releases o then s.released .mem .again
  .ok (if scope = 4 && acquires o then s.acquire else s)

/-- bfence (11 R224): a probe goes to every marked pseudo-channel, the slot parks until the last echo, and the mask is cleared; with none
marked it completes at once. This chip's pseudo-channels have performed the slot's stores when the probes reach them. -/
def bfenceRun (s : State) : Run := do
  let (t, _) ← s.access (if s.cur.banks = 0 then none else some (.mem, .again)) fun x => (x, .done)
  .ok (t.setCur { t.cur with banks := 0 })

/-- isync (11 R235). -/
def isyncRun (s : State) : State := s.setCur { s.cur with fbuf := none }

/-- A fill in progress still delivers its words, and does not install its line (15 R280). -/
def Slot.uninstall (x : Slot) : Slot := { x with fill := x.fill.map fun f => { f with install := false } }

def Core.uninstall (c : Core) : Core := { c with slots := c.slots.map fun e => (e.1, e.2.uninstall) }

/-- An invalidation reaches a cluster: every line of its instruction cache goes (15 R280). -/
def State.invalidate (s : State) (c : Nat) : State :=
  { s.setCluster c { s.cluster c with icache := [] } with
    cores := s.cores.map fun e => if clusterOf e.1 = c then (e.1, e.2.uninstall) else e }

/-- The invalidations of the clusters of the package but one. -/
def otherClusters (c : Nat) : List Due := ((List.range 256).filter fun k => k != c).map Due.icacheArrival

/-- A turn in which an invalidation reaches a cluster. -/
def Turn.invalidates : Turn → Bool
  | .due (.icacheArrival _) => true
  | _ => false

/-- An invalidation has still to reach a cluster. -/
def State.invalidating (s : State) : Bool := s.agenda.any Turn.invalidates

/-- icinv (15 R280): the issuing cluster's lines are dropped, and the slot parks for the answer. -/
def icinvRun (s : State) : Run :=
  (s.access (slowMem true) fun x => (x.invalidate (clusterOf x.curCore), .done)).map fun x => x.1

/-- icinv.all (15 R280): the other clusters drop theirs at arrivals of their own; the slot is parked until all have. -/
def icinvAllRun (s : State) : Run := do
  let (t, _) ← s.access (slowMem true) fun x => ((x.invalidate (clusterOf x.curCore)).laterAll (otherClusters (clusterOf x.curCore)), .done)
  if t.invalidating then .error (t.hold .mem .none) else .ok t

/-- FENCE (11 R221). -/
def execFence (o : BitVec 2) (sc : BitVec 3) (s : State) : Host.Outcome State Fault Refusal :=
  retire s 4 4 (fenceRun s o.toNat sc.toNat)

/-- BFENCE (11 R224). -/
def execBfence (s : State) : Host.Outcome State Fault Refusal := retire s 4 4 (bfenceRun s)

/-- ISYNC (11 R235): the fetch buffer is discarded. -/
def execIsync (s : State) : Host.Outcome State Fault Refusal := retire s 4 4 (.ok (isyncRun s))

/-- ICINV (15 R280). -/
def execIcinv (s : State) : Host.Outcome State Fault Refusal := retire s 4 4 (icinvRun s)

/-- ICINV_ALL (15 R280). -/
def execIcinvAll (s : State) : Host.Outcome State Fault Refusal := retire s 4 4 (icinvAllRun s)

/-- ICACHE_INVALIDATE_ARRIVAL (15 R280). -/
def execIcacheInvalidateArrival (cluster : Nat) (s : State) : Host.Outcome State Fault Refusal :=
  if cluster < 256 then .next (s.invalidate cluster) else .fault .noSuchUnit

end Sys2Proof.Machine
end

