-- ==== Sys2Proof/Machine/Fabric.lean ====
section
/-!
DEFINITION. Destination slots, sends and deferred tensors at their sender and receiver: the FABRIC class, bal and bnal
(16 R294 to R306, R311 to R314; 17 R320; 19 R324, R325).
-/
namespace Sys2Proof.Machine

def State.dslot (s : State) (g k : Nat) : DSlot := tget .reset (s.core g).ds k

def State.setDslot (s : State) (g k : Nat) (d : DSlot) : State :=
  s.setCore g { s.core g with ds := tput (s.core g).ds k d }

/-- The allowance (16 R298). -/
def DSlot.allowance (d : DSlot) : Nat := if !d.bound || d.win ≤ d.inFl then 0 else min (d.win - d.inFl) 255

/-- The guard G, ns (06 R104). -/
def guardNs : Nat := 2000

/-- The source's record of a path, and whether it lets a message go: DT below E_s (06 R112, 17 R320). -/
def State.pathOf (s : State) (h : Word) : Option PathSrc := s.paths.find? fun p => p.h == h

def State.pathOpen (s : State) (p : PathSrc) : Bool := !p.gone && s.dt + guardNs < p.ed

/-- A path message leaves: to another chip, or as the next arrival here (16 R294). -/
def State.sendPath (s : State) (m : PathMsg) : State :=
  if hChip m.path ≠ s.chip then s.emit (.path (hChip m.path) m)
  else match m.body with
    | .signal _ _ => s.later (.fsig m)
    | .offer .. => s.later (.offer m)
    | _ => s.later (.path m)

/-- What a message writes at the cursor: bytes and their alignment (16 R302). -/
def bodyBytes : PathBody → Nat × Nat
  | .word _ => (8, 8)
  | .blocks bs => (64 * bs.length, 64)
  | .signal _ _ => (0, 1)
  | .offer .. => (8, 8)

/-- The message that destination slot k would send now. -/
def State.messageOf (s : State) (k : Nat) (p : PathSrc) (b : PathBody) : PathMsg :=
  { path := p.h, seq := p.seq, chip := s.chip, core := s.curCore, slot := s.curSlot, ds := k
    off := (s.dslot s.curCore k).cursor.toNat, body := b, tagOk := true, marked := false }

/-- The record of a path after a message: the next sequence number, the message kept until it is answered (16 R296). -/
def PathSrc.sent (h : Word) (f : Flight) (dt : Nat) (x : PathSrc) : PathSrc :=
  if x.h == h then
    { x with seq := (x.seq + 1) % 2 ^ 32, unacked := x.unacked ++ [f], since := if x.unacked.isEmpty then dt else x.since }
  else x

/-- Inject (16 R296, R302): the sequence number, the flits in flight, the cursor. -/
def State.inject (s : State) (k : Nat) (p : PathSrc) (b : PathBody) : State :=
  let d := s.dslot s.curCore k
  let m := s.messageOf k p b
  let f : Flight := { msg := m, tries := 0, fresh := false, id := s.nextId, counts := true, owner := s.curCore }
  let t := { s with nextId := s.nextId + 1, paths := s.paths.map (PathSrc.sent p.h f s.dt) }
  (t.setDslot s.curCore k { d with
    inFl := d.inFl + bodyFlits b, cursor := d.cursor + BitVec.ofNat 64 (bodyBytes b).1 }).sendPath m

/-- The unbound check (16 R302). -/
def State.bound (s : State) (k : Nat) : Except Stop Unit :=
  if (s.dslot s.curCore k).bound then .ok () else .error (.trap cLapsed 0)

/-- Whether n flits may go now: the allowance, and no earlier sender parked (16 R300). -/
def State.mayInject (s : State) (k n : Nat) : Bool :=
  let d := s.dslot s.curCore k
  (n ≤ d.allowance || d.inFl == 0) && !s.behind (.ds k)

/-- The checks in the cycle of injection, in the order of 16 R302, and the injection. -/
def State.injectChecked (s : State) (k : Nat) (b : PathBody) : Run :=
  let d := s.dslot s.curCore k
  let n := (bodyBytes b).1
  match s.pathOf d.path with
  | none => .error (.trap cLapsed d.path)
  | some p =>
    if d.cursor.toNat % (bodyBytes b).2 ≠ 0 then .error (.trap cMisaligned d.cursor)
    else if n ≠ 0 ∧ p.size < d.cursor.toNat + n then .error (.trap cSpace d.cursor)
    else if !s.pathOpen p then .error (.trap cLapsed d.path)
    else .ok (s.inject k p b)

/-- Steps 4 and 5 of 16 R302 for a message of n flits: the allowance, then the injection. -/
def State.send (s : State) (k n : Nat) (b : PathBody) : Run :=
  if s.mayInject k n then s.injectChecked k b else .error (s.hold .allw (.ds k))

/-- What Calico finds of a handle that is to be bound (16 R303). -/
def State.bindable (s : State) (h : Word) : Bool :=
  match s.pathOf h with
  | none => false
  | some p => !s.staleShape h && p.owner == s.ctxOf s.curCore && s.pathOpen p

/-- dsbind (16 R303): Calico's check, then the wait for IF = 0. -/
def dsbindRun (s : State) (k : Nat) (sp : Spec) (i : Int) : Run := do
  let (t, a) ← s.address sp i 8
  let (u, v) ← t.load a 8
  let h : Word := BitVec.ofNat 64 v
  let (w, _) ← u.access (slowMem true) fun x => (x, if x.bindable h then .done else .fault cLapsed h)
  let d := w.dslot w.curCore k
  if d.inFl ≠ 0 then .error (w.hold .allw .none)
  else .ok (w.setDslot w.curCore k { path := h, bound := true, cursor := 0, win := 16, inFl := 0, good := 0, hold := 0 })

/-- fsend (16 R304). -/
def fsendRun (s : State) (k : Nat) : Run := do
  let t ← s.once (s.bound k)
  t.send k 1 (.word t.acc)

/-- The blocks of fsendv, each checked and read once, when the instruction issues (16 R304). -/
def State.sendBlocks (s : State) (a : Word) (j : Nat) : Nat → Except Stop (State × List Block)
  | 0 => .ok (s, [])
  | n + 1 => do
    let (t, l) ← s.locate (runAddr a j) 64 64 .read (fun t => t == 0 || t == 1 || t == 2) false true
    let (u, b) ← t.blockLoc l
    let (v, bs) ← u.sendBlocks a (j + 1) n
    .ok (v, b :: bs)

/-- fsendv (16 R304). -/
def fsendvRun (s : State) (k : Nat) (sp : Spec) (n : Nat) : Run := do
  let (t, a) ← s.address sp 0 64
  let (u, bs) ← t.sendBlocks a 0 n
  let v ← u.once (u.bound k)
  v.send k n (.blocks bs)

/-- fseek (16 R304). -/
def fseekRun (s : State) (k : Nat) : State :=
  s.setDslot s.curCore k { s.dslot s.curCore k with cursor := s.acc }

/-- The checks of fsig before its park: the binding, then the handle (16 R302, R304). -/
def State.sigChecks (s : State) (k : Nat) (h : Word) : Except Stop Unit := do
  s.bound k
  if s.staleShape h || hClass h != 3 then .error (.trap cLapsed h)
  else if hChip h ≠ hChip (s.dslot s.curCore k).path then .error (.trap cProtection h)
  else .ok ()

/-- fsig (16 R304). -/
def fsigRun (s : State) (k : Nat) (sp : Spec) (i : Int) : Run := do
  let (t, a) ← s.address sp i 8
  let (u, v) ← t.load a 8
  let w ← u.once (u.sigChecks k (BitVec.ofNat 64 v))
  w.send k 1 (.signal (BitVec.ofNat 64 v) w.acc)

/-- allw (16 R305). -/
def allwRun (s : State) (k : Nat) : State :=
  let d := s.dslot s.curCore k
  let t := s.setAcc (BitVec.ofNat 64 (d.inFl % 512 * 2 ^ 17 + d.win % 512 * 256 + d.allowance))
  t.setFlags (setBit (setBit t.flags 0 (d.allowance == 0)) 1 false)

/-- The pins of a region to a destination, and whether a pin still holds (16 R317, 19 R325). -/
def State.pinLive (s : State) (p : Pin) : Bool := !p.ended && (p.h == 0 || s.dt < p.ep)

def meets (a n b m : Nat) : Bool := a < b + m && b < a + n

/-- Set or clear the pinned bit of the live pages of a context that a region touches (16 R311). -/
def pinBit (e : Word) (v : Bool) : Word := if v then e ||| (1#64 <<< 46) else e &&& ~~~(1#64 <<< 46)

def State.pinPages (s : State) (ctx base size : Nat) : State :=
  { s with entries := s.entries.map fun e =>
      if e.ctx == ctx && e.live s && meets e.va (pteSize e.pte) base size then { e with pte := pinBit e.pte true } else e }

/-- Clear the pinned bit of a context's pages that no live pin meets (16 R315). -/
def State.unpinPages (s : State) (ctx : Nat) : State :=
  let pins := s.pins.filter fun p => p.ctx == ctx && s.pinLive p
  { s with entries := s.entries.map fun e =>
      if e.ctx == ctx && ptePinned e.pte && !(pins.any fun p => meets e.va (pteSize e.pte) p.base p.size) then
        { e with pte := pinBit e.pte false } else e }

/-- The first address of a region in a lapsed range, which a lapsed view is not (16 R315, 19 R324); and whether each page is in
mode 1 on this chip in a range of the context (16 R311). -/
def State.regionLapsed (s : State) (ctx base size : Nat) : Option Nat :=
  ((List.range (ceilDiv (base % 65536 + size) 65536)).map fun i => max base (base / 65536 * 65536 + i * 65536)).find? fun va =>
    match s.entry ctx va with
    | some e => pteMode e.pte != 5 && !e.live s
    | none => false

def State.regionLocal (s : State) (ctx base size : Nat) : Bool :=
  ((List.range (ceilDiv (base % 65536 + size) 65536)).map fun i => max base (base / 65536 * 65536 + i * 65536)).all fun va =>
    match s.entry ctx va with
    | some e => pteMode e.pte == 1 && ptePeer e.pte == s.chip
    | none => false

/-- What dsend comes to before it sends (16 R311, 19 R325). -/
inductive Offer where
  | refuse (n : Nat)
  | lapsed (va : Nat)
  | wait
  | again (h : Word)
  | fresh
  deriving DecidableEq, Repr

/-- The live stubs of a context's region, and that of one destination (16 R311, R318; log 104). -/
def State.liveStubs (s : State) (ctx base size : Nat) : List Sent :=
  s.sent.filter fun x => x.ctx == ctx && x.base == base && x.size == size && decide (s.dt < x.e)

/-- The checks of dsend in the order of 16 R311. -/
def State.offerOf (s : State) (ctx dst : Nat) (d w0 w1 : Word) : Offer :=
  let base := offOf w0
  let size := w1.toNat
  if d = 0 ∨ tagOf w0 ≠ 8 ∨ base % 4096 ≠ 0 ∨ size % 4096 ≠ 0 ∨ size < 4096 ∨ 2 ^ 26 < size then .refuse 2
  else match s.regionLapsed ctx base size with
    | some va => .lapsed va
    | none =>
      if !s.regionLocal ctx base size then .refuse 6
      else
        let pins := s.pins.filter fun p => p.ctx == ctx && s.pinLive p && meets p.base p.size base size
        let asked := pins.filter fun p => p.base == base && p.size == size && p.h == 0
        let live := s.liveStubs ctx base size
        match live.find? fun x => x.dstCtx == dst with
        | some x => .again x.h
        | none =>
          if asked.any fun p => p.dstCtx == dst then .wait
          else if pins.any fun p => p.base != base || p.size != size then .refuse 5
          else if 4 ≤ live.length + asked.length then .refuse 4
          else .fresh

/-- The destination of a path as pins name it. -/
def PathSrc.dst (p : PathSrc) : Nat := hChip p.h * 1024 + p.dstCtx

/-- The end of a dsend: the handle, or the reason (16 R311). -/
def State.offerDone (s : State) (p : HomeRep) : State := (s.setAcc p.a).setF p.f

/-- The pins that the slot which runs has set and not yet sent the offer of. -/
def State.unsent (s : State) (p : Pin) : Bool := p.by_ == some (16 * s.curCore + s.curSlot)

/-- The pins of ended offers go; the bits of pages that no live pin meets are cleared (16 R311, R315). -/
def State.endPins (s : State) (gone : Pin → Bool) : State :=
  let ended := s.pins.filter gone
  let t := { s with pins := s.pins.filter fun p => !gone p }
  ended.foldl (fun u p => u.unpinPages p.ctx) t

/-- The grants under which the pages of a region stand. -/
def State.regionKeys (s : State) (ctx base size : Nat) : List (Nat × Nat) :=
  ((s.entries.filter fun e => e.ctx == ctx && e.live s && meets e.va (pteSize e.pte) base size).map fun e => (e.lease, e.gen)).eraseDups

/-- Pin a region for the offer that the slot which runs is about to send (16 R311). -/
def State.pinRegion (s : State) (ctx dst base size : Nat) : State :=
  let p : Pin :=
    { h := 0, ctx := ctx, dstCtx := dst, base := base, size := size, ep := 0, frozen := false, ended := false
      keys := s.regionKeys ctx base size, by_ := some (16 * s.curCore + s.curSlot), early := [] }
  { s with pins := s.pins ++ [p] }.pinPages ctx base size

/-- What dsend's own checks come to, judged once (16 R302, R311): its result, noted; the handle of a repeat offer; or a new region,
pinned. -/
def State.offerJudged (s : State) (dst : Nat) (w0 w1 : Word) : Except Stop (State × Reply) :=
  match s.recall with
  | some r => .ok (s.note r, r)
  | none =>
    let ctx := s.ctxOf s.curCore
    match s.offerOf ctx dst s.acc w0 w1 with
    | .refuse n => .error (.wait (s.note (.home (refuse (s.ownRep 0) n))) .mem .none s.soon)
    | .lapsed va => .error (.trap cLapsed (BitVec.ofNat 64 (2 ^ 63 + va)))
    | .wait => .error (s.hold .mem .again)
    | .again h => .ok (s.note (.num h.toNat), .num h.toNat)
    | .fresh => .ok ((s.pinRegion ctx dst (offOf w0) w1.toNat).note .done, .done)

/-- A fault of an offer at its injection removes the pin that this dsend has set (16 R302, R311). -/
def State.unpinned (s : State) : Stop → Stop
  | .trap code faddr => if s.pins.any s.unsent then .partway (s.endPins s.unsent) code faddr none else .trap code faddr
  | e => e

/-- The offer has left: its pin is the answer's, and the slot parks for the answer (16 R311). -/
def State.offered (s : State) (id : Nat) : Stop :=
  let t : State := { s with pins := s.pins.map fun p => if s.unsent p then { p with by_ := none } else p }
  .wait (t.setCur { t.cur with asked := id }) .mem .none .reply

/-- Send the offer, once, and park for its answer (16 R311). -/
def State.offerSend (s : State) (k : Nat) (b : PathBody) : Run :=
  match s.recall with
  | some (.home p) => .ok (s.offerDone p)
  | _ =>
    match s.send k 1 b with
    | .ok t => .error (t.offered s.nextId)
    | .error e => .error (s.unpinned e)

/-- The frames of the pages that a region of a context touches (16 R311). -/
def State.regionFrames (s : State) (ctx base size : Nat) : List (Nat × Nat) :=
  (s.entries.filter fun e => e.ctx == ctx && e.live s && meets e.va (pteSize e.pte) base size).map fun e => (e.addr e.va, pteSize e.pte)

/-- dsend (16 R311): the offer of a new region waits until every write to its pages, under whatever entry, that was accepted before
its bits were set has been performed. -/
def dsendRun (s : State) (k : Nat) (sp : Spec) (i : Int) : Run := do
  let (t, a) ← s.address sp i 8
  let (u, ws) ← t.words a 2
  let v ← u.once (u.bound k)
  let w0 := ws.getD 0 0
  let w1 := ws.getD 1 0
  let dst := ((v.pathOf (v.dslot v.curCore k).path).map PathSrc.dst).getD 0
  let (w, r) ← v.offerJudged dst w0 w1
  let body := PathBody.offer (w.ctxOf w.curCore) (offOf w0) w1.toNat (min w.acc.toNat (maxLease 7))
  match r with
  | .home p => .ok (w.offerDone p)
  | .num h => w.offerSend k (body (some (BitVec.ofNat 64 h)))
  | _ =>
    if w.recall.isNone && w.writePlaced (onFrames (w.regionFrames (w.ctxOf w.curCore) (offOf w0) w1.toNat)) then
      .error (w.hold .mem .again)
    else w.offerSend k (body none)

/-- dmap (16 R312): judged at the stub's home. -/
def dmapRun (s : State) (sp : Spec) (i : Int) : Run :=
  s.homeCalled sp i 3
    (fun t ws => do
      t.shapely (ws.getD 0 0)
      .ok none)
    (fun _ ws => (hChip (ws.getD 0 0), .dmap (ws.getD 0 0) (ws.getD 1 0) (ws.getD 2 0))) .mem .mem
    (fun t p => do
      faultOf p
      .ok ((if p.f then t.setAcc p.a else t.setLife p).setF p.f))

/-- Start the pulls of c tiles from k on, clipped to the region (16 R314). -/
def State.startPulls (s : State) (key k : Nat) : Nat → State
  | 0 => s
  | c + 1 => (s.startPull key k).startPulls key (k + 1) c

/-- What the station makes of spull (16 R314): the pulls started and 0, or 1 where the address lies in no view whose stub is live.
-/
def pullNow (a : Word) (c : Nat) (t : State) : State × Reply :=
  match (if tagOf a = 8 then t.entry (t.ctxOf t.curCore) (offOf a) else none) with
  | none => (t, .num 1)
  | some e =>
    match (tget Lease.unused t.leases e.lease).data with
    | .stub x =>
      if pteMode e.pte = 5 ∧ e.live t then
        let k := (offOf a - x.view.getD 0) / 4096
        (t.startPulls e.lease k (min c (x.size / 4096 - k)), .num 0)
      else (t, .num 1)
    | _ => (t, .num 1)

/-- The address of spull: it faults only under steps 1 to 3 of 04 R51 (16 R314). -/
def State.pullAddr (s : State) (a : Word) : Run :=
  if tagOf a ≠ 8 then (s.locate a 8 8 .read tagLoad true false).map fun x => x.1
  else if 2 ^ 57 ≤ offOf a then .error (.trap cSpace a)
  else if offOf a % 8 ≠ 0 then .error (.trap cMisaligned a)
  else .ok s

/-- spull (16 R314). -/
def spullRun (s : State) (sp : Spec) (i : Int) : Run := do
  let (t, a) ← s.address sp i 8
  let u ← t.pullAddr a
  let (v, r) ← u.access (slowMem true) (pullNow a (u.acc.toNat % 65536))
  .ok (v.setF (r.toNat == 1))

/-- DSBIND (16 R303). -/
def execDsbind (k : BitVec 4) (sp : Spec) (i : BitVec 8) (s : State) : Host.Outcome State Fault Refusal :=
  retire s 4 4 (dsbindRun s k.toNat sp i.toInt)

/-- FSEND (16 R304). -/
def execFsend (k : BitVec 4) (s : State) : Host.Outcome State Fault Refusal := retire s 4 4 (fsendRun s k.toNat)

/-- FSENDV (16 R304): not ready for 4 + ceil(n / 2) cycles (16 R307). -/
def execFsendv (k : BitVec 4) (sp : Spec) (n : BitVec 6) (s : State) : Host.Outcome State Fault Refusal :=
  retire s 4 (4 + (n.toNat + 2) / 2) (fsendvRun s k.toNat sp (n.toNat + 1))

/-- FSEEK (16 R304). -/
def execFseek (k : BitVec 4) (s : State) : Host.Outcome State Fault Refusal := retire s 4 4 (.ok (fseekRun s k.toNat))

/-- ALLW (16 R305). -/
def execAllw (k : BitVec 4) (s : State) : Host.Outcome State Fault Refusal := retire s 4 4 (.ok (allwRun s k.toNat))

/-- DSEND (16 R311). -/
def execDsend (k : BitVec 4) (sp : Spec) (i : BitVec 8) (s : State) : Host.Outcome State Fault Refusal :=
  retire s 4 4 (dsendRun s k.toNat sp i.toInt)

/-- DMAP (16 R312). -/
def execDmap (sp : Spec) (i : BitVec 8) (s : State) : Host.Outcome State Fault Refusal := retire s 4 4 (dmapRun s sp i.toInt)

/-- SPULL (16 R314). -/
def execSpull (sp : Spec) (i : BitVec 8) (s : State) : Host.Outcome State Fault Refusal := retire s 4 4 (spullRun s sp i.toInt)

/-- FSIG (16 R304). -/
def execFsig (k : BitVec 4) (sp : Spec) (i : BitVec 8) (s : State) : Host.Outcome State Fault Refusal :=
  retire s 4 4 (fsigRun s k.toNat sp i.toInt)

/-- BAL (16 R306). -/
def execBal (k : BitVec 4) (t : BitVec 3) (d : BitVec 17) (s : State) : Host.Outcome State Fault Refusal :=
  branch s 4 (decide (2 ^ t.toNat ≤ (s.dslot s.curCore k.toNat).allowance)) (s.relative d.toInt)

/-- BNAL (16 R306). -/
def execBnal (k : BitVec 4) (t : BitVec 3) (d : BitVec 17) (s : State) : Host.Outcome State Fault Refusal :=
  branch s 4 (decide ((s.dslot s.curCore k.toNat).allowance < 2 ^ t.toNat)) (s.relative d.toInt)

end Sys2Proof.Machine
end

