-- ==== Sys2Proof/Machine/Vamo.lean ====
section
/-!
DEFINITION. Vector and scatter atomics (10 R199 to R202).
-/
namespace Sys2Proof.Machine

/-- vaadd, vamin, vamax (10 R199). -/
def vamoNum (funct : Nat) (t x : Num) : Num :=
  match funct with
  | 0 => t.add false x
  | 1 => t.least x
  | _ => t.greatest x

/-- The lanes of a source block, an accumulator broadcast to every lane (10 R199, 08 R152). -/
def vamoLanes (alpha : Bool) (src : Block) : List Num :=
  if alpha then List.replicate 128 (fmt32.read (elemAt src.data 32 0)) else blockVals src

/-- The target elements of a block of width w, each with its source lane: none named means all, lane by lane. A scatter of
the accumulator names its elements in units of 32 bits (10 R199, R201). -/
def vamoTargets (alpha : Bool) (w : Nat) (lanes : List (Nat × Nat)) : List (Nat × Nat) :=
  if lanes.isEmpty then (List.range (lanesOf w)).map fun i => (i, i)
  else if alpha then lanes.map fun p => (p.1 * 32 / w, p.2)
  else lanes

/-- Replace element i of a list. -/
def putAt (l : List Nat) (i v : Nat) : List Nat := l.set i v

/-- Apply lanes, each a pair of target element and source lane: the elements, E, and whether the block is poisoned. -/
def vamoApply (funct : Nat) (f : Fmt) (scale : Nat) (xs : List Num) : List (Nat × Nat) → List Nat → List Nat × Bool × Bool
  | [], es => (es, false, false)
  | (t, j) :: r, es =>
    let c := f.convert 0 scale (vamoNum funct ((f.read (es.getD t 0)).under scale) (xs.getD j .nan))
    let q := vamoApply funct f scale xs r (putAt es t c.bits)
    (q.1, q.2.1 || c.e, q.2.2 || c.poison)

/-- What a vector atomic makes of a target block: a format fault, no write, or the block to write; and E (10 R199). -/
inductive VamoRes where
  | mismatch
  | keep
  | put (b : Block) (e : Bool)
  deriving DecidableEq, Repr

def vamoBlock (funct : Nat) (alpha : Bool) (src : Block) (lanes : List (Nat × Nat)) (t : Block) : VamoRes :=
  match fmtOf t.fmt.toNat with
  | none => .mismatch
  | some f =>
    if (!alpha && widthOf src.fmt.toNat != f.width) || (!lanes.isEmpty && f.width == 4) then .mismatch
    else if src.scale = 255 then .put (poisonBlock t.fmt) true
    else if t.scale = 255 then .keep
    else
      let r := vamoApply funct f t.scale.toNat (vamoLanes alpha src) (vamoTargets alpha f.width lanes) (elemsOf t.data f.width)
      .put (if r.2.2 then poisonBlock t.fmt else { t with data := packElems f.width r.1 }) (r.2.1 || r.2.2)

/-- The bytes of the block that an update writes: offset and count. A lane of a scatter writes its element only, unless it
poisons the block (10 R201, R203). -/
def vamoSpan (alpha : Bool) (lanes : List (Nat × Nat)) (x : Block) : Nat × Nat :=
  match lanes with
  | [p] =>
    if x.scale = 255 then (0, 64)
    else
      let w := widthOf x.fmt.toNat
      (((vamoTargets alpha w [p]).headD p).1 * w / 8, w / 8)
  | _ => (0, 64)

/-- A vector atomic on the block at a key: a format fault, or the update through write unless it strikes; E is answered. -/
def State.vamoKey (s : State) (ctx : Nat) (a : Word) (funct : Nat) (src : Src) (lanes : List (Nat × Nat)) (k : Nat)
    (strike : Nat → Nat → Bool) (write : State → Nat → Nat → Block → State) : State × Reply :=
  let t := s.sense ctx k 64
  match vamoBlock funct src.alpha src.block lanes (blockAt t.mem k) with
  | .mismatch => (t, .fault cFormat a)
  | .keep => (t, .num 1)
  | .put x e =>
    let r := vamoSpan src.alpha lanes x
    if strike r.1 r.2 then (t, .fault cWatch a) else (write t r.1 r.2 x, .num (if e then 1 else 0))

/-- Write part of a block, or the whole with its descriptor, into a buffer. -/
def State.putSpan (s : State) (b g base o n : Nat) (x : Block) : State :=
  if n = 64 then s.putBuf b g base x else s.writeBuf b g (base + o) ((x.data.drop o).take n)

/-- Perform a vector atomic on the block at a checked address, once: the state with E (10 R200). In the core's own L it takes no
park. -/
def State.vamoAt (s : State) (a : Word) (funct : Nat) (src : Src) (lanes : List (Nat × Nat)) : Loc → Except Stop State
  | .buf win b g off =>
    let base := off / 64 * 64
    (s.access (slowMem win) fun s =>
      s.vamoKey (s.ctxOf s.curCore) a funct src lanes (bufKey b g base) (fun o n => s.strikes b g (base + o) n)
        fun t o n x => t.putSpan b g base o n x).map fun y => y.1.raiseE (y.2.toNat != 0)
  | .glob (.here pa) e va =>
    let k := pa / 64 * 64
    (s.access (slowMem true) fun s =>
      ((s.charge e).dropLine (dieOf s.curCore) e va).vamoKey e.ctx a funct src lanes k (fun _ _ => false)
        fun t _ _ x => { t with mem := putBlock t.mem k x }.mend e.ctx k 64 true).map fun y => y.1.raiseE (y.2.toNat != 0)
  | .glob (.chip c pa) e va =>
    (s.askAtomic a e va c pa (.vamo funct src.alpha src.block lanes)).map fun y => y.1.raiseE (y.2.old != 0)
  | _ => .error (.trap cSpace a)

/-- A numeric source of any width (10 R199, 08 R150). -/
def checkVamo : SrcCheck := fun _ _ x =>
  if (fmtOf x.block.fmt.toNat).isSome then .ok () else .error (.trap cFormat x.addr)

/-- vaadd, vamin, vamax (10 R200): S1, then D; one indivisible update of all lanes. -/
def vamoRun (s : State) (d a : Spec) (funct : Nat) : Run := do
  let x := s.operand a 0 64
  let z := x.1.operand d 0 64
  match z.2 with
  | .mem base => do
    let q ← z.1.needPorts (x.2.uses false 8)
    let (t, xs) ← q.readSrcs checkVamo [] [x.2]
    let (t, l) ← t.atomicLoc base 64 64
    match xs with
    | y :: _ => t.vamoAt base funct y [] l
    | [] => .error (.trap cIllegal 0)
  | _ => .error (.trap cIllegal 0)

/-- The signed index of lane i (10 R201). -/
def laneIndex (bs : List Byte) (i : Nat) : Int := signedOf 4 (leNat ((bs.drop (4 * i)).take 4))

/-- Read n consecutive blocks. -/
def State.readRun (s : State) (a : Word) (j : Nat) : Nat → Except Stop (State × List Block)
  | 0 => .ok (s, [])
  | n + 1 => do
    let (t, b) ← s.laneRead (runAddr a j)
    let (t, l) ← t.readRun a (j + 1) n
    .ok (t, b :: l)

/-- One lane of a scatter: its element's address, checked, and the update. -/
def State.scatterLane (s : State) (funct : Nat) (src : Src) (w : Nat) (a : Word) (j : Nat) : Except Stop State := do
  let (t, l) ← s.atomicLoc a (w / 8) (w / 8)
  t.vamoAt a funct src [((offOf a) % 64 / (w / 8), j)] l

/-- What stops lane j keeps the lanes before it, and notes j (10 R201, R202). -/
def Stop.atLane (s : State) (j : Nat) : Stop → Stop
  | .trap code faddr => .partway (s.setCur { s.cur with lane := some j }) code faddr (some j)
  | .partway t code faddr _ => .partway (t.setCur { t.cur with lane := some j }) code faddr (some j)
  | .wait t r res wake => .wait (t.setCur { t.cur with lane := some j }) r res wake

/-- Lanes from j on, in ascending order, each once the one before has been accepted (10 R201). In a gang that is pre-empted no
further lane is begun (15 R282). -/
def State.scatterLanes (s : State) (funct : Nat) (src : Src) (w : Nat) (addr : Nat → Word) (j : Nat) : Nat → Except Stop State
  | 0 => .ok s
  | n + 1 =>
    if s.recall.isNone && (s.cluster (clusterOf s.curCore)).halt then
      .error (.wait (s.setCur { s.cur with lane := some j }) .mem .again .poll)
    else
      match s.scatterLane funct src w (addr j) j with
      | .ok t => t.scatterLanes funct src w addr (j + 1) n
      | .error e => .error (e.atLane s j)

/-- vaadd.s, vamin.s, vamax.s (10 R201): a misaligned base shows at its first lane, after that lane's space (04 R51). -/
def scatterAtomRun (s : State) (d a b : Spec) (funct : Nat) : Run := do
  let x := s.operand a 0 64
  let y := x.1.operand b 0 64
  let z := y.1.operand d 0 64
  match y.2, z.2 with
  | .mem idx, .mem base => do
    let q ← z.1.needPorts (x.2.uses false 8)
    let (t, xs) ← q.readSrcs checkVamo [] [x.2]
    match xs with
    | src :: _ =>
      let w := widthOf src.block.fmt.toNat
      if w = 4 then .error (.trap cFormat src.addr)
      else do
        let n := lanesOf w
        let (t, is) ← t.readRun idx 0 (ceilDiv (n * 4) 64)
        if is.any fun k => k.scale == 255 then .ok (t.raiseE true)
        else
          let bytes := is.flatMap fun k => k.data
          let j := s.cur.restart.getD 0
          t.scatterLanes funct src w (fun i => ptrAdd base (laneIndex bytes i * (w / 8 : Nat))) j (n - j)
    | [] => .error (.trap cIllegal 0)
  | _, _ => .error (.trap cIllegal 0)

/-- VAADD (10 R200). -/
def execVaadd (d a : Spec) (s : State) : Host.Outcome State Fault Refusal := retire s 4 4 (vamoRun s d a 0)

/-- VAMIN (10 R200). -/
def execVamin (d a : Spec) (s : State) : Host.Outcome State Fault Refusal := retire s 4 4 (vamoRun s d a 1)

/-- VAMAX (10 R200). -/
def execVamax (d a : Spec) (s : State) : Host.Outcome State Fault Refusal := retire s 4 4 (vamoRun s d a 2)

/-- VAADD_S (10 R201). -/
def execVaaddS (d a b : Spec) (s : State) : Host.Outcome State Fault Refusal := retire s 4 4 (scatterAtomRun s d a b 0)

/-- VAMIN_S (10 R201). -/
def execVaminS (d a b : Spec) (s : State) : Host.Outcome State Fault Refusal := retire s 4 4 (scatterAtomRun s d a b 1)

/-- VAMAX_S (10 R201). -/
def execVamaxS (d a b : Spec) (s : State) : Host.Outcome State Fault Refusal := retire s 4 4 (scatterAtomRun s d a b 2)

end Sys2Proof.Machine
end

