-- ==== Sys2Proof/Machine/Arrivals.lean ====
section
/-!
DEFINITION. What arrives over the fabric: unordered requests and replies, path messages and their answers, pulls, links and
completions of deferred tensors, flits (16 R292 to R299, R308 to R319; 17 R320, R321).
-/
namespace Sys2Proof.Machine

/-- The copy that an owner's number names, and the gang that has left its cluster. -/
def copyOf? (owner : Nat) : Option Nat := if 2048 ≤ owner ∧ (owner - 2048) % 3 = 0 then some ((owner - 2048) / 3) else none

def gangOf? (owner : Nat) : Option Nat := if 2049 ≤ owner ∧ (owner - 2049) % 3 = 0 then some ((owner - 2049) / 12) else none

/-- The copy packet that waits for the answer to its descriptor. -/
def packetOf? (owner : Nat) : Option Nat := if 2053 ≤ owner ∧ (owner - 2053) % 3 = 0 then some ((owner - 2053) / 3) else none

/-- The die on which a request's owner stands: a core, an engine, a station, or where a gang that has left its cluster ran. -/
def State.ownerDie (s : State) (owner : Nat) : Nat :=
  if owner < 1024 then dieOf owner
  else if owner < 2048 then owner % 4
  else match gangOf? owner, copyOf? owner, packetOf? owner with
    | some n, _, _ => (s.gang n).die
    | _, some id, _ => ((s.copies.lookup id).map fun c => engDie c.engine).getD 0
    | _, _, some k => ((s.started.lookup k).map fun p => linkDie p.link).getD 0
    | _, _, _ => 0

/-- The record of a remote error: of the slot of core g that caused it; of a slot whose gang has left its cluster, which has no core
and no pc any more (log 103); or of no slot (15 R287). -/
def State.errorOf (s : State) (kind ctx g k : Nat) (detA detV : Word) : ErrorRecord :=
  let r := ctxRecord s kind ctx (s.ownerDie g) detA detV
  match gangOf? g with
  | some n => { r with slot := k, launch := (s.launch (s.gang n).launch).ident, gang := (s.gang n).index }
  | none => if g < 1024 then slotRecord s kind g k detA detV else r

/-- A remote error of a context, with the slot that caused it (16 R319). -/
def State.fabricError (s : State) (kind ctx g k : Nat) (detA : Word) (chip : Nat) : State :=
  (s.report (s.errorOf kind ctx g k detA (BitVec.ofNat 64 chip))).revoke ctx

/-- The owner of a request that wants its block: an engine (16 R292). -/
def wantsBlock (q : RemoteOut) : Bool :=
  match q.op with
  | .read _ => (1024 ≤ q.core && q.core < stationOwner 0) || (stationOwner 4 ≤ q.core && q.core < 2048) || (copyOf? q.core).isSome
  | _ => false

/-- Another read of the line that a request reads. -/
def RemoteOut.sameLine (q x : RemoteOut) : Bool :=
  x.chip == q.chip && x.pa / 64 == q.pa / 64 && x.id != q.id && match x.op with
    | .read _ => true
    | _ => false

/-- A line that comes back is copied unless another read of it is on its way: which of the two was performed first is not known, and
neither is copied then, so that no read finds an older value than the last (09 R169, 11 R216, R217). -/
def State.fillLineOf (s : State) (q : RemoteOut) (b : Block) : State :=
  if s.remote.any q.sameLine then s.cancelFills q.sameLine
  else match q.fill with
    | some (die, va) => s.fillCache die q.ctx va b
    | none => s

/-- A copy notes a block in which its merge has met an uncorrectable error at its home (09 R192). -/
def State.spoil (s : State) (q : RemoteOut) (r : MemRep) : State :=
  match (if r.flawed then copyOf? q.core else none) with
  | none => s
  | some id =>
    match s.copies.lookup id with
    | some c => s.setCopy id { c with spoiled := (q.chip, q.pa / 64 * 64) :: c.spoiled }
    | none => s

def isCopy : RemoteOp → Bool
  | .copy .. => true
  | _ => false

/-- The place in another chip's queue that an answer gives, if nobody waits for it any more, is given back (09 R177). -/
def State.placeBack (s : State) (q : RemoteOut) (r : MemRep) : State :=
  if r.old = 0 then s.request nobody 0 q.ctx q.chip 0 (.copyEnd q.id) else s

/-- Whether a slot waits for the answer to a request. -/
def Slot.awaits (x : Slot) (id : Nat) : Bool := x.live && x.asked == id && x.park.isSome

/-- The answer to a copy's descriptor (09 R177): to the slot that sent it, or to a copy packet, which tries again if there was no room.
-/
def State.placeAnswer (s : State) (q : RemoteOut) (r : MemRep) : State :=
  if q.core < 1024 then
    (if (s.slot q.core q.slot).awaits q.id then s.answerSlot q.core q.slot q.id (.mem q.chip q.pa r) else s.placeBack q r)
  else match (packetOf? q.core).bind fun k => (s.started.lookup k).map fun p => (k, p) with
    | some (k, p) => if r.old = 0 then s.packetTaken k (q.chip * 65536 + q.pa) p (some q.id) else s
    | none => s.placeBack q r

/-- Hand a reply to the slot that waits for it, to the engine that does, or to the station's line (04 R53, 09 R169). -/
def State.deliver (s : State) (q : RemoteOut) (r : MemRep) : State :=
  let t := match q.op with
    | .read _ => s.fillLineOf q r.block
    | _ => s.spoil q r
  if isCopy q.op then t.placeAnswer q r
  else if q.core < 1024 ∧ q.slot < 16 then t.answerSlot q.core q.slot q.id (.mem q.chip q.pa r)
  else if wantsBlock q then { t with fetched := t.fetched ++ [{ owner := q.core, chip := q.chip, pa := q.pa, rep := r }] }
  else t

/-- Requests that are performed once however often they are sent: their outcome is kept until the answer is acknowledged (16 R292);
that a copy descriptor is among them is the model's reading (log 88). -/
def isAtomic : RemoteOp → Bool
  | .amo .. => true
  | .vamo .. => true
  | .copy .. => true
  | _ => false

def RemoteOut.again (id dt : Nat) (x : RemoteOut) : RemoteOut :=
  if x.id = id then { x with resend := x.resend + 1, since := dt } else x

def RemoteOut.failed (id dt : Nat) (x : RemoteOut) : RemoteOut :=
  if x.id = id then { x with fails := x.fails + 1, since := dt } else x

/-- Send a request once more. -/
def State.sendAgain (s : State) (q : RemoteOut) : State :=
  s.emit (.request q.chip { chip := s.chip, id := q.id, ctx := q.ctx, pa := q.pa, op := q.op, tagOk := true })

/-- A request stands no more, and its context ends with a remote error (16 R319). -/
def State.requestError (s : State) (q : RemoteOut) (kind : Nat) : State :=
  ({ s with remote := s.remote.filter fun x => x.id != q.id }).fabricError kind q.ctx q.core (q.slot % 16) (BitVec.ofNat 64 q.pa) q.chip

/-- A request to a home, or its answer, has failed its tag: it is sent again, or ends at a fourth failure (16 R309, R319). -/
def HomeOut.failed (id dt : Nat) (o : HomeOut) : HomeOut :=
  if o.req.id = id then { o with fails := o.fails + 1, since := dt } else o

def State.failHome (s : State) (o : HomeOut) : State :=
  let t := { s with homeOut := s.homeOut.map (HomeOut.failed o.req.id s.dt) }
  if 3 ≤ o.fails then t.later (.resend o.req.id) else t.emit (.home o.chip o.req)

/-- A pull request has failed its tag (16 R309, R319). -/
def PullOut.failed (id dt : Nat) (p : PullOut) : PullOut :=
  if p.id = id then { p with fails := p.fails + 1, since := dt } else p

def State.failPull (s : State) (p : PullOut) : State :=
  let t := { s with pullsOut := s.pullsOut.map (PullOut.failed p.id s.dt) }
  if 3 ≤ p.fails then t.later (.resend p.id) else t.emit (.pull p.chip p.h p.tile)

/-- A copy of a request, or of its answer, has failed its tag: it is sent again; a fourth failure is a remote error (16 R309,
R319). -/
def State.failRequest (s : State) (id : Nat) : State :=
  match s.remote.find? fun q => q.id == id with
  | none =>
    match s.homeOut.find? fun o => o.req.id == id with
    | some o => s.failHome o
    | none => s
  | some q =>
    if 3 ≤ q.fails then s.requestError q 3
    else ({ s with remote := s.remote.map (RemoteOut.failed id s.dt) }).sendAgain q

/-- MEMORY_REPLY: the answer to a request that still stands; a duplicate is discarded (16 R292). The answer of an atomic is
acknowledged; one that says that its line had an uncorrectable error gives the context its record (09 R191, R192). -/
def State.memoryReply (s : State) (r : MemRep) : State :=
  match s.remote.find? fun q => q.id == r.id with
  | none => s
  | some q =>
    if !r.tagOk then (s.bumpDie (s.ownerDie q.core) 0x0D2).failRequest q.id
    else
      match r.remoteError with
      | some kind => s.requestError q kind
      | none =>
        let t := { s with remote := s.remote.filter fun x => x.id != r.id }
        let u := if isAtomic q.op then t.thank q.chip q.id
          else t
        (if r.flawed then u.memoryErrorOf q.ctx q.chip q.pa else u).deliver q r

/-- A reply that says nothing yet. -/
def memRep (id : Nat) : MemRep :=
  { id := id, block := { data := List.replicate 64 0, fmt := 0, scale := 127 }, old := 0, fault := none, remoteError := none
    tagOk := true, flawed := false }

/-- A scalar atomic of another chip (10 R195, R197). -/
def State.serveAmo (s : State) (rep : MemRep) (pa funct size : Nat) (v x : Word) : State × MemRep :=
  if poisoned s.mem pa then (s, { rep with fault := some (cPoison, 0) })
  else
    let old := mread s.mem pa size
    let r := { rep with old := BitVec.ofNat 64 old }
    match amoNew funct size old v.toNat x.toNat with
    | some n => (s.write pa size n, r)
    | none => (s, r)

/-- A vector atomic of another chip: old is not 0 where E is set (10 R199, R200). -/
def State.serveVamo (s : State) (rep : MemRep) (pa funct : Nat) (alpha : Bool) (src : Block) (lanes : List (Nat × Nat)) :
    State × MemRep :=
  match vamoBlock funct alpha src lanes (blockAt s.mem (pa / 64 * 64)) with
  | .mismatch => (s, { rep with fault := some (cFormat, 0) })
  | .keep => (s, { rep with old := 1 })
  | .put b e => ({ s with mem := putBlock s.mem (pa / 64 * 64) b }, { rep with old := if e then 1 else 0 })

/-- A write of another chip, performed in t: the ECC of its line (09 R192), and what its answer says of it. -/
def State.served (s t : State) (r : RemoteReq) (pa n : Nat) (whole : Bool) : State × MemRep :=
  (t.mend (s.ownerKey r.chip r.ctx) pa n whole, { memRep r.id with flawed := s.flawed pa n true whole })

/-- Runs of bytes of another chip merged into the block at pa, then its descriptor: one that has met an uncorrectable error stays
poisoned (09 R182, R192). -/
def State.servedRuns (s : State) (r : RemoteReq) (pa : Nat) (f sc : Byte) : List (Nat × List Byte) → State × Bool
  | [] => ({ s with mem := setDesc s.mem pa (some f) sc }, false)
  | b :: bs =>
    let met := s.flawed (pa + b.1) b.2.length true false
    let t := (s.writeBytes (pa + b.1) b.2).mend (s.ownerKey r.chip r.ctx) (pa + b.1) b.2.length false
    let x := t.servedRuns r pa f (if met then 255 else sc) bs
    (x.1, met || x.2)

/-- A read of another chip: an uncorrectable error is a remote error of the context that asks (16 R319). -/
def State.serveRead (s : State) (r : RemoteReq) : State × MemRep :=
  let pa := r.pa / 64 * 64
  let t := s.sense (s.ownerKey r.chip r.ctx) pa 64
  (t, if s.flawed pa 64 false false then { memRep r.id with remoteError := some 1 }
      else { memRep r.id with block := blockAt t.mem pa })

/-- Perform a request of another chip on this chip's memory (16 R292, 09 R170). An address beyond device memory fails here as
protection: a remote error of the asking context. A copy descriptor takes a place in its engine's queue, if there is room, until the
chip that works the copy says that it is over (09 R177, log 35). -/
def State.serve (s : State) (r : RemoteReq) : State × MemRep :=
  let rep := memRep r.id
  match r.op with
  | .copy e _ =>
    if s.engineRoom (s.chip * 65536 + e) then ({ s with guests := s.guests ++ [{ chip := r.chip, id := r.id, engine := e }] }, rep)
    else (s, { rep with old := 1 })
  | .copyEnd id => ({ s with guests := s.guests.filter fun g => !(g.chip == r.chip && g.id == id) }, rep)
  | op =>
    if hbmSize ≤ r.pa then (s, { rep with remoteError := some 2 })
    else
      match op with
      | .read _ => s.serveRead r
      | .write bs => s.served (s.writeBytes r.pa bs) r r.pa bs.length false
      | .writeBlock b => s.served { s with mem := putBlock s.mem (r.pa / 64 * 64) b } r (r.pa / 64 * 64) 64 true
      | .desc fmt scale => s.served { s with mem := setDesc s.mem r.pa fmt scale } r r.pa 1 false
      | .merge runs f sc =>
        let x := s.servedRuns r (r.pa / 64 * 64) f sc runs
        (x.1, { rep with flawed := x.2 })
      | .amo funct size v x =>
        (s.sense (s.ownerKey r.chip r.ctx) r.pa size).serveAmo { rep with flawed := s.flawed r.pa size false false } r.pa funct size v x
      | .vamo funct alpha src lanes =>
        (s.sense (s.ownerKey r.chip r.ctx) (r.pa / 64 * 64) 64).serveVamo
          { rep with flawed := s.flawed (r.pa / 64 * 64) 64 false false } r.pa funct alpha src lanes
      | .copy .. => (s, rep)
      | .copyEnd _ => (s, rep)

def reqKey (r : RemoteReq) : Nat := r.chip + 4096 * r.id

/-- Note the scale of each block that is not noted yet, and poison it (16 R309). -/
def poisonAll (m : List Host.Cell) (rec_ : List (Nat × Byte)) : List Nat → List Host.Cell × List (Nat × Byte)
  | [] => (m, rec_)
  | b :: bs =>
    let r := if rec_.any fun e => e.1 == b then rec_ else rec_ ++ [(b, mget m (scaleKey b))]
    poisonAll (mput m (scaleKey b) 255) r bs

/-- The recorded scales of what failed copies of a request have poisoned. -/
def State.healingOf (s : State) (r : RemoteReq) : List (Nat × Byte) := (s.healing.lookup (reqKey r)).getD []

def State.healed (s : State) (r : RemoteReq) : State := { s with healing := s.healing.filter fun e => e.1 != reqKey r }

/-- What a failed copy of a request has done: a write that is not stalled is in place, poisoned; nothing else is performed. -/
def State.taintedBy (s : State) (r : RemoteReq) : State :=
  if opWrites r.op && !isAtomic r.op && r.pa < hbmSize && (s.pinnedAt r.pa).isNone then
    let t := (s.serve r).1
    let p := poisonAll t.mem (match s.healingOf r with
      | [] => [(r.pa / 64 * 64, mget s.mem (scaleKey r.pa))]
      | l => l) [r.pa / 64 * 64]
    { t.healed r with mem := p.1, healing := (reqKey r, p.2) :: (t.healed r).healing }
  else s

/-- A request whose integrity tag fails is asked for again (16 R309). -/
def State.badRequest (s : State) (r : RemoteReq) : State :=
  (((s.bumpDie (dieOfPa r.pa % 4) 0x0D2).taintedBy r).bumpDie (dieOfPa r.pa % 4) 0x0D3).emit (.goBack r.chip 0 r.id)

/-- Bytes rewritten by a copy that passes take back the scale of their block (16 R309); a block, or a descriptor, carries its own.
-/
def State.heal (s : State) (r : RemoteReq) : State :=
  match r.op, s.healingOf r with
  | .write _, (b, sc) :: _ => { s.healed r with mem := mput s.mem (scaleKey b) sc }
  | _, _ => s.healed r

/-- A request that is performed and answered. -/
def State.serveNow (s : State) (r : RemoteReq) : State :=
  let x := s.serve r
  let t := { x.1.heal r with stalled := x.1.stalled.filter fun q => q != r }
  let u := if isAtomic r.op then { t with performed := t.performed ++ [(reqKey r, x.2)] } else t
  u.emit (.reply r.chip r.id x.2)

/-- REMOTE_REQUEST_ARRIVAL: a write to a pinned page waits here until the pins end, and its sender is told so (16 R316; log 91). -/
def State.remoteArrive (s : State) (r : RemoteReq) : State :=
  match (if isAtomic r.op then s.performed.lookup (reqKey r) else none) with
  | some rep => s.emit (.reply r.chip r.id rep)
  | none =>
    if !r.tagOk then s.badRequest r
    else
      match (if opWrites r.op then s.pinnedAt r.pa else none) with
      | some e =>
        let t := s.emit (.holdNotice r.chip (BitVec.ofNat 64 r.id))
        if s.stalled.contains r then t else { t.freezePage e with stalled := t.stalled ++ [r] }
      | none => s.serveNow r

/-- Resend a request that has had no answer, up to three times; then the chip counts as unreachable (16 R292, R319). -/
def State.resendRemote (s : State) (q : RemoteOut) : State :=
  if s.dt < q.since + resendNs then s
  else if q.resend < 3 then
    let t := { s with remote := s.remote.map (RemoteOut.again q.id s.dt) }
    (t.bumpDie (s.ownerDie q.core) 0x0D5).sendAgain q
  else s.requestError q 4

def HomeOut.again (id dt : Nat) (o : HomeOut) : HomeOut :=
  if o.req.id = id then { o with resend := o.resend + 1, since := dt } else o

/-- A request to a home stands no more, and its context ends with a remote error (16 R319). -/
def State.homeError (s : State) (o : HomeOut) (kind : Nat) : State :=
  ({ s with homeOut := s.homeOut.filter fun x => x.req.id != o.req.id }).fabricError kind o.req.ctx o.owner o.req.slot 0 o.chip

def State.resendHome (s : State) (o : HomeOut) : State :=
  if 3 < o.fails then s.homeError o 3
  else if s.dt < o.since + resendNs then s
  else if o.resend < 3 then
    let t := { s with homeOut := s.homeOut.map (HomeOut.again o.req.id s.dt) }
    (t.bumpDie (s.ownerDie o.owner) 0x0D5).emit (.home o.chip o.req)
  else s.homeError o 4

def PullOut.again (id dt : Nat) (p : PullOut) : PullOut :=
  if p.id = id then { p with resend := p.resend + 1, since := dt } else p

/-- The stub that a handle of this chip names. -/
def State.stubAt (s : State) (h : Word) : Option Stub :=
  if hClass h != 7 || hChip h != s.chip || s.staleHere h then none
  else match (s.record h).data with
    | .stub x => some x
    | _ => none

def State.setStub (s : State) (h : Word) (x : Stub) : State := s.setRecord h { s.record h with data := .stub x }

/-- A tile is under way no more. -/
def Stub.settle (x : Stub) (tile : Nat) : Stub := { x with pulling := x.pulling.filter fun e => e.1 != tile }

/-- A pull request stands no more, and the context of its stub ends with a remote error (16 R319). -/
def State.pullError (s : State) (p : PullOut) (kind : Nat) : State :=
  let t := match s.stubAt p.h with
    | some x => s.setStub p.h (x.settle p.tile)
    | none => s
  ({ t with pullsOut := t.pullsOut.filter fun x => x.id != p.id }).fabricError kind (s.record p.h).owner (stationOwner (hDie p.h)) 0 p.h p.chip

def State.resendPull (s : State) (p : PullOut) : State :=
  if 3 < p.fails then s.pullError p 3
  else if s.dt < p.since + resendNs then s
  else if p.resend < 3 then
    let t := { s with pullsOut := s.pullsOut.map (PullOut.again p.id s.dt) }
    (t.bumpDie (hDie p.h) 0x0D5).emit (.pull p.chip p.h p.tile)
  else s.pullError p 4

/-- UNORDERED_RESEND_TIMEOUT: of an access, of a request to a home, or of a pull request (16 R292). -/
def State.resendRequest (s : State) (id : Nat) : State :=
  match s.remote.find? fun q => q.id == id with
  | some q => s.resendRemote q
  | none =>
    match s.homeOut.find? fun o => o.req.id == id with
    | some o => s.resendHome o
    | none =>
      match s.pullsOut.find? fun p => p.id == id with
      | some p => s.resendPull p
      | none => s

/-- What a path's destination holds, of a handle that is not stale (16 R295). -/
def State.pathAt (s : State) (h : Word) : Option PathDst :=
  if hClass h != 6 || hChip h != s.chip || s.staleHere h then none
  else match (s.record h).data with
    | .path x => some x
    | _ => none

def State.setPathAt (s : State) (h : Word) (x : PathDst) : State := s.setRecord h { s.record h with data := .path x }

/-- The entry of the destination range for a byte at an offset, if path messages may write it (16 R295). -/
def State.pathPage (s : State) (x : PathDst) (off : Nat) : Option PageEntry :=
  match (s.record x.range).data with
  | .range va _ _ _ =>
    match s.entry (s.record x.range).owner (va + off) with
    | some e =>
      if e.lease = leaseKey (unitOf 2 (hDie x.range)) (hIndex x.range) ∧ e.gen = hGen x.range ∧ pteMode e.pte = 1 ∧
          pteW e.pte = true ∧ ptePeer e.pte = s.chip then some e else none
    | none => none
  | _ => none

/-- The device address of a byte of the destination range. -/
def State.pathPa (s : State) (x : PathDst) (off : Nat) : Nat :=
  match (s.record x.range).data, s.pathPage x off with
  | .range va _ _ _, some e => e.addr (va + off)
  | _, _ => 0

/-- First and last byte that a message writes; a message lies in at most two pages. -/
def writtenEnds (m : PathMsg) : List Nat :=
  match (bodyBytes m.body).1 with
  | 0 => []
  | n + 1 => [m.off, m.off + n]

/-- The judgement of a message that arrives in sequence (16 R295, 17 R321). -/
def State.pathAccepts (s : State) (x : PathDst) (m : PathMsg) : Bool :=
  s.leaseLive (s.record m.path) && s.rangeLive x.range && (writtenEnds m).all fun o => (s.pathPage x o).isSome

/-- The places that a message writes, by device address: one for each block, none for a signal. -/
def State.pathPlaces (s : State) (x : PathDst) (m : PathMsg) : List Nat :=
  match m.body with
  | .blocks bs => (List.range bs.length).map fun i => s.pathPa x (m.off + 64 * i)
  | .signal _ _ => []
  | _ => [s.pathPa x m.off]

/-- The page of this chip that blocks writes at a device address: pinned, or write-blocked (16 R316). -/
def State.blockerAt (s : State) (pa : Nat) : Option PageEntry :=
  s.entries.find? fun e =>
    (pteWb e.pte || ptePinned e.pte) && ptePeer e.pte == s.chip && pteMode e.pte != 5 && pteFrame e.pte * 4096 ≤ pa &&
      pa < pteFrame e.pte * 4096 + pteSize e.pte

def State.blockersAt (s : State) (at_ : List Nat) : List PageEntry := at_.filterMap s.blockerAt

def State.freezePages (s : State) : List PageEntry → State
  | [] => s
  | e :: es => (if ptePinned e.pte then s.freezePage e else s).freezePages es

/-- Answers leave for the source, or are the next arrival here. -/
def State.sendAck (s : State) (chip : Nat) (a : AckMsg) : State :=
  if chip = s.chip then s.later (.ack a) else s.emit (.ack chip a)

def State.sendGoBack (s : State) (m : PathMsg) (seq : Nat) : State :=
  let t := s.bumpDie (hDie m.path) 0x0D3
  if m.chip = s.chip then t.later (.goBack m.path seq) else t.emit (.goBack m.chip m.path seq)

def State.sendHold (s : State) (m : PathMsg) : State :=
  if m.chip = s.chip then s.later (.holdNotice m.path) else s.emit (.holdNotice m.chip m.path)

def ackOf (s : State) (m : PathMsg) : AckMsg :=
  { chip := s.chip, path := m.path, seq := m.seq, marked := m.marked, refused := false, handle := 0, e := 0, reason := 0 }

/-- A refusal: nothing is written, the message is counted and answered (16 R295); a refused offer gives reason 3 (16 R311). -/
def State.pathRefuse (s : State) (m : PathMsg) : State :=
  (s.bumpDie (hDie m.path) 0x0D0).sendAck m.chip { ackOf s m with refused := true, reason := 3 }

/-- The context that owns a path's destination range. -/
def State.pathOwner (s : State) (x : PathDst) : Nat := (s.record x.range).owner

/-- Write blocks at their places, whole, with their descriptors. -/
def State.putBlocks (s : State) (ctx : Nat) : List Nat → List Block → State
  | pa :: ps, b :: bs => ({ s with mem := putBlock s.mem pa b }.mend ctx pa 64 true).putBlocks ctx ps bs
  | _, _ => s

/-- The data of a message at its places. -/
def State.pathData (s : State) (x : PathDst) (m : PathMsg) (at_ : List Nat) : State :=
  match m.body with
  | .word v => (s.writeBytes (at_.headD 0) (leBytes 8 v.toNat)).mend (s.pathOwner x) (at_.headD 0) 8 false
  | .blocks bs => s.putBlocks (s.pathOwner x) at_ bs
  | _ => s

/-- The blocks that a message of data writes wholly or in part. -/
def pathBlocks (m : PathMsg) (at_ : List Nat) : List Nat :=
  match m.body with
  | .word _ => at_.map fun pa => pa / 64 * 64
  | .blocks _ => at_
  | _ => []

/-- A message whose tag fails (16 R309): written, its blocks poisoned, and asked for again. -/
def State.tagFail (s : State) (x : PathDst) (m : PathMsg) (at_ : List Nat) : State :=
  let t := (s.bumpDie (hDie m.path) 0x0D2).pathData x m at_
  let old := x.poisoned ++ ((pathBlocks m at_).filter fun b => !x.poisoned.any fun e => e.1 == b).map fun b => (b, mget s.mem (scaleKey b))
  let r := poisonAll t.mem old (pathBlocks m at_)
  (({ t with mem := r.1 }).setPathAt m.path { x with poisoned := r.2 }).sendGoBack m m.seq

/-- The blocks poisoned by failed copies of the message take back their scales (16 R309); a message of blocks carries them. -/
def State.healPath (s : State) (m : PathMsg) : List (Nat × Byte) → State
  | [] => s
  | e :: es =>
    match m.body with
    | .word _ => ({ s with mem := mput s.mem (scaleKey e.1) e.2 }).healPath m es
    | _ => s

/-- Apply a signal (16 R304): one that is refused is dropped and counted. -/
def State.pathSignal (s : State) (h v : Word) : State :=
  match (if hChip h = s.chip then s.sigAdd h v else none) with
  | some (t, _) => t
  | none => s.bumpDie (hDie h) 0x0D1

/-- The handle of a stub, written at the cursor. -/
def State.putHandle (s : State) (x : PathDst) (at_ : List Nat) (h : Word) : State :=
  (s.writeBytes (at_.headD 0) (leBytes 8 h.toNat)).mend (s.pathOwner x) (at_.headD 0) 8 false

/-- The stub of an accepted offer (16 R311): the owner's quota, the index, the lease; the handle at the cursor. -/
def State.pathOffer (s : State) (x : PathDst) (m : PathMsg) (at_ : List Nat) (size d : Nat) : Option Word → State
  | some h => (s.putHandle x at_ h).sendAck m.chip { ackOf s m with handle := h }
  | none =>
    let owner := s.pathOwner x
    let die := hDie x.range
    if s.quotaLeft owner 7 = 0 then s.sendAck m.chip { ackOf s m with refused := true, reason := 1 }
    else match s.lowestFree (unitOf 7 die) with
      | none => s.sendAck m.chip { ackOf s m with refused := true, reason := 7 }
      | some i =>
        let c := s.create 7 die i owner (s.dt + d) (.stub
          { src := m.chip, size := size, view := none, backing := 0, pulled := [], pulling := [], dead := [], complete := false })
        (c.1.putHandle x at_ c.2).sendAck m.chip { ackOf s m with handle := c.2, e := s.dt + d }

/-- Perform an accepted message whose tag passes; the next number is expected (16 R296, R309). -/
def State.pathPass (s : State) (x : PathDst) (m : PathMsg) (at_ : List Nat) : State :=
  let y := { x with expect := (x.expect + 1) % 2 ^ 32, poisoned := [] }
  let t := ((s.pathData x m at_).healPath m x.poisoned).setPathAt m.path y
  match m.body with
  | .signal h v => (t.pathSignal h v).sendAck m.chip (ackOf s m)
  | .offer _ _ size d again => t.pathOffer y m at_ size d again
  | _ => t.sendAck m.chip (ackOf s m)

/-- One message in its turn, already judged: its places, none for one that is refused. -/
def State.pathTurn (s : State) (x : PathDst) (m : PathMsg) : Option (List Nat) → State
  | none => (s.setPathAt m.path { x with expect := (x.expect + 1) % 2 ^ 32, poisoned := [] }).pathRefuse m
  | some at_ => if m.tagOk then s.pathPass x m at_ else s.tagFail x m at_

/-- A path message arrives (16 R295, R296, R309, R316): in sequence it is judged and performed, or held while its pages are
blocked; while a path is held, its next messages are held behind, and resent ones are answered with a hold notice. -/
def State.pathArrive (s : State) (m : PathMsg) : State :=
  match s.pathAt m.path with
  | none => s.pathRefuse m
  | some x =>
    if m.seq = (x.expect + x.held.length) % 2 ^ 32 then
      let at_ := if s.pathAccepts x m then some (s.pathPlaces x m) else none
      let blocked := s.blockersAt (at_.getD [])
      if x.held.isEmpty ∧ blocked.isEmpty then s.pathTurn x m at_
      else (s.freezePages blocked).setPathAt m.path { x with held := x.held ++ [(m, at_)] }
    else if x.held.any fun k => k.1.seq == m.seq then s.sendHold m
    else s.sendGoBack m ((x.expect + x.held.length) % 2 ^ 32)

/-- Perform the messages a path holds, at the places where they were accepted, until one is blocked or its tag fails (16 R316). -/
def State.pathGo (s : State) (h : Word) : Nat → State
  | 0 => s
  | n + 1 =>
    match s.pathAt h with
    | none => s
    | some x =>
      match x.held with
      | [] => s
      | (m, at_) :: rest =>
        if !(s.blockersAt (at_.getD [])).isEmpty then s
        else if at_.isSome ∧ !m.tagOk then s.pathTurn { x with held := [] } m at_
        else (s.pathTurn { x with held := rest } m at_).pathGo h n

/-- The window after an answer for n flits (16 R299). -/
def DSlot.answered (d : DSlot) (n : Nat) (marked : Bool) : DSlot :=
  let hd := d.hold - min d.hold n
  let e := { d with inFl := d.inFl - n, hold := hd }
  if marked then
    (if hd = 0 then
       let w := max 4 (d.win / 2)
       { e with good := 0, win := w, hold := w }
     else { e with good := 0 })
  else if d.win ≤ d.good + n then { e with win := min 256 (d.win + 1), good := 0 }
  else { e with good := d.good + n }

/-- The reply that ends a dsend (16 R311). -/
def offerRep (s : State) (f : Flight) (a : AckMsg) : HomeRep :=
  { id := f.id, ctx := 0, chip := s.chip, queued := false, h := a.handle,
    a := if a.refused then BitVec.ofNat 64 a.reason else a.handle, f := a.refused, e := a.e, fault := none, size := 0, owner := 0 }

/-- The sender's part of the answer to an offer: the pin takes the stub's handle and E_p, or goes (16 R311). -/
def Pin.answered (ctx dst base size : Nat) (p : Pin) : Bool :=
  p.h == 0 && p.by_.isNone && p.ctx == ctx && p.dstCtx == dst && p.base == base && p.size == size

def State.offerAnswer (s : State) (p : PathSrc) (f : Flight) (a : AckMsg) : State :=
  match f.msg.body with
  | .offer ctx base size _ again =>
    let mine := Pin.answered ctx p.dst base size
    let early := ((s.pins.filter mine).flatMap fun q => q.early).map fun x => Due.pull x.1 x.2.1 x.2.2
    let t := if again.isSome then s
      else if a.refused then (s.endPins mine).laterAll early
      else
        let x : Sent := { h := a.handle, ctx := ctx, dstCtx := p.dst, base := base, size := size, e := a.e }
        let u : State := { s with
          pins := s.pins.map fun q => if mine q then { q with h := a.handle, ep := a.e + guardNs, early := [] } else q
          sent := (s.sent.filter fun y : Sent => s.dt < y.e) ++ [x] }
        u.laterAll early
    t.answerSlot f.owner f.msg.slot f.id (.home (offerRep s f a))
  | _ => s

/-- The record of a path under h with its unanswered messages replaced; the timer starts anew. -/
def PathSrc.resume (h : Word) (fs : List Flight) (dt : Nat) (x : PathSrc) : PathSrc :=
  if x.h = h then { x with unacked := fs, since := dt } else x

def State.setUnacked (s : State) (h : Word) (fs : List Flight) : State :=
  { s with paths := s.paths.map (PathSrc.resume h fs s.dt) }

/-- An acknowledgement or refusal of a path message (16 R296, R299). -/
def State.pathAnswer (s : State) (a : AckMsg) : State :=
  match s.pathOf a.path with
  | none => s
  | some p =>
    match p.unacked.find? fun f => f.msg.seq == a.seq with
    | none => s
    | some f =>
      let t := s.setUnacked a.path (p.unacked.filter fun g => g.msg.seq != a.seq)
      let u := if f.counts then
          t.setDslot f.owner f.msg.ds ((t.dslot f.owner f.msg.ds).answered (bodyFlits f.msg.body) a.marked)
        else t
      u.offerAnswer p f a

/-- The outcome of a request that its chip has acknowledged is kept no longer (16 R292). -/
def State.forget (s : State) (chip id : Nat) : State :=
  { s with
    performed := s.performed.filter fun e => e.1 != chip + 4096 * id
    homeDone := s.homeDone.filter fun e => e.1 != (chip, id) }

/-- ACK_ARRIVAL: of a path message, of an answer (path 0), or of pull data (a stub's handle) (16 R292, R296, R299, R309). -/
def State.ackArrive (s : State) (a : AckMsg) : State :=
  if a.path = 0 then s.forget a.chip a.seq
  else if hClass a.path = 7 then
    { s with tilesOut := s.tilesOut.filter fun d => !(d.h == a.path && d.tile == a.seq && d.chip == a.chip) }
  else s.pathAnswer a

def State.sendFlights (s : State) : List Flight → State
  | [] => s
  | f :: fs => (s.sendPath f.msg).sendFlights fs

def Flight.again (f : Flight) : Flight := { f with tries := f.tries + 1, fresh := true }

/-- The unanswered messages from a number on. -/
def PathSrc.from_ (p : PathSrc) (seq : Option Nat) : List Flight :=
  match seq with
  | some n => p.unacked.dropWhile fun f => f.msg.seq != n
  | none => p.unacked

/-- Resend a path's messages from a number on; a fourth resend is a remote error of the kind (16 R296, R319). -/
def State.resendPath (s : State) (h : Word) (kind : Nat) (seq : Option Nat) : State :=
  match s.pathOf h with
  | none => s
  | some p =>
    let fs := p.from_ seq
    match fs.find? fun f : Flight => decide (3 ≤ f.tries) with
    | some f => (s.setUnacked h []).fabricError kind p.owner f.owner f.msg.slot h (hChip h)
    | none =>
      let again := fs.map Flight.again
      (s.setUnacked h (p.unacked.take (p.unacked.length - fs.length) ++ again)).sendFlights again

/-- PATH_RESEND_TIMEOUT (16 R296). -/
def State.pathTimeout (s : State) (h : Word) : State :=
  match s.pathOf h with
  | none => s
  | some p => if p.unacked.isEmpty ∨ s.dt < p.since + resendNs then s else s.resendPath h 4 none

/-- The last resend, answered with a hold notice, does not count; those before it do (16 R316). -/
def Flight.uncounted (f : Flight) : Flight := if f.fresh then { f with tries := f.tries - 1, fresh := false } else f

/-- HOLD_NOTICE_ARRIVAL: the timer restarts, of a path, or of the request that a handle of generation 0 names (16 R316; log 91). -/
def State.holdArrive (s : State) (h : Word) : State :=
  if hGen h = 0 then s.heldAt h.toNat
  else
    { s with paths := s.paths.map fun x =>
        if x.h == h then { x with since := s.dt, unacked := x.unacked.map Flight.uncounted } else x }

/-- The page that holds an address of a pinned region, under one of the grants that it was pinned under (16 R316). -/
def State.pinPage (s : State) (p : Pin) (va : Nat) : Option PageEntry :=
  s.entries.find? fun e => e.ctx == p.ctx && e.va ≤ va && va < e.va + pteSize e.pte && p.keys.contains (e.lease, e.gen)

/-- The blocks of a tile of a pinned region, as it stands (16 R313, R316). -/
def State.tileBlocks (s : State) (p : Pin) (tile : Nat) : List Block :=
  (List.range 64).map fun i =>
    let va := p.base + 4096 * tile + 64 * i
    match s.pinPage p va with
    | some e => blockAt s.mem (e.addr va)
    | none => { data := List.replicate 64 0, fmt := 0, scale := 255 }

/-- Tile data, or the refusal of a pull (no blocks), to the receiver. -/
def State.sendTile (s : State) (chip : Nat) (h : Word) (tile : Nat) (bs : List Block) : State :=
  if chip = s.chip then s.later (.pullData h tile bs)
  else if bs.isEmpty then s.emit (.pullRefused chip h tile)
  else s.emit (.pullData chip h tile bs)

/-- Tile data that stays here until it is acknowledged (16 R309). -/
def State.keepTile (s : State) (chip : Nat) (h : Word) (tile : Nat) (bs : List Block) : State :=
  if chip = s.chip then s else { s with tilesOut := s.tilesOut ++ [{ h := h, tile := tile, chip := chip, bs := bs }] }

/-- Tile data sent and not acknowledged. -/
def State.keptTile (s : State) (chip : Nat) (h : Word) (tile : Nat) : Option TileOut :=
  s.tilesOut.find? fun d => d.h == h && d.tile == tile && d.chip == chip

/-- An uncorrectable error that the read of a tile finds at its sender is delivered poisoned, with a record to the sender's context
(09 R191). -/
def State.senseTile (s : State) (p : Pin) (tile : Nat) : State :=
  match s.pinPage p (p.base + 4096 * tile) with
  | some e => s.sense p.ctx (e.addr (p.base + 4096 * tile)) 4096
  | none => s

/-- A pin whose offer to a chip has left and is not answered: the stub may stand there, and a pull of it come ahead of the answer. -/
def Pin.awaits (chip : Nat) (p : Pin) : Bool := p.h == 0 && p.by_.isNone && !p.ended && p.dstCtx / 1024 == chip

/-- A pull request that may be of such a stub waits for the answers that are on their way (16 R313). -/
def Pin.keepPull (chip : Nat) (x : Word × Nat × Nat) (p : Pin) : Pin :=
  if p.awaits chip && !p.early.contains x then { p with early := p.early ++ [x] } else p

def State.holdPull (s : State) (h : Word) (tile chip : Nat) : State :=
  { s with pins := s.pins.map (Pin.keepPull chip (h, tile, chip)) }

/-- PULL_REQUEST_ARRIVAL (16 R313): judged at the pin; one that has been served is not judged again. -/
def State.pullArrive (s : State) (h : Word) (tile chip : Nat) : State :=
  match s.keptTile chip h tile with
  | some d => s.sendTile chip h tile d.bs
  | none =>
    match s.pins.find? fun p => p.h == h && p.h != 0 && s.pinLive p with
    | some p =>
      if tile < p.size / 4096 then
        let t := s.senseTile p tile
        (t.keepTile chip h tile (t.tileBlocks p tile)).sendTile chip h tile (t.tileBlocks p tile)
      else s.sendTile chip h tile []
    | none => if s.pins.any (Pin.awaits chip) then s.holdPull h tile chip else s.sendTile chip h tile []

/-- Device address of a byte of a stub's backing range, while that range still stands (16 R313). -/
def State.backingPage (s : State) (x : Stub) (off : Nat) : Option (PageEntry × Nat) :=
  match (s.record x.backing).data with
  | .range va _ _ _ =>
    match s.entry (s.record x.backing).owner (va + off) with
    | some e =>
      if !s.staleHere x.backing ∧ e.gen = hGen x.backing ∧ e.lease = leaseKey (unitOf 2 (hDie x.backing)) (hIndex x.backing) then
        some (e, e.addr (va + off))
      else none
    | none => none
  | _ => none

/-- The tile's blocks into the backing range, poisoned if their tag failed. -/
def State.pulledTile (s : State) (x : Stub) (off : Nat) (poison : Bool) : List Block → State
  | [] => s
  | b :: bs =>
    let t := match s.backingPage x off with
      | some (e, pa) =>
        { s with mem := putBlock s.mem pa (if poison then { b with scale := 255 } else b) }.mend e.ctx pa 64 true
      | none => s
    t.pulledTile x (off + 64) poison bs

/-- A view entry after completion: mode 1 on the backing frame with the backing entry's bits, under its lease (16 R315). -/
def State.viewDone (s : State) (x : Stub) (key gen : Nat) (e : PageEntry) : PageEntry :=
  if e.lease = key ∧ e.gen = gen ∧ pteMode e.pte = 5 then
    match s.backingPage x (e.va - x.view.getD 0) with
    | some (b, pa) => { e with pte := mkPte 1 s.chip (pa / 4096) 0 (b.pte.toNat % 16) (b.pte.getLsbD 6), lease := b.lease, gen := b.gen }
    | none => e
  else e

def State.sendPinDone (s : State) (chip : Nat) (h : Word) : State :=
  if chip = s.chip then s.later (.pinDone h) else s.emit (.pinDone chip h)

/-- The request of a tile has been answered; the data is acknowledged to another chip (16 R292, R309). -/
def State.pullOver (s : State) (chip : Nat) (h : Word) (tile : Nat) (data : Bool) : State :=
  let t := { s with pullsOut := s.pullsOut.filter fun p => !(p.h == h && p.tile == tile) }
  if chip = s.chip || !data then t
  else
    t.emit (.ack chip { chip := s.chip, path := h, seq := tile, marked := false, refused := false, handle := 0, e := 0, reason := 0 })

/-- Pull data whose tag fails (16 R309): the tile is poisoned and asked for again, unjudged; a fourth failure is a remote error. -/
def State.tileFail (s : State) (x : Stub) (h : Word) (tile n : Nat) (bs : List Block) : State :=
  let t := (s.bumpDie (hDie h) 0x0D2).pulledTile x (4096 * tile) true bs
  if 3 ≤ n then ((t.pullOver x.src h tile false).setStub h (x.settle tile)).fabricError 3 (s.record h).owner (stationOwner (hDie h)) 0 h x.src
  else
    let y := { x with pulling := (x.settle tile).pulling ++ [(tile, n + 1)] }
    let u := (t.setStub h y).bumpDie (hDie h) 0x0D3
    if x.src = s.chip then u.sendPull x.src h tile else u.emit (.goBack x.src h tile)

/-- A tile is in place (16 R313); the last one completes the stub, unless it has lapsed and its view is gone (16 R315, R317, 19 R324). -/
def State.tileLanded (s : State) (x : Stub) (h : Word) (tile : Nat) (bs : List Block) : State :=
  let t := (s.pulledTile x (4096 * tile) false bs).pullOver x.src h tile true
  let pulled := x.pulled ++ [tile]
  if s.leaseLive (s.record h) && (List.range (x.size / 4096)).all fun k => pulled.contains k then
    let y := { x.settle tile with pulled := pulled, complete := true }
    let key := leaseKey (unitOf 7 (hDie h)) (hIndex h)
    let u := { t with entries := t.entries.map (t.viewDone x key (s.record h).gen) }
    (u.setStub h y).sendPinDone x.src h
  else t.setStub h { x.settle tile with pulled := pulled }

/-- The page of the backing range that blocks the writes of a tile (16 R316). -/
def State.tileBlocker (s : State) (x : Stub) (tile : Nat) : Option PageEntry :=
  match s.backingPage x (4096 * tile) with
  | some (_, pa) => s.blockerAt pa
  | none => none

/-- PULL_DATA_ARRIVAL (16 R309, R313, R315, R316): no blocks is the pin's refusal; data waits while its page is blocked. -/
def State.pullDataArrive (s : State) (h : Word) (tile : Nat) (bs : List Block) (tagOk : Bool) : State :=
  match s.stubAt h with
  | none => s
  | some x =>
    match x.pulling.lookup tile with
    | none => s.pullOver x.src h tile true
    | some n =>
      if bs.isEmpty ∨ (s.backingPage x (4096 * tile)).isNone then
        (s.pullOver x.src h tile (!bs.isEmpty)).setStub h { x.settle tile with dead := x.dead ++ [tile] }
      else
        match s.tileBlocker x tile with
        | some e =>
          if s.tilesIn.any fun d => d.h == h && d.tile == tile then s
          else { s.freezePages [e] with tilesIn := s.tilesIn ++ [{ h := h, tile := tile, bs := bs, tagOk := tagOk }] }
        | none => if tagOk then s.tileLanded x h tile bs else s.tileFail x h tile n bs

/-- Pull data whose page is blocked no more (16 R316). -/
def State.tileGo (s : State) (h : Word) (tile : Nat) : State :=
  match s.tilesIn.find? fun d => d.h == h && d.tile == tile with
  | some d =>
    ({ s with tilesIn := s.tilesIn.filter fun y => !(y.h == h && y.tile == tile) }).pullDataArrive h tile d.bs d.tagOk
  | none => s

/-- A go-back request for a tile: a stub of this chip sends its pull request again, a pin its data (16 R309). -/
def State.tileAgain (s : State) (h : Word) (tile : Nat) : State :=
  if hChip h = s.chip then
    match s.pullsOut.find? fun p => p.h == h && p.tile == tile with
    | some p => s.failPull p
    | none => s
  else match s.tilesOut.find? fun d => d.h == h && d.tile == tile with
    | some d => s.sendTile d.chip h tile d.bs
    | none => s

/-- In a go-back request, what is asked for is a message that only answers or informs, by its number (16 R309; log 96). -/
def noteKey : Word := mkHandle 0 15 0 0 0

/-- The context that such a message is sent for: the owner of a stub or of a sync variable; answers are sent for none (16 R319). -/
def State.noteOwner (s : State) : OutMsg → Option Nat
  | .link _ h _ | .pinDone _ h | .mirror _ _ _ h _ => if s.staleHere h then none else some (s.record h).owner
  | _ => none

def OutMsg.toChip (m : OutMsg) : Nat :=
  match m.flits with
  | some (c, _, _) => c
  | none => 0

def Note.again (id dt : Nat) (n : Note) : Note := if n.id = id then { n with tries := n.tries + 1, at_ := dt } else n

/-- A go-back request for a message that only answers or informs: it is sent again, up to three times; a fourth failure is a remote
error where a context sent it, and ends it in any case (16 R309, R319). -/
def State.noteAgain (s : State) (id : Nat) : State :=
  match s.notes.find? fun n => n.id == id with
  | none => s
  | some n =>
    if n.tries < 3 then
      { s with notes := s.notes.map (Note.again id s.dt) }.leave n.msg
    else
      let t := { s with notes := s.notes.filter fun x => x.id != id }
      match s.noteOwner n.msg with
      | some ctx => t.fabricError 3 ctx nobody 0 0 n.msg.toChip
      | none => t

/-- STUB_LINK_ARRIVAL (16 R315): a frozen or ended pin ignores it; that the stub lives on is known by it (16 R318; log 104). -/
def State.linkArrive (s : State) (h : Word) (e : Nat) : State :=
  { s with
    pins := s.pins.map fun p =>
      if p.h == h && p.h != 0 && !p.frozen && s.pinLive p then { p with ep := max p.ep (e + guardNs) } else p
    sent := s.sent.map fun x => if x.h == h then { x with e := max x.e e } else x }

/-- PIN_COMPLETION_ARRIVAL (16 R315): a complete stub is live no more for a new dsend (16 R318). -/
def State.pinDoneArrive (s : State) (h : Word) : State :=
  { s with sent := s.sent.filter fun x => x.h != h }.endPins fun p => p.h == h && p.h != 0

/-- PIN_EXPIRY (16 R317): the pins under a handle that no longer hold. -/
def State.pinExpire (s : State) (h : Word) : State := s.endPins fun p => p.h == h && !s.pinLive p

/-- PATH_SOURCE_DISCARD (17 R320): destination slots keep their binding; answers still free their flits. -/
def State.pathDiscard (s : State) (h : Word) : State :=
  { s with paths := s.paths.map fun x =>
      if x.h == h && hChip x.h != s.chip && x.ed + 200 ≤ s.dt then { x with gone := true } else x }

/-- The router channel of a port and a virtual channel. -/
def channelOf (f : FlitIn) : Nat := 8 * f.port + f.vc

def State.channel (s : State) (v : Nat) : List FlitIn := tget [] s.router v

/-- A flit for another chip takes a buffer of its input channel (16 R291). -/
def State.transit (s : State) (f : FlitIn) : State :=
  let l := s.channel (channelOf f)
  if f.dest = s.chip ∨ 16 ≤ l.length then s
  else ({ s with router := tput s.router (channelOf f) (l ++ [f]) }).later (.hop (channelOf f))

/-- THE HOP of the first flit of a channel (16 R291 to R294): from channel v to v + 1 on the port of the decision, marked where more
than 12 of the 16 buffers are occupied. A flit with no port up waits. -/
def State.hop (s : State) (v : Nat) : State :=
  match s.channel v with
  | [] => s
  | f :: fs =>
    if f.vc % 4 = 3 then s
    else match s.hopPort f.ordered f.dest (f.vc + 1) with
      | none => s
      | some p =>
        let g := { f with port := p, vc := f.vc + 1, marked := f.marked || 12 < fs.length + 1 }
        ({ s with router := tput s.router v fs, outbox := s.outbox ++ [OutMsg.flit p g.vc g] }).countOut p g.vc 1

/-- The last flit of a message of this chip whose tag fails (16 R309): the message is not performed, and the go-back request asks
for it by the number or the tile it names; an answer makes its request be asked again (log 96). -/
def State.flitBroken (s : State) (die : Nat) : Broken → State
  | .home chip id => ((s.bumpDie die 0x0D2).bumpDie die 0x0D3).emit (.goBack chip 0 id)
  | .homeReply id =>
    match s.homeOut.find? fun o => o.req.id == id with
    | some o => (s.bumpDie die 0x0D2).failHome o
    | none => s.bumpDie die 0x0D2
  | .pull chip h tile => ((s.bumpDie die 0x0D2).bumpDie die 0x0D3).emit (.goBack chip h tile)
  | .control chip id => ((s.bumpDie die 0x0D2).bumpDie die 0x0D3).emit (.goBack chip noteKey id)

/-- A flit whose CRC passes goes on, or ends here (16 R291, R309). -/
def State.flitOk (s : State) (f : FlitIn) : State :=
  match f.broken with
  | some b => if f.dest = s.chip then s.flitBroken (f.port / 24) b else s.transit f
  | none => s.transit f

/-- FLIT_RECEIVE (16 R293): a failed CRC is replayed; after 16 replays in a row that fail the link goes down and the fabric manager
is told. -/
def State.flit (s : State) (f : FlitIn) : State :=
  let v := channelOf f
  let old := tget (0, 0) s.portCtr v
  let t := { s with portCtr := tput s.portCtr v (old.1, (old.2 + f.waitNs) % 2 ^ 64) }
  if f.crcOk then { t with replays := tdel t.replays f.port }.flitOk f
  else
    let n := tget 0 t.replays f.port + 1
    let u := { t with replays := tput t.replays f.port n }.bumpDie (f.port / 24) 0x0D4
    if 16 < n ∧ !(u.downPorts.contains f.port) then ({ u with downPorts := u.downPorts ++ [f.port] }).emit (.linkDown f.port)
    else u

/-- A message that names a slot, a destination slot, a die and an index the package has. -/
def msgFits (m : PathMsg) : Bool := m.core < 1024 && m.slot < 11 && m.ds < 16 && hIndex m.path < 262144

/-- MEMORY_REPLY (04 R53). -/
def execMemoryReply (core slot : Nat) (r : MemRep) (s : State) : Host.Outcome State Fault Refusal :=
  if core < 1024 ∧ slot < 11 ∨ 1024 ≤ core then .next (s.memoryReply r) else .fault .noSuchUnit

/-- REMOTE_REQUEST_ARRIVAL (16 R292). -/
def execRemoteRequestArrival (r : RemoteReq) (s : State) : Host.Outcome State Fault Refusal := .next (s.remoteArrive r)

/-- UNORDERED_RESEND_TIMEOUT (16 R292). -/
def execUnorderedResendTimeout (id : Nat) (s : State) : Host.Outcome State Fault Refusal := .next (s.resendRequest id)

/-- PATH_MESSAGE_ARRIVAL (16 R295). -/
def execPathMessageArrival (m : PathMsg) (s : State) : Host.Outcome State Fault Refusal :=
  if msgFits m then .next (s.pathArrive m) else .fault .noSuchUnit

/-- FSIG_ARRIVAL (16 R304): judged and performed in its path's sequence like any message. -/
def execFsigArrival (m : PathMsg) (s : State) : Host.Outcome State Fault Refusal :=
  if msgFits m then .next (s.pathArrive m) else .fault .noSuchUnit

/-- STUB_OFFER_ARRIVAL (16 R311): likewise. -/
def execStubOfferArrival (m : PathMsg) (s : State) : Host.Outcome State Fault Refusal :=
  if msgFits m then .next (s.pathArrive m) else .fault .noSuchUnit

/-- ACK_ARRIVAL (16 R299). -/
def execAckArrival (a : AckMsg) (s : State) : Host.Outcome State Fault Refusal := .next (s.ackArrive a)

/-- GO_BACK_ARRIVAL (16 R296): the message named and every later one are resent; a fourth time is an integrity failure. With path 0
it names a request, with a stub's handle the pull data of a tile, with no lease's handle an answer or notice (16 R309; log 91, 96). -/
def execGoBackArrival (path : Word) (seq : Nat) (s : State) : Host.Outcome State Fault Refusal :=
  .next (if path = 0 then s.failRequest seq
    else if hClass path = 7 then s.tileAgain path seq
    else if path = noteKey ∧ (s.pathOf path).isNone then s.noteAgain seq
    else s.resendPath path 3 (some seq))

/-- HOLD_NOTICE_ARRIVAL (16 R316). -/
def execHoldNoticeArrival (path : Word) (s : State) : Host.Outcome State Fault Refusal := .next (s.holdArrive path)

/-- PATH_RESEND_TIMEOUT (16 R296). -/
def execPathResendTimeout (path : Word) (s : State) : Host.Outcome State Fault Refusal := .next (s.pathTimeout path)

/-- PULL_REQUEST_ARRIVAL (16 R313). -/
def execPullRequestArrival (h : Word) (tile chip : Nat) (s : State) : Host.Outcome State Fault Refusal :=
  .next (s.pullArrive h tile chip)

/-- PULL_DATA_ARRIVAL (16 R313). -/
def execPullDataArrival (h : Word) (tile : Nat) (bs : List Block) (tagOk : Bool) (s : State) :
    Host.Outcome State Fault Refusal := .next (s.pullDataArrive h tile bs tagOk)

/-- STUB_LINK_ARRIVAL (16 R315). -/
def execStubLinkArrival (h : Word) (e : Nat) (s : State) : Host.Outcome State Fault Refusal := .next (s.linkArrive h e)

/-- PIN_COMPLETION_ARRIVAL (16 R315). -/
def execPinCompletionArrival (h : Word) (s : State) : Host.Outcome State Fault Refusal := .next (s.pinDoneArrive h)

/-- PIN_EXPIRY (16 R317). -/
def execPinExpiry (h : Word) (s : State) : Host.Outcome State Fault Refusal := .next (s.pinExpire h)

/-- PATH_SOURCE_DISCARD (17 R320). -/
def execPathSourceDiscard (h : Word) (s : State) : Host.Outcome State Fault Refusal := .next (s.pathDiscard h)

/-- FLIT_RECEIVE (16 R293). -/
def execFlitReceive (f : FlitIn) (s : State) : Host.Outcome State Fault Refusal :=
  if f.port < 96 ∧ f.vc < 8 then .next (s.flit f) else .fault .noSuchUnit

end Sys2Proof.Machine
end

