-- ==== Sys2Proof/Machine/Fetch.lean ====
section
/-!
DEFINITION. Instruction fetch through the fetch buffer and the cluster instruction cache (11 R233, R234, R387), and the
meanings of the steps that stand for a fetch: ICACHE_FILL, RESERVED_ENCODING_ISSUE, FETCH_SPACE_FAULT.
-/
namespace Sys2Proof.Machine

/-- Bytes of L. -/
def lSize : Nat := 0x40000

/-- The line of a core's L at an address, read now (11 R387). -/
def State.readLine (s : State) (g addr : Nat) : ILine :=
  { core := g, addr := addr, bytes := mgets s.mem (lKey g addr) 64 }

/-- The set of a line: L address bits [12:6]. -/
def setOf (addr : Nat) : Nat := addr / 64 % 128

/-- Keep the n most recently used lines of a set; the list holds the most recent first (11 R387). -/
def keepWays (set : Nat) : Nat → List ILine → List ILine
  | _, [] => []
  | n, l :: t =>
    if setOf l.addr = set then
      (match n with
       | 0 => keepWays set 0 t
       | m + 1 => l :: keepWays set m t)
    else l :: keepWays set n t

def findLine (l : List ILine) (g addr : Nat) : Option ILine := l.find? fun x => x.core == g && x.addr == addr

/-- Use a line: it becomes the most recent of its set. -/
def useLine (l : List ILine) (x : ILine) : List ILine :=
  x :: keepWays (setOf x.addr) 7 (l.filter fun y => !(y.core == x.core && y.addr == x.addr))

/-- Fill one line of the cluster cache of core g from its L (11 R387); an uncorrectable word it reads is found (09 R193). -/
def State.fillLine (s : State) (g addr : Nat) : State :=
  let s := s.sense (s.ctxOf g) (lKey g (addr / 64 * 64)) 64
  let cl := s.cluster (clusterOf g)
  s.setCluster (clusterOf g) { cl with icache := useLine cl.icache (s.readLine g (addr / 64 * 64)) }

/-- One 32-byte unit of a core's L through the cache: the bytes on a hit, with the line used; none on a miss. -/
def State.cacheUnit (s : State) (g unit : Nat) : Option (State × List Byte) :=
  let cl := s.cluster (clusterOf g)
  match findLine cl.icache g (unit * 32 / 64 * 64) with
  | none => none
  | some x =>
    some (s.setCluster (clusterOf g) { cl with icache := useLine cl.icache x }, (x.bytes.drop (unit * 32 % 64)).take 32)

/-- What a fetch answers: the bytes at pc, a line that the cache misses, or a word beyond L (03 R20). A word's lower half
that has come stays in the buffer while the other is waited for (11 R234). -/
inductive Fetched where
  | word (t : State) (bs : List Byte)
  | miss (t : State) (addr : Nat)
  | beyond
  deriving DecidableEq, Repr

/-- The words of a unit in the line that a miss of the slot has brought (15 R280). -/
def Slot.fillUnit (x : Slot) (u : Nat) : Option (List Byte) :=
  match x.fill with
  | some f => if f.here ∧ f.addr = u * 32 / 64 * 64 then some ((f.bytes.drop (u * 32 % 64)).take 32) else none
  | none => none

/-- Refill the slot's fetch buffer, from the line that it has missed, or through the cache (11 R233). -/
def State.refill (s : State) (u : Nat) : Option (State × List Byte) :=
  match s.cur.fillUnit u with
  | some bs => some (s.setCur { s.cur with fbuf := some (u, bs), fill := none }, bs)
  | none => (s.cacheUnit s.curCore u).map fun r => (r.1.setCur { r.1.cur with fbuf := some (u, r.2) }, r.2)

/-- The unit in the slot's fetch buffer, refilled where it holds another (11 R233). -/
def State.bufferUnit (s : State) (u : Nat) : Option (State × List Byte) :=
  match s.cur.fbuf with
  | some (v, bs) => if v = u then some (s, bs) else s.refill u
  | none => s.refill u

/-- The line that slot k of core g has missed is there: its words may go to the fetch buffer, and it is installed unless the cluster's
cache has been invalidated since the fill began (15 R280). -/
def State.filled (s : State) (g k : Nat) : State :=
  let x := s.slot g k
  match x.fill with
  | some f =>
    if f.here || x.park.isSome then s
    else
      let t := s.setSlot g k { x with fill := some { f with here := true } }
      let cl := t.cluster (clusterOf g)
      if f.install then
        t.setCluster (clusterOf g) { cl with icache := useLine cl.icache { core := g, addr := f.addr, bytes := f.bytes } }
      else t
  | none => s

/-- Fetch the word at pc of the slot that runs (03 R19, R20; 11 R233, R234). -/
def State.fetch (s : State) : Fetched :=
  let p := s.cur.pc.toNat
  let u := p / 32
  if lSize ≤ p then .beyond
  else
    match s.bufferUnit u with
    | none => .miss s (u * 32)
    | some (t, bs) =>
      let low := (bs.drop (p % 32)).take 2
      if !isLong (BitVec.ofNat 16 (leNat low)) then .word t low
      else if p % 32 ≠ 30 then .word t ((bs.drop (p % 32)).take 4)
      else if lSize ≤ p + 2 then .beyond
      else
        match t.bufferUnit (u + 1) with
        | none => .miss t ((u + 1) * 32)
        | some (v, cs) => .word v (low ++ cs.take 2)

/-- The length of the word at pc as the fetch buffer holds it; a word whose lower half has left the buffer is a 32-bit one
(11 R234). -/
def Slot.wordLen (x : Slot) : Nat :=
  let p := x.pc.toNat
  match x.fbuf with
  | some (u, bs) =>
    if u = p / 32 then (if isLong (BitVec.ofNat 16 (leNat ((bs.drop (p % 32)).take 2))) then 4 else 2) else 4
  | none => 4

/-- RESERVED_ENCODING_ISSUE: an encoding that names no instruction takes the illegal-instruction trap (03 R39, R43). -/
def execReservedEncodingIssue (s : State) : Host.Outcome State Fault Refusal :=
  settle s s.cur.wordLen (.error (.trap cIllegal 0))

/-- FETCH_SPACE_FAULT: a word beyond L raises the space-access fault, pc saved as its address (03 R20). -/
def execFetchSpaceFault (s : State) : Host.Outcome State Fault Refusal :=
  settle s 4 (.error (.trap cSpace s.cur.pc))

/-- ICACHE_FILL: a line of the cluster's cache is filled from a core's L (11 R387). -/
def execIcacheFill (core addr : Nat) (s : State) : Host.Outcome State Fault Refusal :=
  if core < 1024 ∧ addr < lSize then .next (s.fillLine core addr) else .fault .noSuchUnit

end Sys2Proof.Machine
end

