-- ==== Sys2Proof/Machine/Leases.lean ====
section
/-!
DEFINITION. What time does to leases at their homes (06 R94 to R101), revocation, the scrub of lapsed ranges, and the beacons
that discipline device time (01 R12).
-/
namespace Sys2Proof.Machine

/-- A lease that has lapsed holds nothing any more; an anchored one ends with its context (06 R97, R99). -/
def State.lapsedLease (s : State) (l : Lease) : Lease :=
  { l with inUse := false, anchored := false, e := min (s.leaseEnd l) s.dt }

/-- LEASE_LAPSE (06 R97): nothing before DT = E; then the index is out of use, waits held on the object end, a lock passes on (06
R113), and a context that lapses is over, its leases running on to their own ends. The pages of a range are scrubbed next (06
R100). -/
def State.lapse (s : State) (unit idx : Nat) : State :=
  let l := s.lease unit idx
  if !l.inUse || s.leaseLive l then s
  else match l.data with
    | .lock _ => s.settleHomes
    | _ =>
      let t := s.setLease unit idx (s.lapsedLease l)
      if l.cls = 1 then (t.endContext l.owner).settleHomes else t.settleHomes

/-- REVOCATION_APPLY (06 R101): a home ends the leases of a context that it holds. -/
def Lease.revoked (owner dt : Nat) (l : Lease) : Lease :=
  if l.owner = owner ∧ l.inUse = true then { l with e := min l.e dt, anchored := false } else l

def State.applyRevocation (s : State) (unit owner : Nat) : State :=
  { s with leases := s.leases.map fun e => if e.1 / 2 ^ 20 == unit then (e.1, e.2.revoked owner s.dt) else e }

/-- The entries of a range that own frames of this chip. -/
def State.rangeEntries (s : State) (unit idx gen : Nat) : List PageEntry :=
  s.entries.filter fun e =>
    e.lease == leaseKey unit idx && e.gen == gen && pteMode e.pte == 1 && ptePeer e.pte == s.chip

/-- Whether a live pin still holds a page of the entries (16 R316). -/
def State.pinHolds (s : State) (es : List PageEntry) : Bool :=
  es.any fun e => s.pins.any fun p =>
    p.ctx == e.ctx && !p.ended && (p.h == 0 || s.dt < p.ep) && p.base < e.va + pteSize e.pte && e.va < p.base + p.size

def scrubAll (m : List Host.Cell) : List (Nat × Nat) → List Host.Cell
  | [] => m
  | f :: fs => scrubAll (mscrub m f.1 f.2) fs

/-- A frame that a range owns beside those of its entries: a change of pages took it (06 R100). -/
def Dirty.of (unit idx gen : Nat) (d : Dirty) : Bool := d.lease == leaseKey unit idx && d.gen == gen

/-- The frames that a range has to scrub, as (address, size). -/
def State.rangeFramesAt (s : State) (unit idx gen : Nat) : List (Nat × Nat) :=
  ((s.rangeEntries unit idx gen).map fun e => (pteFrame e.pte * 4096, pteSize e.pte)) ++
  (s.dirty.filter (Dirty.of unit idx gen)).map fun d => (d.pa, d.size)

/-- An accepted path message that still waits for a pinned page is written there before the page is scrubbed (06 R95, R100; 17
R321). -/
def State.heldIn (s : State) (fs : List (Nat × Nat)) : Bool :=
  s.leases.any fun e => match e.2.data with
    | .path x => x.held.any fun h => (h.2.getD []).any fun pa => fs.any fun f => f.1 ≤ pa && pa < f.1 + f.2
    | _ => false

/-- Whether the scrub of a lapsed range has to wait. -/
def State.scrubWaits (s : State) (unit idx gen : Nat) : Bool :=
  s.pinHolds (s.rangeEntries unit idx gen) || s.heldIn (s.rangeFramesAt unit idx gen)

/-- RANGE_SCRUB_DONE (06 R100): the pages of a lapsed range are zero, with descriptors (0x00, 127); its index and frames may be
used again. Pages that a pin or an accepted message holds wait for it. -/
def State.scrubDone (s : State) (unit idx : Nat) : State :=
  let l := s.lease unit idx
  match l.data with
  | .range .. =>
    if l.inUse || s.leaseLive l || s.scrubWaits unit idx l.gen then s
    else
      let fs := s.rangeFramesAt unit idx l.gen
      { s with
        mem := scrubAll s.mem fs
        flaws := s.flaws.filter fun f => !fs.any fun r => r.1 ≤ f.1 && f.1 < r.1 + r.2
        dirty := s.dirty.filter fun d => !d.of unit idx l.gen }.setLease unit idx { l with data := .none }
  | _ => s

/-- DT_BEACON (01 R12): a correction of the rate, at most 100 parts per million either way; adj is ppm + 100. -/
def State.beacon (s : State) (adj : Nat) : State := { s with dtSlew := min adj 200 }

/-- The units that keep lease records: Calico 0 to 3, synchronisation engines 4 to 7, contexts 8 to 11. -/
def unitExists (unit idx : Nat) : Bool := unit < 12 && idx < 262144

/-- LEASE_LAPSE (06 R97). -/
def execLeaseLapse (unit idx : Nat) (s : State) : Host.Outcome State Fault Refusal :=
  if unitExists unit idx then .next (s.lapse unit idx) else .fault .noSuchUnit

/-- REVOCATION_APPLY (06 R101). -/
def execRevocationApply (unit ctx : Nat) (s : State) : Host.Outcome State Fault Refusal :=
  if unitExists unit 0 then .next (s.applyRevocation unit ctx) else .fault .noSuchUnit

/-- RANGE_SCRUB_DONE (06 R100). -/
def execRangeScrubDone (unit idx : Nat) (s : State) : Host.Outcome State Fault Refusal :=
  if unitExists unit idx then .next (s.scrubDone unit idx) else .fault .noSuchUnit

/-- DT_BEACON (01 R12). -/
def execDtBeacon (adj : Nat) (s : State) : Host.Outcome State Fault Refusal := .next (s.beacon adj)

end Sys2Proof.Machine
end

