-- ==== Sys2Proof/Machine/Paging.lean ====
section
/-!
DEFINITION. Steps of the translation stations, the migration agent and the memory controllers (09 R167 to R173, R191).
-/
namespace Sys2Proof.Machine

/-- STATION_ACCESS (09 R169 to R172): the access is judged; one that is accepted is counted, and a cached page's line is
asked for on a miss, but not while a write to it is on its way (11 R217); a touch of an unpulled tile starts its pull; a write to a
pinned page freezes the pins. -/
def State.stationAccess (s : State) (r : StationReq) : State :=
  match s.verdict r.ctx r.va false r.kind with
  | .refuse _ => s
  | .stall => s.freezeAt r.ctx r.va
  | .pull key tile => s.startPull key tile
  | .go route e =>
    let t := s.charge e
    match route with
    | .chip c pa =>
      if pteMode e.pte = 3 ∧ r.kind = .read ∧ (t.cachedBlock r.die r.ctx r.va).isNone ∧ t.lineOut c (pa / 64 * 64) = false then
        t.requestFill (some (r.die, r.va / 64 * 64)) (stationOwner r.die) (r.va / 64 * 64) r.ctx c (pa / 64 * 64) (.read 64)
      else t
    | .here pa => if pteMode e.pte = 3 ∧ r.kind = .read then (t.lineRead r.die e r.va fun t => t.readHere r.ctx pa).1 else t
    | .host l a => if pteMode e.pte = 3 ∧ r.kind = .read then (t.lineRead r.die e r.va fun t => (t, t.hostBlock l a)).1 else t

/-- The owner number of the migration agent among requests that leave the chip. -/
def agentOwner : Nat := 1044

/-- Replace the entry of a context's page. DEDUCED: the migration agent's setting and clearing of WB is no entry change that
starts a stopped count anew (09 R172; log 94). -/
def State.setEntry (s : State) (e : PageEntry) (pte : Word) : State :=
  { s with entries := s.entries.map fun x => if x == e then { e with pte := pte } else x }

/-- Ask for the lines of a page that are neither here nor on their way. -/
def State.askLines (s : State) (ctx c base : Nat) : Nat → State
  | 0 => s
  | n + 1 =>
    let t := s.askLines ctx c base n
    let pa := base + 64 * n
    if (t.fetched.any fun f => f.owner == agentOwner && f.chip == c && f.pa == pa) ||
        (t.remote.any fun r => r.core == agentOwner && r.chip == c && r.pa == pa) then t
    else t.request agentOwner 0 ctx c pa (.read 64)

/-- The lines of a page in its old frame, if all are at hand. -/
def State.pageLines (s : State) (c base n : Nat) : Option (List Block) :=
  if c = s.chip then some ((List.range n).map fun i => blockAt s.mem (base + 64 * i))
  else (List.range n).mapM fun i =>
    (s.fetched.find? fun f => f.owner == agentOwner && f.chip == c && f.pa == base + 64 * i).map fun f => f.rep.block

def State.putLines (s : State) (ctx base : Nat) : List Block → State
  | [] => s
  | b :: bs => ({ s with mem := putBlock s.mem base b }.mend ctx base 64 true).putLines ctx (base + 64) bs

/-- Forget the lines the agent has fetched. -/
def State.dropLinesOf (s : State) : State :=
  { s with fetched := s.fetched.filter fun f => f.owner != agentOwner }

/-- PAGE_MIGRATION (09 R173), in two steps or more: the first sets WB; then, once every write accepted before has been
performed and the page's lines are at hand, the page is copied and the entry switched to mode 1 on the new frame, WB clear. -/
def State.migrate (s : State) (ctx va frame : Nat) : State :=
  match s.entry ctx va with
  | none => s
  | some e =>
    let size := pteSize e.pte
    let c := ptePeer e.pte
    let base := pteFrame e.pte * 4096
    if pteMode e.pte ≠ 4 ∨ !(e.live s) ∨ s.pteBad e.pte ∨ frame * 4096 % size ≠ 0 ∨ hbmSize < frame * 4096 + size then s
    else if !pteWb e.pte then
      { s.setEntry e (e.pte ||| (1#64 <<< 47)) with migrations := s.migrations ++ [(ctx, e.va, s.dt)] }
    else if !(s.migrations.any fun m => m.1 == ctx && m.2.1 == e.va && s.dt < m.2.2 + 2000000) then s
    else if (s.remote.any fun r => r.chip == c && base ≤ r.pa && r.pa < base + size && opWrites r.op) ||
        s.writePlaced (inRange ctx e.va (e.va + size)) then s
    else
      let u := if c = s.chip then s.sense ctx base size else s
      match u.pageLines c base (size / 64) with
      | none => u.askLines ctx c base (size / 64)
      | some bs =>
        let low := e.pte.toNat % 2 ^ 12
        let t := (u.putLines ctx (frame * 4096) bs).setEntry e (BitVec.ofNat 64 (s.chip * 2 ^ 52 + 2 ^ 48 + frame % 2 ^ 34 * 2 ^ 12 + low))
        (t.entryChanged ctx e.va size).dropLinesOf

/-- MIGRATION_WB_TIMEOUT (09 R173): 2 ms after WB was set the agent gives up. -/
def State.migrationTimeout (s : State) (ctx va : Nat) : State :=
  match s.migrations.find? fun m => m.1 == ctx && m.2.1 == va with
  | none => s
  | some m =>
    if s.dt < m.2.2 + 2000000 then s
    else
      let t := { s with migrations := s.migrations.filter fun x => !(x.1 == ctx && x.2.1 == va) }.dropLinesOf
      match t.entry ctx va with
      | none => t
      | some e => if e.va = va ∧ pteMode e.pte = 4 then t.setEntry e (e.pte &&& ~~~(1#64 <<< 47)) else t

/-- PATROL_SCRUB (09 R191): a corrected error is fixed and counted; an uncorrectable one is rewritten with scale 255 and
reported to the reading context. An error that stood on the line already is found too; the patrol itself reads for no context, so
such an uncorrectable one is reported to none (log 92). -/
def State.patrol (s : State) (line : Nat) (err : LineError) : State :=
  let pa := 64 * line
  match err with
  | .none => (s.sense 1024 pa 64).mend 1024 pa 64 false
  | .corrected => ((s.sense 1024 pa 64).mend 1024 pa 64 false).countFlaw (pa, false)
  | .uncorrectable ctx =>
    let t := { s with flaws := s.flaws.filter fun f => !onFlaw pa 64 f }
    { t with mem := mput t.mem (scaleKey pa) 255 }.memoryError ctx pa

/-- STATION_ACCESS (09 R170). -/
def execStationAccess (r : StationReq) (s : State) : Host.Outcome State Fault Refusal :=
  if r.die < 4 then .next (s.stationAccess r) else .fault .noSuchUnit

/-- PAGE_MIGRATION (09 R173). -/
def execPageMigration (ctx va frame : Nat) (s : State) : Host.Outcome State Fault Refusal := .next (s.migrate ctx va frame)

/-- MIGRATION_WB_TIMEOUT (09 R173). -/
def execMigrationWbTimeout (ctx va : Nat) (s : State) : Host.Outcome State Fault Refusal := .next (s.migrationTimeout ctx va)

/-- PATROL_SCRUB (09 R191). -/
def execPatrolScrub (line : Nat) (err : LineError) (s : State) : Host.Outcome State Fault Refusal :=
  if line < hbmSize / 64 then .next (s.patrol line err) else .fault .noSuchUnit

end Sys2Proof.Machine
end

