-- ==== Sys2Proof/Machine/Crc.lean ====
section
/-!
DEFINITION. CRC-32C, the check of packets and save images (15 R283, 20 R328): the Castagnoli polynomial, reflected, with the
register inverted before and after.
-/
namespace Sys2Proof.Machine

/-- n shifts of the register. -/
def crcShift : Nat → BitVec 32 → BitVec 32
  | 0, c => c
  | n + 1, c => crcShift n (if c.getLsbD 0 then (c >>> 1) ^^^ 0x82F63B78#32 else c >>> 1)

def crcBytes : List Byte → BitVec 32 → BitVec 32
  | [], c => c
  | b :: bs, c => crcBytes bs (crcShift 8 (c ^^^ b.setWidth 32))

/-- CRC-32C of some bytes. -/
def crc32c (bs : List Byte) : Nat := (crcBytes bs 0xFFFFFFFF#32 ^^^ 0xFFFFFFFF#32).toNat

end Sys2Proof.Machine
end

