-- ==== Sys2Proof/Machine/SysInstr.lean ====
section
/-!
DEFINITION. The SYS and DEBUG classes and brk (15 R277 to R281, 21 R348, R353, R354), and the steps that writes to system
registers set off (15 R279, R289; 21 R342, R347, R352, R355).
-/
namespace Sys2Proof.Machine

/-- The number of a park reason among the counters (05 R83). -/
def Reason.num : Reason → Nat
  | .mem => 0
  | .allw => 1
  | .sleep => 2
  | .bar => 3
  | .mtx => 4
  | .tok => 5
  | .pin => 6
  | .queue => 7
  | .ring => 8
  | .tline => 9
  | .trap => 10
  | .join => 11

/-- Where a slot stands (21 R354): a transfer that moves its rows has moved pc already, and its slot stands at it still. -/
def Slot.standsAt (x : Slot) : Word :=
  match x.park with
  | some p => if p.reason = .mtx ∧ x.issued.isNone ∧ !p.woken then x.pc - 4 else x.pc
  | none => x.pc

/-- The sample of one slot (21 R354): a park whose event has been delivered is over (05 R83). -/
def Slot.sample (x : Slot) : Word :=
  if !x.live then 0
  else
    BitVec.ofNat 64 (2 ^ 63 +
      (match x.park with
       | some p => if p.woken then 0 else 2 ^ 62 + (p.reason.num + 1) * 2 ^ 58
       | none => 0) + x.standsAt.toNat % 2 ^ 18)

def State.sampleOf (s : State) (g k : Nat) : Word := (s.slot g k).sample

/-- TRACE_SAMPLE: a sample record of the next slot in turn (21 R355, R356). -/
def State.traceSample (s : State) (g : Nat) : State :=
  let c := s.core g
  let k := c.sample % 11
  let s := s.setCore g { c with sample := (k + 1) % 11 }
  s.trace g k 4 5 (s.slot g k).standsAt (s.sampleOf g k) 0 false

/-- Sampling falls due every 2^(ival + 10) cycles while samples are enabled (21 R355). -/
def Core.sampleDue (c : Core) : Bool :=
  c.tctl.getLsbD 4 && c.cycle % 2 ^ (c.tctl.toNat / 2 ^ 9 % 8 + 10) == 0

/-- The step count of a core is reached (21 R347). -/
def Core.stepDue (c : Core) : Bool := c.stepCnt != 0 && c.stepCnt ≤ c.stepped

/-- mfs (15 R278). -/
def mfsRun (s : State) (n : Nat) : Run := do
  let v ← s.sysRead n
  .ok (s.setAcc v)

/-- An instruction that requires privilege (15 R277); the word's register field is zero, and so is the fault address. -/
def State.privileged (s : State) : Except Stop Unit := if s.cur.priv then .ok () else .error (.trap cPrivilege 0)

/-- rti (15 R278): the return is traced as a transfer (21 R356). -/
def rtiRun (s : State) : Run := do
  s.privileged
  let t := s.returnTrap
  .ok (if t.cur.live ∧ !t.cur.priv then t.trace t.curCore t.curSlot 0 1 s.cur.pc t.cur.pc 0 false else t)

/-- wfi (15 R279). -/
def wfiRun (s : State) : Run := do
  s.privileged
  let c := s.curCoreOf
  if c.bell = 0 ∨ s.behind .bell then .error (s.hold .trap .bell)
  else .ok ((s.setCurCore { c with bell := 0 }).setAcc c.bell)

/-- A token in a slot record (15 R284). -/
def Tok.bytes (t : Tok) : List Byte :=
  leBytes 8 (t.desc % 2 ^ 32 * 2 ^ 32 + if t.busy then 1 else 0) ++ leBytes 8 (t.crec % 2 ^ 32)

/-- The fields of a slot record before the tokens: the state word and pc are given (15 R284). -/
def Slot.recordHead (x : Slot) (state : Nat) (pc : Word) : List Byte :=
  leBytes 8 x.a.toNat ++ (List.range 8).flatMap (fun n => leBytes 8 (tget (0 : Word) x.p n).toNat) ++
  (List.range 8).flatMap (fun n => leBytes 2 (tget (0 : BitVec 16) x.step n).toNat) ++ leBytes 4 x.lc.toNat ++
  leBytes 4 x.f.toNat ++ leBytes 8 pc.toNat ++ leBytes 8 x.vf.toNat ++ leBytes 8 state ++ leBytes 8 x.rdet.toNat ++
  leBytes 8 x.ka.toNat ++ leBytes 8 x.kp7.toNat ++ leBytes 8 x.ks7.toNat ++ leBytes 8 x.kf.toNat ++ leBytes 8 x.epc.toNat ++
  leBytes 8 x.cause.toNat ++ leBytes 8 x.faddr.toNat ++ leBytes 8 0 ++
  (List.range 4).flatMap (fun i => leBytes 8 (x.watch.getD i 0)) ++
  leBytes 8 (2 ^ min x.watch.length 4 - 1 + if x.fired then 16 else 0) ++ leBytes 24 0

/-- A slot record of 512 bytes (15 R284). -/
def Slot.record (x : Slot) (state : Nat) (pc : Word) : List Byte :=
  x.recordHead state pc ++ (List.range 8).flatMap (fun k => (tget Tok.idle x.tok k).bytes) ++ leBytes 128 0

/-- vf from a record: a reserved code is loaded as 0x00 (15 R281). -/
def vfLoad (v : Nat) : BitVec 19 :=
  if fmtReserved (v % 256) then BitVec.ofNat 19 (v / 256 * 256) else BitVec.ofNat 19 v

/-- The watch set of a record. -/
def watchLoad (r : List Byte) : List Nat :=
  (List.range 4).filterMap fun i => if field r 0xE0 8 / 2 ^ i % 2 = 1 then some (field r (0xC0 + 8 * i) 8) else none

/-- What srest and a restore load alike from a record (15 R281, R285). -/
def Slot.loadRegs (x : Slot) (r : List Byte) : Slot :=
  { x with
    a := BitVec.ofNat 64 (field r 0 8)
    p := (List.range 8).map fun n => (n, BitVec.ofNat 64 (field r (8 + 8 * n) 8))
    step := (List.range 8).map fun n => (n, BitVec.ofNat 16 (field r (0x48 + 2 * n) 2))
    lc := BitVec.ofNat 32 (field r 0x58 4), f := BitVec.ofNat 7 (field r 0x5C 4), vf := vfLoad (field r 0x68 8)
    rdet := BitVec.ofNat 64 (field r 0x78 8), watch := watchLoad r }

/-- The address of a slot record: L of the core, a multiple of 512 (15 R281). -/
def recordAddr (a : Word) : Option Nat :=
  if tagOf a = 0 ∧ offOf a % 512 = 0 ∧ offOf a < 0x40000 then some (offOf a) else none

/-- ssave (15 R281): none for the double fault of a bad address. -/
def ssaveRun (s : State) : Option State :=
  (recordAddr s.acc).map fun o => s.writeBuf 0 s.curCore o (s.cur.record 1 s.cur.epc)

/-- srest (15 R281): pc goes into epc, fired is cleared; an uncorrectable word of the record is found (09 R193). -/
def srestRun (s : State) : Option State :=
  (recordAddr s.acc).map fun o =>
    let s := s.sense (s.ctxOf s.curCore) (lKey s.curCore o) 512
    let r := mgets s.mem (lKey s.curCore o) 512
    s.setCur { s.cur.loadRegs r with epc := BitVec.ofNat 64 (field r 0x60 8), fired := false }

/-- ssave and srest: the privilege fault, the double fault, or 32 cycles (15 R281). -/
def moveRecord (s : State) (r : Option State) : Host.Outcome State Fault Refusal :=
  if !s.cur.priv then retire s 4 4 (.error (.trap cPrivilege 0))
  else match r with
    | none => .next (s.doubleFault s.acc)
    | some t => retire s 4 32 (.ok t)

/-- brk (21 R348). -/
def brkRun (s : State) : State :=
  let c := clusterOf s.curCore
  if (s.cluster c).dctl.getLsbD 3 then s.debugHalt c s.curCore s.curSlot 0 1 s.cur.pc
  else s.takeTrap cBreak 0 0 s.cur.pc 2 none

/-- dbgh (21 R354): the slot is saved after it. -/
def dbghRun (s : State) (n : Nat) : State :=
  let c := clusterOf s.curCore
  let t := s.complete 4 4
  if (s.cluster c).dctl.getLsbD 4 then t.debugHalt c s.curCore s.curSlot 0 (BitVec.ofNat 64 (n * 256 + 2)) t.cur.pc else t

/-- trc (21 R354). -/
def trcRun (s : State) (n : Nat) : State :=
  s.trace s.curCore s.curSlot 1 2 s.cur.pc s.acc (BitVec.ofNat 64 n) false

/-- MFS (15 R278). -/
def execMfs (r : BitVec 12) (s : State) : Host.Outcome State Fault Refusal := retire s 4 4 (mfsRun s r.toNat)

/-- MTS (15 R278). -/
def execMts (r : BitVec 12) (s : State) : Host.Outcome State Fault Refusal := retire s 4 4 (s.sysWrite r.toNat s.acc)

/-- TRAP (15 R275, R278): code 11, epc past the word. -/
def execTrap (n : BitVec 7) (s : State) : Host.Outcome State Fault Refusal :=
  .next (s.takeTrap cSoftware n.toNat 0 (s.cur.pc + 4) 4 none)

/-- RTI (15 R278). -/
def execRti (s : State) : Host.Outcome State Fault Refusal := settle s 4 (rtiRun s)

/-- WFI (15 R279). -/
def execWfi (s : State) : Host.Outcome State Fault Refusal := retire s 4 4 (wfiRun s)

/-- SSAVE (15 R281). -/
def execSsave (s : State) : Host.Outcome State Fault Refusal := moveRecord s (ssaveRun s)

/-- SREST (15 R281). -/
def execSrest (s : State) : Host.Outcome State Fault Refusal := moveRecord s (srestRun s)

/-- BRK (21 R348). -/
def execBrk (s : State) : Host.Outcome State Fault Refusal := .next (brkRun s)

/-- TRC (21 R354). -/
def execTrc (n : BitVec 7) (s : State) : Host.Outcome State Fault Refusal := retire s 4 4 (.ok (trcRun s n.toNat))

/-- DBGH (21 R354). -/
def execDbgh (n : BitVec 7) (s : State) : Host.Outcome State Fault Refusal := .next (dbghRun s n.toNat)

/-- SMPL (21 R354). -/
def execSmpl (n : BitVec 7) (s : State) : Host.Outcome State Fault Refusal :=
  retire s 4 4 (.ok (s.setAcc (s.sampleOf s.curCore n.toNat)))

/-- ABORT_WRITE (15 R289). -/
def execAbortWrite (v : Word) (s : State) : Host.Outcome State Fault Refusal := .next (s.abortWrite v)

/-- BELL_WRITE (15 R279). -/
def execBellWrite (v : Word) (s : State) : Host.Outcome State Fault Refusal :=
  .next (s.setCurCore { s.curCoreOf with bell := v })

/-- DEBUG_REQUEST_WRITE (21 R342). -/
def execDebugRequestWrite (s : State) : Host.Outcome State Fault Refusal :=
  .next (s.debugHalt (clusterOf s.curCore) 0xFFFF 0xFF 0 6 0)

/-- TRACE_CONTROL_WRITE (21 R355). -/
def execTraceControlWrite (v : Word) (s : State) : Host.Outcome State Fault Refusal := .next (s.traceControl v)

/-- TRACE_COUNT_READ (21 R355): the read of twr. -/
def execTraceCountRead (s : State) : Host.Outcome State Fault Refusal := retire s 4 4 (mfsRun s 0x08A)

/-- TRACE_SAMPLE (21 R355, R356). -/
def execTraceSample (core : Nat) (s : State) : Host.Outcome State Fault Refusal :=
  if core < 1024 then .next (s.traceSample core) else .fault .noSuchUnit

/-- STEP_COUNT_HALT (21 R347). -/
def execStepCountHalt (cluster : Nat) (s : State) : Host.Outcome State Fault Refusal :=
  if cluster < 256 then
    .next (if (coresOf cluster).any fun g => (s.core g).stepDue then s.debugHalt cluster 0xFFFF 0xFF 0 5 0 else s)
  else .fault .noSuchUnit

end Sys2Proof.Machine
end

