-- ==== Sys2Proof/Machine/Preempt.lean ====
section
/-!
DEFINITION. Pre-emption (15 R282 to R285): the drain, the save image with its index block and core sections, and the restore
(21 R342, R346, R347).
-/
namespace Sys2Proof.Machine

/-- The buffer (0 L, 1 A), the core and the offset there that an agent's write at an X offset of a cluster reaches: a write in one
buffer (21 R344). -/
def hitPlace (w : WatchHit) : Option (Nat × Nat × Nat) :=
  let g := 4 * w.cluster + w.off / 0x100000 % 4
  let o := w.off % 0x100000
  let n := w.bytes.length
  if 0x400000 ≤ w.off then none
  else if o + n ≤ 0x40000 then some (0, g, o)
  else if 0x80000 ≤ o ∧ o + n ≤ 0x100000 then some (1, g, o - 0x80000)
  else none

/-- Whether the write meets the supervisor range (15 R272). -/
def State.hitGuarded (s : State) (w : WatchHit) : Bool :=
  match hitPlace w with
  | some (b, g, o) => b == 0 && s.supervisor g o w.bytes.length
  | none => false

/-- The watchpoint that a write strikes, of an engine or a remote agent that is armed (21 R344, R350). -/
def State.hitWatch (s : State) (w : WatchHit) : Option Nat :=
  if (hitPlace w).isNone || s.hitGuarded w then none
  else watchHit (s.cluster w.cluster) (if w.remote then 2 else 1) w.off w.bytes.length

def State.armed (s : State) (w : WatchHit) : Bool := (s.hitWatch w).isSome

/-- A write that the supervisor range refuses: of a remote agent it counts as a refused arrival; of a copy engine, its sector is judged
and becomes missing with cause 5 (15 R272, 21 R358). -/
def State.hitRefused (s : State) (w : WatchHit) : State :=
  if w.remote then s.bumpDie (w.cluster / 64) 0x0D0
  else match s.copies.find? fun e => e.2.engine % 65536 == w.src && s.headCopy e.1 with
    | some e => s.copySector e.1
    | none => s

/-- The write is performed (21 R352). -/
def State.hitLanded (s : State) (w : WatchHit) : State :=
  match hitPlace w with
  | none => s
  | some (b, g, o) =>
    if s.hitGuarded w then s.hitRefused w
    else
      let t := (s.writeBytes (bufKey b g o) w.bytes).mend (s.ctxOf g) (bufKey b g o) w.bytes.length false
      if b = 0 then t.fire g o w.bytes.length none else t

/-- WATCHPOINT_REMOTE_HALT (15 R272; 21 R344, R346, R352): the write of an engine or a remote agent is performed, and the cluster
halts if it strikes a watchpoint. -/
def execWatchpointRemoteHalt (w : WatchHit) (s : State) : Host.Outcome State Fault Refusal :=
  if w.cluster < 256 then
    .next (match s.hitWatch w with
      | none => s.hitLanded w
      | some k =>
        let v := (if w.remote then w.srcChip * 2 ^ 52 else 0) + w.src % 2 ^ 16 * 2 ^ 32 + k * 256 + (if w.remote then 4 else 3)
        (s.hitLanded w).debugHalt w.cluster 0xFFFF 0xFF (BitVec.ofNat 64 w.off) (BitVec.ofNat 64 v) 0)
  else .fault .noSuchUnit

/-- A slot whose instruction has issued and completes before it is saved: it waits for an answer or for memory (15 R282). One in a
scatter atomic only takes the answer of the lane that is under way or has been performed, and stands at the next lane then (10 R202). -/
def Slot.drains (x : Slot) : Bool :=
  match x.park with
  | none => false
  | some p =>
    x.live && x.issued.isSome && p.res != .again && p.reason != .mtx &&
      (if x.lane.isSome then p.wake != .poll
       else match p.wake with
         | .poll => p.reason == .mem
         | _ => true)

/-- Every slot of a cluster is in its saved condition, and its stores to other chips have left the package (11 R226, 15 R282). -/
def State.drained (s : State) (c : Nat) : Bool :=
  (coresOf c).all fun g => (s.core g).slots.all fun e => !e.2.drains && !s.storesStuck g e.1

/-- The step in flight finishes; a macro-operation then ends at its chunk boundary (13 R257, 15 R282). -/
def State.finishArray (s : State) (g : Nat) : State :=
  let s := if (s.core g).array.isSome then s.arrayDone g else s
  match (s.core g).damask with
  | none => s
  | some d =>
    let t := s.damaskStep g d
    t.setCore g { t.core g with damask := none }

def State.finishArrays (s : State) : List Nat → State
  | [] => s
  | g :: gs => (s.finishArray g).finishArrays gs

/-- Suspend a copy at its sector boundary, or end it if its last sector is done: its record takes status 3 and its progress (09
R189). The progress of a replay is then in the record. -/
def State.stopCopy (s : State) (id : Nat) (c : Copy) : State :=
  ((s.writeRecord c 3).1).setCopy id { c with suspended := true, moved := if c.replay then 0 else c.moved }

/-- At a pre-emption: a copy with a side in the cluster's buffers stops, or ends if its last sector is done and performed, or if its
descriptor is refused (R187); one between G and G runs on, and a replay reads its map while its core's L is there (09 R189). -/
def State.suspendCopy (s : State) (id : Nat) (c : Copy) : State :=
  if c.ended then s
  else if !c.inBuffers then (if c.accepted then s else s.copyAccept id)
  else if c.status == 2 || !c.accepted && c.refused then (s.copyAccept id).copyComplete id
  else if c.accepted && c.count ≤ c.next then
    let t := s.copyComplete id
    match t.copies.lookup id with
    | some x => if x.ended then t else t.stopCopy id x
    | none => t
  else s.stopCopy id c

def State.suspendAll (s : State) (n : Nat) : List (Nat × Copy) → State
  | [] => s
  | e :: es => (if e.2.packet.isNone && e.2.gang == n then s.suspendCopy e.1 e.2 else s).suspendAll n es

/-- A slot that has met its barrier is past the instruction (10 R212). -/
def Slot.passBar (x : Slot) : Slot :=
  match x.cbar with
  | some (_, false) =>
    { x with cbar := none, park := none, pc := x.pc + 4, replies := [], ports := [], issued := none, word := [] }
  | _ => x

/-- The park reason in a slot record, 0 for none: also for one whose event has been delivered, and for the delay after a completed
instruction (15 R282, R284). -/
def Slot.parkCode (x : Slot) : Nat :=
  match x.park with
  | some p =>
    if p.woken then 0
    else match p.wake with
      | .till _ => if x.issued.isSome then p.reason.num + 1 else 0
      | _ => p.reason.num + 1
  | none => 0

/-- The state word of a slot record (15 R284). -/
def Slot.stateWord (x : Slot) (done : Bool) : Nat :=
  (if x.live then 1 else if done then 2 else 0) + 4 * x.parkCode + (if x.priv then 256 else 0)

/-- The slot record of a save image: the restart detail holds the lane at which a scatter atomic stands (10 R202, 15 R282). -/
def Slot.image (x : Slot) (done : Bool) : List Byte :=
  let y := match x.lane.orElse fun _ => x.restart with
    | some j => { x with rdet := restartWord x.pc (some j) }
    | none => x
  if x.live || done then y.record (x.stateWord done) x.pc else leBytes 512 0

/-- A queue or a ring direction: eight entries of 8 bytes, then the count (15 R283). -/
def entriesBytes (l : List Word) : List Byte :=
  (List.range 8).flatMap (fun i => leBytes 8 (l.getD i 0).toNat) ++ leBytes 8 l.length

/-- The destination slot in an image (15 R283). -/
def DSlot.bytes (d : DSlot) : List Byte :=
  leBytes 8 d.path.toNat ++ leBytes 8 d.cursor.toNat ++ leBytes 2 d.win ++ leBytes 2 (if d.bound then 1 else 0) ++ leBytes 12 0

def AccTile.bytes (t : AccTile) : List Byte :=
  leBytes 8 t.word.toNat ++ leBytes 8 t.rmask.toNat ++ leBytes 8 t.cmask.toNat

/-- The first 0x2000 bytes of a core section (15 R283). -/
def Core.head (c : Core) : List Byte :=
  (List.range 11).flatMap (fun k => (tget Slot.reset c.slots k).image (k == 0 && c.done)) ++
  (List.range 8).flatMap (fun t => leBytes 8 (c.shapeOf t).toNat) ++
  (List.range 4).flatMap (fun q => entriesBytes (tget [] c.queues q)) ++
  (List.range 16).flatMap (fun k => (tget DSlot.reset c.ds k).bytes) ++
  (List.range 8).flatMap (fun t => (tget AccTile.reset c.acc t).bytes) ++ leBytes 0x5E0 0

/-- Bytes into an image, in blocks with descriptor (0x00, 127). -/
def putRaw (m : List Host.Cell) (k : Nat) (bs : List Byte) : List Host.Cell :=
  mputs (mclear m (fmtKey k) (2 * ((bs.length + 63) / 64))) k bs

/-- The row blocks of tile t: the shape's format, 0x00 when unconfigured, and the row's scale (15 R283). -/
def saveRows (m : List Host.Cell) (g t fmt dst : Nat) : Nat → List Host.Cell
  | 0 => m
  | n + 1 =>
    let b := blockAt m (tileKey g t + 64 * n)
    putBlock (saveRows m g t fmt dst n) (dst + 64 * n) { b with fmt := BitVec.ofNat 8 fmt }

def saveTiles (m : List Host.Cell) (c : Core) (g dst : Nat) : Nat → List Host.Cell
  | 0 => m
  | t + 1 =>
    let f := if c.shapeOf t = 0 then 0 else shapeFmt (c.shapeOf t)
    saveRows (saveTiles m c g dst t) g t f (dst + 4096 * t) 64

/-- The key of piece i of a core, in the order of the live mask (15 R283). -/
def pieceKey (g i : Nat) : Nat :=
  if i < 4 then lKey g (0x10000 * i) else if i < 12 then aKey g (0x10000 * (i - 4)) else wKey g (0x10000 * (i - 12))

/-- Block n of piece i lies in the supervisor range (15 R272, R283). -/
def State.guarded (s : State) (g i n : Nat) : Bool := decide (i < 4) && s.supervisor g (0x10000 * i + 64 * n) 64

def zeroBlock0 : Block := { data := List.replicate 64 0, fmt := 0, scale := 127 }

/-- A piece into the image: supervisor blocks as zero (15 R283). -/
def State.savePiece (s : State) (m : List Host.Cell) (g i dst : Nat) : Nat → List Host.Cell
  | 0 => m
  | n + 1 =>
    putBlock (s.savePiece m g i dst n) (dst + 64 * n)
      (if s.guarded g i n then zeroBlock0 else blockAt s.mem (pieceKey g i + 64 * n))

/-- The selected pieces, in ascending bit order. -/
def pieces (live : BitVec 20) : List Nat := (List.range 20).filter fun i => live.getLsbD i

def State.savePieces (s : State) (m : List Host.Cell) (g dst : Nat) : List Nat → List Host.Cell
  | [] => m
  | i :: is => s.savePieces (s.savePiece m g i dst 1024) g (dst + 0x10000) is

def sectionSize (live : BitVec 20) : Nat := 0x42000 + 0x10000 * (pieces live).length

/-- The bytes of piece i that the image takes, as ranges of keys: the piece without the supervisor range. -/
def State.pieceRanges (s : State) (g i : Nat) : List (Nat × Nat) :=
  let a := pieceKey g i
  let b := a + 0x10000
  if i < 4 then
    let lo := lKey g (s.guardLo g)
    let hi := lKey g (s.guardHi g)
    [(a, min b (max a lo)), (max a (min b hi), b)]
  else [(a, b)]

/-- The reads of the buffers for an image meet the errors of their words (09 R193). -/
def State.sensePieces (s : State) (ctx g : Nat) (is : List Nat) : State :=
  (is.flatMap (s.pieceRanges g)).foldl (fun t r => t.sense ctx r.1 (r.2 - r.1)) s

/-- One core section at a device address (15 R283). -/
def State.saveCore (s : State) (ctx g dst : Nat) : State :=
  let c := s.core g
  let s := s.sensePieces ctx g (pieces c.live)
  let m := putRaw s.mem dst c.head
  let m := saveTiles m c g (dst + 0x2000) 8
  let m := putRaw m (dst + 0xA000) (mgets s.mem (cKey g 0) 0x38000)
  { s with mem := s.savePieces m g (dst + 0x42000) (pieces c.live) }

/-- The sections' offsets from the image base. -/
def State.sections (s : State) (c : Nat) : List Nat :=
  let n := (coresOf c).map fun g => sectionSize (s.core g).live
  [4096, 4096 + n.getD 0 0, 4096 + n.getD 0 0 + n.getD 1 0, 4096 + n.getD 0 0 + n.getD 1 0 + n.getD 2 0]

def State.imageSize (s : State) (c : Nat) : Nat :=
  4096 + ((coresOf c).map fun g => sectionSize (s.core g).live).foldl (· + ·) 0

/-- The arrival bits of the barriers: bit 4b + c (15 R283). -/
def Cluster.barBits (cl : Cluster) : Nat :=
  (List.range 4).foldl (fun n b => n + (tget (0 : BitVec 4) cl.cbar b).toNat * 16 ^ b) 0

/-- The index block without the DT of completion and the CRC (15 R283; 21 R347: zero at 0x2A0). -/
def State.indexBlock (s : State) (n : Nat) : List Byte :=
  let x := s.gang n
  let l := s.launch x.launch
  let cl := s.cluster x.cluster
  leBytes 4 0x474D495A ++ leBytes 4 1 ++ leBytes 2 l.ctx ++ leBytes 2 x.reason ++ leBytes 4 x.index ++
  leBytes 8 l.ident.toNat ++ leBytes 8 x.reqDt ++ leBytes 8 0 ++ leBytes 2 x.cluster ++ leBytes 2 0 ++
  (coresOf x.cluster).flatMap (fun g => leBytes 4 (s.core g).live.toNat) ++
  (s.sections x.cluster).flatMap (leBytes 8) ++ leBytes 4 cl.barBits ++
  (List.range 4).flatMap (fun c => entriesBytes (tget [] cl.rings ((c + 1) % 4)) ++
    entriesBytes (tget [] cl.rings (4 + (c + 3) % 4))) ++ leBytes 3424 0

/-- The whole image at the gang's place in the save area, untranslated (15 R283). -/
def State.writeImage (s : State) (n : Nat) : State :=
  let x := s.gang n
  let ctx := (s.launch x.launch).ctx
  let os := s.sections x.cluster
  let t := { s with mem := putRaw s.mem x.image (s.indexBlock n) }
  let t := t.saveCore ctx (4 * x.cluster) (x.image + os.getD 0 0)
  let t := t.saveCore ctx (4 * x.cluster + 1) (x.image + os.getD 1 0)
  let t := t.saveCore ctx (4 * x.cluster + 2) (x.image + os.getD 2 0)
  (t.saveCore ctx (4 * x.cluster + 3) (x.image + os.getD 3 0)).mend ctx x.image (s.imageSize x.cluster) true

/-- What is kept of the slots beside the image. -/
def State.keeps (s : State) (c : Nat) : List Keep :=
  (coresOf c).flatMap fun g => (s.core g).slots.map fun e =>
    { core := g % 4, slot := e.1, tok := e.2.tok, cbar := e.2.cbar }

def State.passBars (s : State) : List Nat → State
  | [] => s
  | g :: gs => (s.setCore g { s.core g with slots := (s.core g).slots.map fun e => (e.1, e.2.passBar) }).passBars gs

/-- No copy of a gang with a side in its cluster's buffers stands within a sector (09 R189). -/
def State.sectorsDone (s : State) (n : Nat) : Bool :=
  s.copies.all fun e => !(e.2.packet.isNone && e.2.gang == n && e.2.inBuffers && !e.2.log.isEmpty)

/-- PREEMPT_DRAIN_END (15 R282): once every slot is in its saved condition, the arrays finish; copies with the cluster's buffers
stop at their sector boundaries, waits are withdrawn from their homes, and the image is written. A gang that a double fault of its last step has aborted is
saved no more. -/
def State.drainEnd (s : State) (n : Nat) : State :=
  let x := s.gang n
  let s := if x.state = .halting ∧ s.drained x.cluster then s.finishArrays (coresOf x.cluster) else s
  if (s.gang n).state ≠ .halting ∨ !s.drained x.cluster ∨ !s.sectorsDone n then s
  else
    let s := s.passBars (coresOf x.cluster)
    let s := (s.suspendAll n s.copies).withdraw x.cluster
    let s := { s with paths := s.paths.map (PathSrc.uncount x.cluster) }
    let s := (s.setGang n { x with state := .saving, keep := s.keeps x.cluster }).writeImage n
    (s.moveOwners x.cluster n).later (.saveImage n)

/-- The CRC of an image, its field taken as zero (15 R283). -/
def imageCrc (m : List Host.Cell) (a size : Nat) : Nat :=
  crc32c (mgets m a 0xFFC ++ leBytes 4 0 ++ mgets m (a + 4096) (size - 4096))

/-- The dispatcher writes some bytes of a gang's image (09 R192, 15 R283). -/
def State.imageWrite (s : State) (n off : Nat) (bs : List Byte) : State :=
  let x := s.gang n
  (s.writeBytes (x.image + off) bs).mend (s.launch x.launch).ctx (x.image + off) bs.length false

/-- SAVE_IMAGE_COMPLETE (15 R282, R283): the DT and the CRC are written, and the cluster is free; a held gang waits for its
release, and the packet that asked for it is complete (20 R330, R332, 21 R346). -/
def State.saveDone (s : State) (n : Nat) : State :=
  let x := s.gang n
  if x.state ≠ .saving then s
  else
    let size := s.imageSize x.cluster
    let s := s.imageWrite n 0x20 (leBytes 8 s.dt)
    let s := s.imageWrite n 0xFFC (leBytes 4 (imageCrc s.mem x.image size))
    let s := s.setGang n { x with state := if x.hold then .held else .saved, packets := [] }
    (s.freeCluster x.cluster).finishAll x.packets 0

/-- A free cluster (05 R86): no gang, no island out of service. -/
def State.isFree (s : State) (c : Nat) : Bool :=
  (s.cluster c).gang.isNone && !(s.outOf.any fun i => i / 4 == c)

def clustersOf (die : Nat) : List Nat := (List.range 64).map fun i => 64 * die + i

def State.freeClusters (s : State) (die : Nat) : List Nat := (clustersOf die).filter s.isFree

/-- A queue or ring direction of an image. -/
def entriesLoad (r : List Byte) (off : Nat) : List Word :=
  (List.range (min 8 (field r (off + 64) 8))).map fun i => BitVec.ofNat 64 (field r (off + 8 * i) 8)

/-- The tokens and the barrier wait kept of a slot. -/
def keepOf (ks : List Keep) (core slot : Nat) : Table Tok × Option (Nat × Bool) :=
  match ks.find? fun k => k.core == core && k.slot == slot with
  | some k => (k.tok, k.cbar)
  | none => ([], none)

/-- A slot as a record restores it, parked on nothing (15 R284, R285): its restart detail resumes a scatter atomic at its
lane (10 R202), its next sleep returns with W (10 R205), and a barrier's waiter waits on. -/
def slotLoad (r : List Byte) (k : Table Tok × Option (Nat × Bool)) : Slot :=
  let x := Slot.reset.loadRegs r
  let st := field r 0x70 8
  let pc : Word := BitVec.ofNat 64 (field r 0x60 8)
  let resume := x.rdet.getLsbD 63 && pc.toNat % 2 ^ 18 == x.rdet.toNat / 2 ^ 32 % 2 ^ 18
  if st % 4 ≠ 1 then Slot.reset
  else
    { x with
      live := true, pc := pc, priv := st / 256 % 2 = 1
      ka := BitVec.ofNat 64 (field r 0x80 8), kp7 := BitVec.ofNat 64 (field r 0x88 8)
      ks7 := BitVec.ofNat 16 (field r 0x90 8), kf := BitVec.ofNat 7 (field r 0x98 8)
      epc := BitVec.ofNat 64 (field r 0xA0 8), cause := BitVec.ofNat 64 (field r 0xA8 8 % 2 ^ 17)
      faddr := BitVec.ofNat 64 (field r 0xB0 8)
      fired := field r 0xE0 8 / 16 % 2 = 1
      restored := true
      restart := if resume then some (x.rdet.toNat % 256) else none
      rdet := if resume && st / 256 % 2 == 0 then 0 else x.rdet
      tok := k.1, cbar := k.2 }

/-- The core as its section restores it; what the core keeps across gangs stays (15 R271, R272). -/
def Core.load (c : Core) (r : List Byte) (live : BitVec 20) (count core : Nat) (ks : List Keep) : Core :=
  let rec_ := fun k => (r.drop (512 * k)).take 512
  { c with
    slots := (List.range 11).map fun k => (k, slotLoad (rec_ k) (keepOf ks core k))
    queues := (List.range 4).map fun q => (q, entriesLoad r (0x1640 + 72 * q))
    ds := (List.range 16).map fun k =>
      let o := 0x1760 + 32 * k
      (k, { path := BitVec.ofNat 64 (field r o 8), cursor := BitVec.ofNat 64 (field r (o + 8) 8), win := field r (o + 16) 2,
            bound := field r (o + 18) 2 != 0, inFl := 0, good := 0, hold := 0 })
    shape := (List.range 8).map fun t => (t, BitVec.ofNat 23 (field r (0x1600 + 8 * t) 8))
    acc := (List.range 8).map fun t =>
      let o := 0x1960 + 24 * t
      (t, { status := BitVec.ofNat 8 (field r o 8) &&& 0xD1#8, rmask := BitVec.ofNat 64 (field r (o + 8) 8),
            cmask := BitVec.ofNat 64 (field r (o + 16) 8) })
    live := live, done := field r 0x70 8 % 4 == 2, uses := [], array := none, damask := none
    tbase := 0, tctl := 0, twr := 0, tdrop := 0, sample := 0, stepCnt := count, stepped := 0 }

/-- Copy n blocks with their descriptors. -/
def copyBlocks (m : List Host.Cell) (dst src : Nat) : Nat → List Host.Cell
  | 0 => m
  | n + 1 => putBlock (copyBlocks m dst src n) (dst + 64 * n) (blockAt m (src + 64 * n))

/-- A piece of a restored core: from the image at src, or zero; supervisor blocks stay (15 R272, R285). -/
def State.loadPiece (s : State) (m : List Host.Cell) (g i : Nat) (src : Option Nat) : Nat → List Host.Cell
  | 0 => m
  | n + 1 =>
    let m := s.loadPiece m g i src n
    if s.guarded g i n then m
    else putBlock m (pieceKey g i + 64 * n) (match src with
      | some a => blockAt s.mem (a + 64 * n)
      | none => zeroBlock0)

/-- All pieces of a core: the selected ones in ascending order from the image, the others zero (15 R285). -/
def State.loadPieces (s : State) (m : List Host.Cell) (g : Nat) (live : BitVec 20) (src : Nat) : List Nat → List Host.Cell
  | [] => m
  | i :: is =>
    if live.getLsbD i then s.loadPieces (s.loadPiece m g i (some src) 1024) g live (src + 0x10000) is
    else s.loadPieces (s.loadPiece m g i none 1024) g live src is

/-- Restore one core from its section (15 R285). -/
def State.loadCore (s : State) (n g src : Nat) (live : BitVec 20) (count : Nat) : State :=
  let r := mgets s.mem src 0x2000
  let m := copyBlocks s.mem (tileKey g 0) (src + 0x2000) 512
  let m := mputs m (cKey g 0) (mgets s.mem (src + 0xA000) 0x38000)
  let m := s.loadPieces m g live (src + 0x42000) (List.range 20)
  (({ s with mem := m }).renewCore g (s.guardLo g) (s.guardHi g)).setCore g ((s.core g).load r live count (g % 4) (s.gang n).keep)

def State.loadCores (s : State) (n a : Nat) (ix : List Byte) (c : Nat) : Nat → State
  | 0 => s
  | k + 1 =>
    (s.loadCores n a ix c k).loadCore n (4 * c + k) (a + field ix (0x3C + 8 * k) 8) (BitVec.ofNat 20 (field ix (0x2C + 4 * k) 4))
      (field ix (0x2A8 + k) 1)

/-- The cluster as the index block restores it: barriers, rings and debug registers (15 R283, 21 R342, R347). -/
def Cluster.load (cl : Cluster) (ix : List Byte) (n : Nat) : Cluster :=
  let bits := field ix 0x5C 4
  { cl with
    icache := [], gang := some n, frozen := false, halt := false
    rings := (List.range 8).map fun d => (d, entriesLoad ix (0x60 +
      (if d < 4 then 144 * ((d + 3) % 4) else 144 * ((d - 4 + 1) % 4) + 72)))
    cbar := (List.range 4).map fun b => (b, BitVec.ofNat 4 (bits / 16 ^ b))
    dctl := BitVec.ofNat 64 (field ix 0x2A0 8 % 64 / 8 * 8)
    wpa := (List.range 4).map fun w => (w, BitVec.ofNat 64 (field ix (0x2B0 + 16 * w) 8 % 2 ^ 22 / 16 * 16))
    wpc := (List.range 4).map fun w =>
      let v := field ix (0x2B8 + 16 * w) 8
      (w, BitVec.ofNat 64 (v % 2 ^ 24 / 256 * 256 + v % 8)) }

/-- A copy goes on at the cluster that now runs its gang (09 R189). -/
def Copy.resumeAt (chip n c : Nat) (x : Copy) : Copy :=
  if x.packet.isSome || x.gang != n then x
  else
    { x with core := 4 * c + x.core % 4, suspended := false,
             engine := if engKind x.engine = 0 then chip * 65536 + c / 64 * 1024 + c % 64 else x.engine }

/-- What moved of a replay while its gang was saved is cleared in its map, in the L where it now runs. -/
def State.resumeCopies (s : State) (n c : Nat) : List (Nat × Copy) → State
  | [] => s
  | e :: es =>
    let x := e.2.resumeAt s.chip n c
    let t := s.setCopy e.1 { x with cleared := [] }
    (if e.2.packet.isNone && e.2.gang == n then t.clearBits x (copyDesc x.desc) x.cleared else s).resumeCopies n c es

/-- The quantisation commands of a restored gang name the cores it now runs on. -/
def QuantCmd.resumeAt (n c : Nat) (q : QuantCmd) : QuantCmd := if q.gang = n then { q with core := 4 * c + q.core % 4 } else q

def State.resumeQuant (s : State) (n c : Nat) : State :=
  { s with quant := s.quant.map fun e => (e.1, { e.2 with queue := e.2.queue.map (QuantCmd.resumeAt n c) }) }

/-- The copies of a restored gang that ended while it was saved deliver their ends (09 R189, 15 R285). -/
def State.deliverEnded (s : State) (n : Nat) : List (Nat × Copy) → State
  | [] => s
  | e :: es => (if e.2.packet.isNone && e.2.gang == n && e.2.ended then s.copyDeliver e.1 e.2 else s).deliverEnded n es

def State.ownersBack (s : State) (c n : Nat) : State :=
  (((s.moveOwner (savedOwner n 0) (4 * c)).moveOwner (savedOwner n 1) (4 * c + 1)).moveOwner (savedOwner n 2)
    (4 * c + 2)).moveOwner (savedOwner n 3) (4 * c + 3)

/-- A gang whose image does not check is aborted, with a record of kind 7 (21 R347). -/
def State.badImage (s : State) (n : Nat) : State :=
  let x := s.gang n
  let l := s.launch x.launch
  let r := { ctxRecord s 7 l.ctx x.die 0 0xFFFFFFFFFFFFFFFF#64 with launch := l.ident, gang := x.index }
  ((((s.report r).setGang n { x with state := .dead }).dropCopies n).holdOver n).gangOver x.launch true

/-- The size of an image, from the live masks of its index block. -/
def imageSpan (ix : List Byte) : Nat :=
  4096 + (four.map fun k => sectionSize (BitVec.ofNat 20 (field ix (0x2C + 4 * k) 4))).foldl (· + ·) 0

/-- Count the idle cycles of a core since it last had a gang: a free value, since the model gives a core without a gang no cycles
(05 R83; log 83). -/
def Core.caughtUp (c : Core) (n : Nat) : Core := { c with ctr := tput c.ctr 0x04F (tget 0 c.ctr 0x04F + BitVec.ofNat 64 n) }

def State.caughtUp (s : State) : List Nat → State
  | [] => s
  | g :: gs => (s.setCore g ((s.core g).caughtUp (Config.idle s.ticks g))).caughtUp gs

/-- Restore a saved gang to a free cluster of its die (15 R285); the reads of its image meet the errors of its lines (09 R191). -/
def State.restoreOn (s : State) (n c : Nat) : State :=
  let x := s.gang n
  let s := s.sense (s.launch x.launch).ctx x.image 4096
  let ix := mgets s.mem x.image 4096
  let s := s.sense (s.launch x.launch).ctx x.image (imageSpan ix)
  if imageCrc s.mem x.image (imageSpan ix) ≠ field ix 0xFFC 4 then s.badImage n
  else
    let s := ((s.caughtUp (coresOf c)).loadCores n x.image ix c 4).setCluster c
      { (s.cluster c).load ix n with lastCtx := some (s.launch x.launch).ctx }
    let s := s.setGang n { x with state := .running, cluster := c, placed := s.dt, keep := [], hold := false, image := 0 }
    let s := (s.resumeCopies n c s.copies).resumeQuant n c
    (s.deliverEnded n s.copies).ownersBack c n

/-- A reason of a pre-emption that holds the gang until a debug packet releases it (20 R332, 21 R346). -/
def holds (reason : Nat) : Bool := reason == 2 || reason == 3

/-- PREEMPT_REQUEST (15 R282). -/
def execPreemptRequest (gang reason : Nat) (s : State) : Host.Outcome State Fault Refusal :=
  if reason < 4 then .next (s.preempt gang reason (holds reason)) else .fault .noSuchUnit

/-- PREEMPT_DRAIN_END (15 R282). -/
def execPreemptDrainEnd (gang : Nat) (s : State) : Host.Outcome State Fault Refusal := .next (s.drainEnd gang)

/-- SAVE_IMAGE_COMPLETE (15 R283). -/
def execSaveImageComplete (gang : Nat) (s : State) : Host.Outcome State Fault Refusal := .next (s.saveDone gang)

end Sys2Proof.Machine
end

