-- ==== Sys2Proof/Machine/Placement.lean ====
section
/-!
DEFINITION. The ready pool and the dispatchers of the dies (05 R75, R85 to R89; 20 R335, R336; 15 R285).
-/
namespace Sys2Proof.Machine

/-- The owner number of the launch unit among requests that leave the chip. -/
def launchOwner : Nat := 1045

/-- Read n blocks of a context's G for the launch unit, from block i on (20 R335). -/
def State.imageBlocks (s : State) (j : Journal) (ctx die va i : Nat) : Nat → Got (List (Access Block))
  | 0 => .ok s j []
  | n + 1 =>
    match s.engineRead j launchOwner ctx die i (va + 64 * i) true 0 with
    | .wait t l => .wait t l
    | .ok t k x =>
      match t.imageBlocks k ctx die va (i + 1) n with
      | .wait t l => .wait t l
      | .ok t k xs => .ok t k (x :: xs)

/-- The bytes of blocks that have been read. -/
def blockBytes (xs : List (Access Block)) : List Byte :=
  xs.flatMap fun x => match x.got with
    | some b => b.data
    | none => []

/-- The launch record of a node: 4 at 0x00C, the context at 0x010, the launch identifier at 0x018 (20 R335). -/
def recordOf (image : List Byte) (ctx : Nat) (ident : Word) : List Byte :=
  image.take 12 ++ leBytes 4 4 ++ leBytes 8 ctx ++ leBytes 8 ident.toNat ++ image.drop 32

/-- The union of the slices of a gang's four cores in dimension d: its indices (05 R74, R85). -/
def Tensor.indices (x : Tensor) (gang d : Nat) : List Nat :=
  (four.flatMap fun core => (List.range (x.extent gang core d)).map fun i => x.org gang core d + i).eraseDups

/-- The addresses of the elements of a gang's slice (05 R73, R85). -/
def Tensor.slice (x : Tensor) (gang : Nat) : List Int :=
  (x.indices gang 0).flatMap fun (a : Nat) => (x.indices gang 1).flatMap fun (b : Nat) =>
    (x.indices gang 2).flatMap fun (c : Nat) => (x.indices gang 3).map fun (d : Nat) =>
      (x.base : Int) + a * x.stride.getD 0 0 + b * x.stride.getD 1 0 + c * x.stride.getD 2 0 + d * x.stride.getD 3 0

/-- The live ranges of a context on this chip: virtual address, size, page size, home die, striped. -/
def State.rangesOf (s : State) (ctx : Nat) : List (Nat × Nat × Nat × Nat × Bool) :=
  s.leases.filterMap fun e => match e.2.data with
    | .range va size page striped =>
      if e.2.owner == ctx && e.2.inUse && s.leaseLive e.2 then some (va, size, sizeOfCode page, e.1 / 2 ^ 20, striped) else none
    | _ => none

/-- The die that a byte of a range counts for: the range's home, or for a striped range the die its page is dealt to (05 R85,
06 R105; log 21). -/
def homeOf (r : Nat × Nat × Nat × Nat × Bool) (a : Nat) : Nat :=
  if r.2.2.2.2 then (r.2.2.2.1 + (a - r.1) / r.2.2.1) % 4 else r.2.2.2.1

/-- What w bits of one byte count for a die, where the byte lies in a range that counts for the die (05 R85). -/
def byteShare (rs : List (Nat × Nat × Nat × Nat × Bool)) (die w : Nat) (a : Int) : Nat :=
  let o := (a % 2 ^ 60).toNat
  match rs.find? fun r => decide (r.1 ≤ o ∧ o < r.1 + r.2.1) with
  | some r => if homeOf r o = die then w else 0
  | none => 0

/-- What one element counts for a die, added up byte by byte: a narrow one is the bits it has of its byte (05 R85). -/
def elementShare (rs : List (Nat × Nat × Nat × Nat × Bool)) (die width : Nat) (a : Int) : Nat :=
  ((List.range (max 1 (width / 8))).map fun (j : Nat) => byteShare rs die (min width 8) (a + (j : Int))).sum

/-- The sum of a gang's slices for a die over the tensor records of rank 1 or more (05 R85). DESIGN CHOICE (log 99): bytes that several
elements of a slice share count once for each element. -/
def State.dieSum (s : State) (ctx : Nat) (record : List Byte) (gang die : Nat) : Nat :=
  let rs := s.rangesOf ctx
  (List.range 8).foldl (fun n t =>
    let x := tensorOf record t
    if x.rank = 0 then n
    else n + ((x.slice gang).map (elementShare rs die (widthOf x.fmt))).foldl (· + ·) 0) 0

/-- The die with the largest value, the lowest on a tie. -/
def largest (f : Nat → Nat) : Nat :=
  [1, 2, 3].foldl (fun b d => if f b < f d then d else b) 0

/-- The die of a gang: by its slices, else by the most free clusters (05 R85). -/
def State.dieFor (s : State) (ctx : Nat) (record : List Byte) (gang : Nat) : Nat :=
  let sums := four.map (s.dieSum ctx record gang)
  if sums.all fun n => n == 0 then largest fun d => (s.freeClusters d).length else largest fun d => sums.getD d 0

/-- The gangs of a launch, each sent to its die (05 R85). DESIGN CHOICE (log 99): all are sent in one step, before any of them is
placed. -/
def State.makeGangs (s : State) (l : Nat) (x : Launch) (i : Nat) : Nat → State
  | 0 => s
  | n + 1 =>
    let g : Gang := { Gang.none with
      launch := l, index := i, die := s.dieFor x.ctx x.record i, state := .waiting, order := x.order }
    ({ s with gangs := tput s.gangs s.nextId g, nextId := s.nextId + 1 }).makeGangs l x (i + 1) n

/-- The error record of a launch that is refused (05 R75): kind 8. -/
def State.launchRefused (s : State) (g n : Nat) : State :=
  let x := s.graph g
  let r := { ctxRecord s 8 x.ctx (linkDie x.link) 0 0 with launch := (x.node n).ident }
  (s.report r).nodeFail g n

/-- A node in the package ready pool: it takes its place in the order of entries when its predecessors have completed, by the number of
the step, and keeps it while its image is read (05 R86, 20 R336). -/
def Node.entered (y : Node) (tick : Nat) : Node := if y.order = 0 then { y with order := tick + 1 } else y

/-- A node whose predecessors have completed and which no launch has taken. -/
def Graph.nodeDue (x : Graph) (n : Nat) : Bool :=
  x.whole && decide (n < x.total) && x.readyNodes.contains n

/-- The first read of a launch image sees what the host has written before its packet: no line that a station has kept (20 R330). -/
def State.imageFresh (s : State) (x : Graph) (y : Node) : State := if y.log.isEmpty then s.dropLines (linkDie x.link) x.ctx else s

/-- NODE_READY (20 R335, R336): the image is read once, the launch judged (05 R75), and its gangs sent to their dies. -/
def State.nodeReady (s : State) (g n : Nat) : State :=
  let x := s.graph g
  let y := (x.node n).entered s.ticks
  if !x.nodeDue n then s
  else if !((s.context x.ctx).live && s.ctxLive x.ctx) then s.nodeFail g n
  else match (s.imageFresh x y).imageBlocks (.start y.log) x.ctx (linkDie x.link) (y.image % 2 ^ 60) 0 64 with
    | .wait t l => { t with graphs := tput t.graphs g (x.setNode n { y with log := l }) }
    | .ok t _ bs =>
      let r := recordOf (blockBytes bs) x.ctx y.ident
      if (bs.any fun b => b.got.isNone) || launchBad r then t.launchRefused g n
      else
        let l := t.nextId
        let k : Launch := { ctx := x.ctx, graph := g, node := n, ident := y.ident, ngang := field r 8 4, record := r,
                            order := y.order, left := field r 8 4, failed := false }
        let u := { t with
          nextId := l + 1, launches := tput t.launches l k, graphs := tput t.graphs g (x.setNode n { y with state := 1, log := [] }) }
        u.makeGangs l k 0 k.ngang

/-- The context of a gang, and its level (05 R87). -/
def State.gangCtx (s : State) (n : Nat) : Nat := (s.launch (s.gang n).launch).ctx

def State.gangLevel (s : State) (n : Nat) : Nat := (s.context (s.gangCtx n)).level

/-- The gangs ready on a die: waiting for a first placement, or saved (05 R86, R89). -/
def State.readyOn (s : State) (die : Nat) : List Nat :=
  (s.gangs.filter fun e => e.2.die == die && (e.2.state == .waiting || e.2.state == .saved)).map fun e => e.1

def sliceKey (die ctx : Nat) : Nat := die * 1024 + ctx

/-- A context's slice on a die is running (05 R88). DESIGN CHOICE (log 107): with the length that holds now, also where it was changed
since the slice began. -/
def State.inSlice (s : State) (die ctx : Nat) : Bool :=
  match s.slices.lookup (sliceKey die ctx) with
  | some t => s.dt < t + s.sliceLen
  | none => false

/-- A context whose slice on a die is running, or whose turn it is there: it waited when the slice of another ended, and its own begins
with its first placement (05 R88). -/
def State.favoured (s : State) (die ctx : Nat) : Bool := s.inSlice die ctx || s.turns.contains (sliceKey die ctx)

/-- The pool entry of a context's oldest gang ready on a die. -/
def State.oldest (s : State) (die ctx : Nat) : Nat :=
  ((s.readyOn die).filter fun n => s.gangCtx n == ctx).foldl (fun m n => min m (s.gang n).order) (2 ^ 64)

/-- The dispatcher's order (05 R86 to R88): the higher level; a context within its slice or at its turn; the context whose oldest gang entered
the pool first, then the lower identifier; the launch that entered first; the lower gang index. -/
def State.before (s : State) (die a b : Nat) : Bool :=
  let ca := s.gangCtx a
  let cb := s.gangCtx b
  let ka := [3 - s.gangLevel a, if s.favoured die ca then 0 else 1, s.oldest die ca, ca, (s.gang a).order, (s.gang a).index]
  let kb := [3 - s.gangLevel b, if s.favoured die cb then 0 else 1, s.oldest die cb, cb, (s.gang b).order, (s.gang b).index]
  decide (ka < kb)

/-- The gang that the dispatcher takes first. -/
def State.firstOn (s : State) (die : Nat) : Option Nat :=
  (s.readyOn die).foldl (fun m n => match m with
    | none => some n
    | some k => if s.before die n k then some n else some k) none

/-- Slot 0 of a core at kernel entry (02 R15). What the privileged copies and the trap registers hold there the spec does not say;
DESIGN CHOICE: zero, whatever an earlier gang left in the slot, unsafe (log 3). -/
def entrySlot (pc cycle : Nat) : Slot :=
  { Slot.reset with
    live := true, pc := BitVec.ofNat 64 pc, p := [(0, 0x3F000), (7, 0x35000)], readyAt := cycle + 1 }

/-- A core at kernel entry (02 R15, 13 R240, R247, 15 R271, 16 R297, 21 R355); its queues are empty (log 4). -/
def Core.enter (c : Core) (pc : Nat) : Core :=
  { c with
    slots := [(0, entrySlot pc c.cycle)], queues := [], ds := [], shape := [], acc := [], live := 0xFFFFF, done := false
    uses := [], array := none, damask := none, tbase := 0, tctl := 0, twr := 0, tdrop := 0, sample := 0, stepCnt := 0
    stepped := 0 }

/-- Zero the pieces of a core, but for its supervisor range (15 R285). -/
def State.clearPieces (s : State) (m : List Host.Cell) (g : Nat) : List Nat → List Host.Cell
  | [] => m
  | i :: is => s.clearPieces (s.loadPiece m g i none 1024) g is

/-- The launch record in L, but for blocks of the supervisor range (05 R72, 15 R272). -/
def State.putRecord (s : State) (m : List Host.Cell) (g : Nat) (record : List Byte) : Nat → List Host.Cell
  | 0 => m
  | n + 1 =>
    let off := 0x3F000 + 64 * n
    let m := s.putRecord m g record n
    if s.supervisor g off 64 then m else putRaw m (lKey g off) ((record.drop (64 * n)).take 64)

/-- The memory of a core at kernel entry: L, A and W zeroed after another context, C and the tiles zero, the launch record in
L (05 R72, 13 R240, R247, 15 R285). -/
def State.enterMem (s : State) (m : List Host.Cell) (g : Nat) (fresh : Bool) (record : List Byte) : List Host.Cell :=
  let m := if fresh then s.clearPieces m g (List.range 20) else m
  let m := mscrub (mscrub m (cKey g 0) 0x38000) (tileKey g 0) 0x8000
  s.putRecord m g record 64

def State.enterCores (s : State) (fresh : Bool) (record : List Byte) : List Nat → State
  | [] => s
  | g :: gs =>
    let t := { s with mem := s.enterMem s.mem g fresh record }
    ((if fresh then t.renewCore g (s.guardLo g) (s.guardHi g) else t.renewRecord g (s.guardLo g) (s.guardHi g)).setCore g ((s.core g).enter (field record 0 8))).enterCores
      fresh record gs

/-- The running gangs of a context on a die. -/
def State.runningOf (s : State) (die ctx : Nat) : List Nat :=
  (s.gangs.filter fun e => e.2.die == die && e.2.state == .running && s.gangCtx e.1 == ctx).map fun e => e.1

/-- Start a context's slice on a die at the placement of its first gang there (05 R88): none stands, or the one that stands is over and
no gang of the context runs there. One that is over while its gangs run ends by TIME_SLICE_EXPIRY alone. -/
def State.startSlice (s : State) (die ctx : Nat) : State :=
  if s.inSlice die ctx || (s.slices.lookup (sliceKey die ctx)).isSome && !(s.runningOf die ctx).isEmpty then s
  else { s with slices := tput s.slices (sliceKey die ctx) s.dt, turns := s.turns.filter fun k => k != sliceKey die ctx }

/-- Place a gang on a free cluster (05 R72, R86; 15 R285; 21 R342). -/
def State.placeOn (s : State) (n c : Nat) : State :=
  let x := s.gang n
  let l := s.launch x.launch
  let fresh := match (s.cluster c).lastCtx with
    | some p => p != l.ctx
    | none => false
  let s := (s.caughtUp (coresOf c)).enterCores fresh l.record (coresOf c)
  let s := s.setCluster c { Cluster.reset with gang := some n, lastCtx := some l.ctx }
  s.setGang n { x with state := .running, cluster := c, placed := s.dt }

/-- The gang of the lowest running level below p on a die: the one placed most recently, on a tie on the lowest cluster
(05 R87). -/
def State.victim (s : State) (die p : Nat) : Option Nat :=
  ((s.gangs.filter fun e => e.2.die == die && e.2.state == .running && decide (s.gangLevel e.1 < p)).map fun e => e.1).foldl
    (fun m n => match m with
      | none => some n
      | some k =>
        let kn := [s.gangLevel n, 2 ^ 64 - (s.gang n).placed, (s.gang n).cluster]
        let kk := [s.gangLevel k, 2 ^ 64 - (s.gang k).placed, (s.gang k).cluster]
        if kn < kk then some n else some k) none

/-- The clusters of a die that a pre-emption is vacating for a ready gang. -/
def State.vacating (s : State) (die : Nat) : Nat :=
  (s.gangs.filter fun e => e.2.die == die && (e.2.state == .halting || e.2.state == .saving) && !e.2.hold).length

/-- The gang to pre-empt for a ready gang of a higher level: one for each such gang that no cluster is being vacated for
(05 R87). -/
def State.toPreempt (s : State) (die : Nat) : Option Nat :=
  match s.firstOn die with
  | none => none
  | some n =>
    match s.victim die (s.gangLevel n) with
    | none => none
    | some v =>
      let higher := (s.readyOn die).filter fun m => decide (s.gangLevel v < s.gangLevel m)
      if s.vacating die < higher.length && (s.imageAt (s.gangCtx v)).isSome then some v else none

/-- GANG_PLACE (05 R86, R87): the first ready gang takes the lowest free cluster, placed or restored; with none free, a gang
of a lower level gives way. -/
def State.dispatch (s : State) (die : Nat) : State :=
  match s.firstOn die, s.freeClusters die with
  | some n, c :: _ =>
    let s := s.startSlice die (s.gangCtx n)
    if (s.gang n).state = .saved then s.restoreOn n c else s.placeOn n c
  | some _, [] =>
    match s.toPreempt die with
    | some v => s.preempt v 0 false
    | none => s
  | none, _ => s

/-- Whether the dispatcher of a die has something to do. -/
def State.dispatchDue (s : State) (die : Nat) : Bool :=
  (s.firstOn die).isSome && (!(s.freeClusters die).isEmpty || (s.toPreempt die).isSome)

def State.preemptAll (s : State) (reason : Nat) : List Nat → State
  | [] => s
  | n :: ns => (s.preempt n reason false).preemptAll reason ns

/-- The context of another than ctx, of its level, that waits on the die and comes first (05 R88). -/
def State.firstRival (s : State) (die ctx : Nat) : Option Nat :=
  let rivals := (s.readyOn die).filter fun n => s.gangCtx n != ctx && s.gangLevel n == (s.context ctx).level
  (rivals.foldl (fun m n => match m with
    | none => some n
    | some k => if s.before die n k then some n else some k) none).map s.gangCtx

/-- TIME_SLICE_EXPIRY (05 R88): the running gangs of the context give way to a waiting context of its level, whose turn it is then and
whose slice begins when its first gang is placed; when none waits the slice starts again. A slice of a context with no gang on the die just ends. -/
def State.sliceEnd (s : State) (die ctx : Nat) : State :=
  match s.slices.lookup (sliceKey die ctx) with
  | none => s
  | some t =>
    if s.dt < t + s.sliceLen then s
    else
      let mine := s.runningOf die ctx
      let ended := { s with slices := tdel s.slices (sliceKey die ctx) }
      if mine.isEmpty then ended
      else match s.firstRival die ctx with
      | some r => { ended with turns := sliceKey die r :: s.turns.filter fun k => k != sliceKey die r }.preemptAll 1 mine
      | none => { s with slices := tput s.slices (sliceKey die ctx) s.dt }

/-- NODE_READY (20 R336). -/
def execNodeReady (graph node : Nat) (s : State) : Host.Outcome State Fault Refusal := .next (s.nodeReady graph node)

/-- GANG_PLACE (05 R86). -/
def execGangPlace (die : Nat) (s : State) : Host.Outcome State Fault Refusal :=
  if die < 4 then .next (s.dispatch die) else .fault .noSuchUnit

/-- GANG_RESTORE (05 R88, 15 R285): to the lowest free cluster of its die (05 R86). -/
def execGangRestore (gang : Nat) (s : State) : Host.Outcome State Fault Refusal :=
  .next (match (if (s.gang gang).state = .saved then (s.freeClusters (s.gang gang).die).head? else none) with
    | some c => (s.startSlice (s.gang gang).die (s.gangCtx gang)).restoreOn gang c
    | none => s)

/-- TIME_SLICE_EXPIRY (05 R88). -/
def execTimeSliceExpiry (die ctx : Nat) (s : State) : Host.Outcome State Fault Refusal :=
  if die < 4 ∧ ctx < 1024 then .next (s.sliceEnd die ctx) else .fault .noSuchUnit

end Sys2Proof.Machine
end

