-- ==== Sys2Proof/Machine/Queues.lean ====
section
/-!
DEFINITION. BAR0, the command queues and the completion rings of a link (20 R326 to R331, R334).
-/
namespace Sys2Proof.Machine

def Link.queue (l : Link) (q : Nat) : HostQueue := tget .reset l.queues q

def State.hq (s : State) (link q : Nat) : HostQueue := (s.link link).queue q

def State.setHq (s : State) (link q : Nat) (x : HostQueue) : State :=
  s.setLink link { s.link link with queues := tput (s.link link).queues q x }

/-- Device memory as the host and the front end reach it, untranslated: bytes beyond it read all ones and take no write (20 R341).
-/
def State.readDevice (s : State) (pa : Nat) : Nat → List Byte
  | 0 => []
  | n + 1 => (if pa < hbmSize then mget s.mem pa else 255) :: s.readDevice (pa + 1) n

def writeDevice (m : List Host.Cell) (pa : Nat) : List Byte → List Host.Cell
  | [] => m
  | b :: bs => writeDevice (if pa < hbmSize then mput m pa b else m) (pa + 1) bs

/-- The fields of qctl (20 R327). -/
def HostQueue.enabled (x : HostQueue) : Bool := x.qctl.getLsbD 4

def HostQueue.units (x : HostQueue) : Nat := 2 ^ (min (x.qctl.toNat % 16) 9 + 6)

def HostQueue.ring (x : HostQueue) : Nat := 2 ^ (x.qctl.toNat / 256 % 16 + 4)

def HostQueue.interval (x : HostQueue) : Nat := if x.qctl.getLsbD 5 then 16000 else 1000

/-- The completion ring is full (20 R334). -/
def HostQueue.full (x : HostQueue) : Bool := (x.ctail + 2 ^ 32 - x.chead) % 2 ^ 32 == x.ring

/-- n bytes of a queue from a byte offset within it; bit 63 of qbase chooses the memory (20 R326). -/
def State.queueBytes (s : State) (link : Nat) (x : HostQueue) (off n : Nat) : List Byte :=
  let base := x.qbase.toNat % 2 ^ 63 + off
  if x.qbase.getLsbD 63 then s.readDevice base n else mgets s.mem (hostKey link base) n

/-- The read of some units of a queue meets the errors of device memory, for no context (09 R191; log 92). -/
def State.senseUnits (s : State) (x : HostQueue) : List Nat → State
  | [] => s
  | u :: us => (if x.qbase.getLsbD 63 then s.sense 1024 (x.qbase.toNat % 2 ^ 63 + 64 * u) 64 else s).senseUnits x us

def State.zeroUnit (s : State) (link : Nat) (x : HostQueue) (unit : Nat) : State :=
  let base := x.qbase.toNat % 2 ^ 63 + 64 * unit
  if x.qbase.getLsbD 63 then { s with mem := writeDevice s.mem base (List.replicate 64 0) }
  else { s with mem := mputs s.mem (hostKey link base) (List.replicate 64 0) }

def State.zeroUnits (s : State) (link : Nat) (x : HostQueue) : List Nat → State
  | [] => s
  | u :: us => (s.zeroUnit link x u).zeroUnits link x us

/-- The units of a packet of n units from the read position, wrapping (20 R328). -/
def HostQueue.span (x : HostQueue) (n : Nat) : List Nat := (List.range n).map fun i => (x.qread + i) % x.units

/-- A header the front end takes up (20 R328, R331). -/
def HostQueue.headerOk (x : HostQueue) (h : List Byte) : Bool :=
  field h 4 2 == x.expect && 1 ≤ field h 0 1 && field h 0 1 ≤ 10 && 1 ≤ field h 2 2 && field h 2 2 ≤ 64 &&
  field h 1 1 < 2 && field h 6 2 < 1024

/-- A packet's CRC holds (20 R328). -/
def packetCrc (bs : List Byte) : Bool := crc32c (bs.take (bs.length - 4)) == field bs (bs.length - 4) 4

/-- The context of a packet is granted through its link and live (20 R329). -/
def State.ctxThrough (s : State) (link ctx : Nat) : Bool :=
  (s.context ctx).live && (s.context ctx).link == link && s.ctxLive ctx

/-- A packet that takes a timeline number as it is accepted: a copy, and the last packet of a graph (20 R332). -/
def takesNumber (kind : Nat) (bs : List Byte) : Bool := kind == 6 || (kind == 5 && field bs 0x17 1 % 2 == 1)

/-- Accept a packet: its number, if it takes one, and a place behind the queue's accepted packets. -/
def State.acceptPacket (s : State) (link q : Nat) (bs : List Byte) : State :=
  let kind := field bs 0 1
  let ctx := field bs 6 2
  let n := if takesNumber kind bs && s.ctxThrough link ctx then (s.context ctx).tlGiven + 1 else 0
  let p : Packet := { link := link, q := q, kind := kind, fence := field bs 1 1 == 1, seq := field bs 4 2, ctx := ctx,
                      tag := BitVec.ofNat 64 (field bs 8 8), body := bs, tl := n, at_ := 0 }
  let s := if n = 0 then s else s.setContext ctx { s.context ctx with tlGiven := n }
  s.setHq link q { s.hq link q with accepted := (s.hq link q).accepted ++ [p] }

/-- A signal wait of the queue has started and not ended (20 R329). -/
def State.heldQueue (s : State) (link q : Nat) : Bool :=
  s.started.any fun e => e.2.link == link && e.2.q == q && e.2.kind == 8

/-- Earlier packets of the queue that have not completed. -/
def State.running (s : State) (link q : Nat) : Bool :=
  (s.started.any fun e => e.2.link == link && e.2.q == q) || s.finished.any fun c => c.link == link && c.q == q

/-- The first accepted packet of a queue may start (20 R327, R329, R334). -/
def State.mayStart (s : State) (link q : Nat) (p : Packet) : Bool :=
  let x := s.hq link q
  x.enabled && !x.full && !s.heldQueue link q && !(p.fence && s.running link q)

/-- Start the accepted packets of a queue in order, until one must wait. -/
def State.startPackets (s : State) (link q : Nat) : Nat → State
  | 0 => s
  | n + 1 =>
    let x := s.hq link q
    match x.accepted with
    | [] => s
    | p :: ps =>
      if s.mayStart link q p then
        let k := s.nextId
        let t := s.setHq link q { x with accepted := ps }
        ({ t with nextId := k + 1, started := tput t.started k { p with at_ := s.dt } }.later (.packet k)).startPackets link q n
      else s

def State.startAll (s : State) (link q : Nat) : State := s.startPackets link q (s.hq link q).accepted.length

/-- Read the queue's header, and every packet that stands there whole (20 R328). -/
def State.readQueue (s : State) (link q : Nat) : Nat → State
  | 0 => s
  | fuel + 1 =>
    let x := { s.hq link q with polled := s.dt }
    let s := (s.setHq link q x).senseUnits x [x.qread % x.units]
    let h := s.queueBytes link x (64 * (x.qread % x.units)) 16
    if !x.enabled || !x.headerOk h then s
    else
      let us := x.span (field h 2 2)
      let s := s.senseUnits x us
      let bs := us.flatMap fun u => s.queueBytes link x (64 * u) 64
      if !packetCrc bs then s.setHq link q { x with crcBad := true }
      else
        let y := { x with crcBad := false, qread := (x.qread + us.length) % 2 ^ 32, expect := (x.expect + 1) % 2 ^ 16 }
        let t := ((s.zeroUnits link x us).setHq link q y).acceptPacket link q bs
        (t.startAll link q).readQueue link q fuel

/-- Read as many packets as the queue can hold. -/
def State.readAll (s : State) (link q : Nat) : State := s.readQueue link q ((s.hq link q).units + 1)

/-- The queue is due for its next read (20 R328). -/
def State.pollDue (s : State) (link q : Nat) : Bool :=
  let x := s.hq link q
  x.enabled && x.polled + x.interval ≤ s.dt

/-- A write to qctl (20 R327): while en is 1, only en changes; en from 0 to 1 sets the queue anew. -/
def HostQueue.control (x : HostQueue) (v : Word) (dt : Nat) : HostQueue :=
  let w : Word := v &&& 0xFFFF0F3F#64
  if x.enabled then { x with qctl := (x.qctl &&& ~~~16#64) ||| (w &&& 16#64) }
  else if w.getLsbD 4 then
    { x with qctl := w, qread := 0, expect := w.toNat / 2 ^ 16 % 2 ^ 16, ctail := 0, crcBad := false, polled := dt }
  else { x with qctl := w }

/-- The MSI-X message of a queue: it covers every entry written before it (20 R334). -/
def State.fireMsix (s : State) (link q : Nat) : State :=
  let x := s.hq link q
  (s.setHq link q { x with pending := 0 }).emit (.msix link (x.msix.toNat % 2048))

def HostQueue.threshold (x : HostQueue) : Nat := if x.coal.toNat % 256 = 0 then 1 else x.coal.toNat % 256

def HostQueue.cap (x : HostQueue) : Nat := min (x.coal.toNat / 65536 % 65536) 64000

/-- An entry of the completion ring (20 R334): its phase is 1 on the first lap and inverted on each later one. -/
def entryBytes (c : Completion) (phase : Nat) : List Byte :=
  leBytes 8 c.tag.toNat ++ leBytes 8 c.result.toNat ++ leBytes 2 c.seq ++ leBytes 1 c.kind ++ leBytes 1 c.status ++
  leBytes 4 c.detail ++ leBytes 4 c.tl ++ leBytes 4 phase

/-- COMPLETION_ENTRY_WRITE (20 R334): the queue's oldest completed packet, if its ring has room. -/
def State.writeEntry (s : State) (link q : Nat) : State :=
  let x := s.hq link q
  match s.finished.find? fun c => c.link == link && c.q == q with
  | none => s
  | some c =>
    if x.full then s
    else
      let at_ := x.cbase.toNat + 32 * (x.ctail % x.ring)
      let phase := 1 - x.ctail / x.ring % 2
      let t := { s with finished := s.finished.erase c, mem := mputs s.mem (hostKey link at_) (entryBytes c phase) }
      let y := { x with
        ctail := (x.ctail + 1) % 2 ^ 32, pending := x.pending + 1, since := if x.pending = 0 then s.dt else x.since }
      let t := t.setHq link q y
      (if y.threshold ≤ y.pending then t.fireMsix link q else t).startAll link q

/-- The host moves chead (20 R334). -/
def State.headWrite (s : State) (link q : Nat) (v : Word) : State :=
  (s.setHq link q { s.hq link q with chead := v.toNat % 2 ^ 32 }).startAll link q

/-- MSIX_COALESCE_TIMEOUT (20 R334). -/
def State.msixTimeout (s : State) (link q : Nat) : State :=
  let x := s.hq link q
  if x.pending ≠ 0 ∧ x.since + x.cap ≤ s.dt then s.fireMsix link q else s

/-- A write to a register of queue q at offset r of its block (20 R326). -/
def State.queueWrite (s : State) (link q r : Nat) (v : Word) : State :=
  let x := s.hq link q
  if r = 0 then s.setHq link q { x with qbase := v }
  else if r = 0x08 then
    let y := x.control v s.dt
    let t := s.setHq link q y
    if y.enabled ∧ !x.enabled then (t.startAll link q).readAll link q else t
  else if r = 0x18 then s.readAll link q
  else if r = 0x20 then s.setHq link q { x with cbase := v }
  else if r = 0x28 then s.headWrite link q v
  else if r = 0x38 then s.setHq link q { x with coal := v &&& 0xFFFF00FF#64 }
  else if r = 0x40 then s.setHq link q { x with msix := v &&& 0x7FF#64 }
  else s

/-- A write to BAR0 (20 R326): offsets that the table does not assign, and read-only registers, take no write. -/
def State.bar0Write (s : State) (link off : Nat) (v : Word) : State :=
  let l := s.link link
  if off = 0x40 then s.setLink link { l with ebase := v }
  else if off = 0x48 then s.setLink link { l with ectl := v &&& 0xFFFFF#64 }
  else if off = 0x58 then s.setLink link { l with erd := v.toNat }
  else if off = 0x80 then s.setLink link { l with bar2win := v }
  else if 0x100000 ≤ off ∧ off < 0x104000 then s.queueWrite link ((off - 0x100000) / 0x100) (off % 0x100) v
  else s

/-- qstat (20 R326). -/
def State.qstat (s : State) (link q : Nat) : Nat :=
  let x := s.hq link q
  (if x.enabled then 1 else 0) + (if x.crcBad then 2 else 0) + (if x.full then 4 else 0) +
    (if s.heldQueue link q then 8 else 0) + x.expect * 65536

/-- What a read of BAR0 returns (20 R326). -/
def State.bar0Value (s : State) (link off : Nat) : Nat :=
  let l := s.link link
  if off = 0 then Config.serial.toNat % 2 ^ 32 * 2 ^ 32 + (if s.bootBad then 256 else 0) + link
  else if off = 0x08 then s.dt
  else if off = 0x40 then l.ebase.toNat
  else if off = 0x48 then l.ectl.toNat
  else if off = 0x50 then l.ewr
  else if off = 0x58 then l.erd
  else if off = 0x60 then l.eovf
  else if off = 0x80 then l.bar2win.toNat
  else if 0x100000 ≤ off ∧ off < 0x104000 then
    let q := (off - 0x100000) / 0x100
    let x := l.queue q
    let r := off % 0x100
    if r = 0 then x.qbase.toNat
    else if r = 0x08 then x.qctl.toNat
    else if r = 0x10 then x.qread
    else if r = 0x20 then x.cbase.toNat
    else if r = 0x28 then x.chead
    else if r = 0x30 then x.ctail
    else if r = 0x38 then x.coal.toNat
    else if r = 0x40 then x.msix.toNat
    else if r = 0x48 then s.qstat link q
    else 0
  else 0

/-- A read of BAR0: 64 bits (20 R326; log 100). -/
def State.bar0Read (s : State) (link off : Nat) : Nat := s.bar0Value link off % 2 ^ 64

/-- A link and a queue that exist (01 R10, 20 R326). -/
def queueExists (link q : Nat) : Bool := link < 2 && q < 64

/-- QUEUE_KICK (20 R328): the header is read now. -/
def execQueueKick (link q : Nat) (s : State) : Host.Outcome State Fault Refusal :=
  if queueExists link q then .next (s.queueWrite link q 0x18 0) else .fault .noSuchUnit

/-- QUEUE_POLL (20 R328): a poll interval after the last read. -/
def execQueuePoll (link q : Nat) (s : State) : Host.Outcome State Fault Refusal :=
  if queueExists link q then .next (if s.pollDue link q then s.readAll link q else s) else .fault .noSuchUnit

/-- QUEUE_ENABLE (20 R327): a write to qctl with en set. -/
def execQueueEnable (link q : Nat) (v : Word) (s : State) : Host.Outcome State Fault Refusal :=
  if queueExists link q then .next (s.queueWrite link q 0x08 (v ||| 16#64)) else .fault .noSuchUnit

/-- QUEUE_DISABLE (20 R327): a write to qctl with en clear, of an enabled queue. -/
def execQueueDisable (link q : Nat) (s : State) : Host.Outcome State Fault Refusal :=
  if queueExists link q then .next (s.queueWrite link q 0x08 ((s.hq link q).qctl &&& ~~~16#64)) else .fault .noSuchUnit

/-- COMPLETION_HEAD_WRITE (20 R334). -/
def execCompletionHeadWrite (link q : Nat) (v : Word) (s : State) : Host.Outcome State Fault Refusal :=
  if queueExists link q then .next (s.headWrite link q v) else .fault .noSuchUnit

/-- BAR0_REGISTER_WRITE (20 R326). -/
def execBar0RegisterWrite (link off : Nat) (v : Word) (s : State) : Host.Outcome State Fault Refusal :=
  if link < 2 then .next (s.bar0Write link off v) else .fault .noSuchUnit

/-- COMPLETION_ENTRY_WRITE (20 R334). -/
def execCompletionEntryWrite (link q : Nat) (s : State) : Host.Outcome State Fault Refusal :=
  if queueExists link q then .next (s.writeEntry link q) else .fault .noSuchUnit

/-- MSIX_COALESCE_TIMEOUT (20 R334). -/
def execMsixCoalesceTimeout (link q : Nat) (s : State) : Host.Outcome State Fault Refusal :=
  if queueExists link q then .next (s.msixTimeout link q) else .fault .noSuchUnit

end Sys2Proof.Machine
end

