-- ==== Sys2Proof/Machine/Packets.lean ====
section
/-!
DEFINITION. The packets of 20 R332 to R336, but for firmware calls: contexts, memory grants, launch graphs, copies, signals,
and the host's holds.
-/
namespace Sys2Proof.Machine

/-- Bytes from an offset to the CRC are zero (20 R331). -/
def zeroFrom (bs : List Byte) (off : Nat) : Bool :=
  off ≤ bs.length - 4 && ((bs.take (bs.length - 4)).drop off).all fun b => b == 0

/-- Bytes from an offset up to another are zero. -/
def zeroSpan (bs : List Byte) (off til : Nat) : Bool := ((bs.take til).drop off).all fun b => b == 0

/-- The function number of a firmware call. -/
def Packet.fn (p : Packet) : Nat := field p.body 0x10 8

/-- In boot status 1 the front end accepts only firmware calls of function 7 (20 R339); they need no context then, since none
can be granted. -/
def State.recovery (s : State) (p : Packet) : Bool := s.bootBad && !(p.kind == 9 && p.fn == 7)

/-- A packet that needs no context: a grant; the firmware call of recovery; and a load of route tables that would join the chip to its
domain, before any context exists or refused for one with status 2 (20 R329, R339, 23 R383). -/
def State.contextFree (s : State) (p : Packet) : Bool :=
  p.kind == 1 || s.bootBad || (p.kind == 9 && p.fn == 4 && !s.joined)

/-- Run a started packet of a kind: refused in recovery, or without its context (20 R329, R339); else by the meaning given. -/
def State.withPacket (s : State) (k kind : Nat) (mine : Packet → Bool) (run : Packet → State) : State :=
  match s.started.lookup k with
  | none => s
  | some p =>
    if p.kind ≠ kind ∨ !mine p then s
    else if s.recovery p then s.finishPacket k 0 2 0
    else if !s.contextFree p ∧ !s.ctxThrough p.link p.ctx then s.finishPacket k 0 3 0
    else run p

def anyPacket (_ : Packet) : Bool := true

/-- A number of records a queue may have (20 R333). -/
def ringSizeOk (n : Nat) : Bool := 64 ≤ n && n ≤ 65536 && n &&& (n - 1) == 0

/-- The body of a context grant holds what 20 R333 asks; a save area beyond device memory counts as malformed (log 19). -/
def grantBodyOk (b : List Byte) : Bool :=
  zeroFrom b 0x62 && zeroSpan b 0x19 0x20 && 1 ≤ field b 0x10 8 && field b 0x10 8 ≤ maxLease 1 && field b 0x18 1 < 4 &&
  field b 0x38 8 % 4096 == 0 && field b 0x48 8 % 4096 == 0 && field b 0x50 8 % 4096 == 0 &&
  ringSizeOk (field b 0x40 4) && ringSizeOk (field b 0x44 4) && imageMax ≤ field b 0x58 8 &&
  field b 0x50 8 + field b 0x58 8 ≤ hbmSize

/-- A context identifier is free: its context is over, and so are its leases, here and on other chips, and its gangs with their
images (20 R333). -/
def State.identFree (s : State) (link c : Nat) : Bool :=
  !(s.context c).live && !(s.leases.any fun e => e.2.owner == c && e.2.inUse && s.leaseLive e.2) &&
  !(s.paths.any fun p => p.owner == c && hChip p.h != s.chip && !p.gone && s.dt < p.ed + 200) &&
  !(s.away.any fun a => a.ctx == c && s.dt < a.e) && (s.gangsOf c).isEmpty && (s.lease (ctxUnit link) c).gen < 0xFFFF

def State.lowestIdent (s : State) (link : Nat) : Option Nat := (List.range 1024).find? (s.identFree link)

/-- Leases of an earlier bearer of an identifier that have reached their expiry are settled before it is taken anew. -/
def State.settleOwner (s : State) (c : Nat) : List (Nat × Lease) → State
  | [] => s
  | e :: es => (if e.2.owner == c then s.lapse (e.1 / 2 ^ 20) (e.1 % 2 ^ 20) else s).settleOwner c es

def QuantEngine.clearOf (c : Nat) (q : QuantEngine) : QuantEngine :=
  { q with tickets := tdel q.tickets c, tline := tdel q.tline c, bad := tdel q.bad c }

/-- The entries of an earlier bearer: those whose pages still await their scrub stay under a number that no context has. -/
def State.retireEntry (s : State) (c : Nat) (e : PageEntry) : Option PageEntry :=
  if e.ctx ≠ c then some e
  else if (tget Lease.unused s.leases e.lease).gen = e.gen ∧ (tget Lease.unused s.leases e.lease).unscrubbed = true then
    some { e with ctx := c + 1024 }
  else none

def Cluster.forget (c : Nat) (x : Cluster) : Cluster := if x.lastCtx = some c then { x with lastCtx := some 1024 } else x

/-- Nothing of an earlier bearer of an identifier shows in the new context. -/
def State.freshIdent (s : State) (c : Nat) : State :=
  let t := s.settleOwner c s.leases
  { t with
    entries := t.entries.filterMap (t.retireEntry c)
    cached := t.cached.filter fun x => x.ctx != c
    counted := t.counted.filter fun x => x.1 != c
    migrations := t.migrations.filter fun x => x.1 != c
    quant := t.quant.map fun e => (e.1, e.2.clearOf c)
    graphs := t.graphs.filter fun e => e.2.ctx != c
    slices := t.slices.filter fun e => e.1 % 1024 != c
    turns := t.turns.filter fun k => k % 1024 != c
    clusters := t.clusters.map fun e => (e.1, e.2.forget c) }

/-- CONTEXT_GRANT (20 R333). -/
def State.grantContext (s : State) (k : Nat) (p : Packet) : State :=
  let b := p.body
  if !grantBodyOk b then s.finishPacket k 0 2 0
  else match s.lowestIdent p.link with
    | none => s.finishPacket k 0 1 0
    | some c =>
      let s := s.freshIdent c
      let e := s.dt + field b 0x10 8
      let g := (s.lease (ctxUnit p.link) c).gen + 1
      let s := s.setLease (ctxUnit p.link) c
        { cls := 1, gen := g, e := e, anchored := false, owner := c, inUse := true, data := .none }
      let x : Context :=
        { live := true, level := field b 0x18 1, link := p.link
          quota := (List.range 6).map fun i => (i, field b (0x20 + 4 * i) 4)
          fq := { HostRing.empty with base := field b 0x38 8, size := field b 0x40 4 }
          nq := { HostRing.empty with base := field b 0x48 8, size := field b 0x44 4 }
          vector := field b 0x60 2, saveBase := field b 0x50 8, saveSize := field b 0x58 8, tlGiven := 0, tlDone := [] }
      ({ s with everCtx := true }.setContext c x).finishPacket k (mkHandle g 1 (linkDie p.link) s.chip c) 0 0

/-- The packet's handle names the context of its header (20 R332). -/
def State.namesCtx (s : State) (p : Packet) : Bool :=
  field p.body 0x10 8 == (mkHandle (s.ctxLease p.ctx).gen 1 (linkDie p.link) s.chip p.ctx).toNat

/-- CONTEXT_RENEW (20 R332). -/
def State.renewContext (s : State) (k : Nat) (p : Packet) : State :=
  if !zeroFrom p.body 0x20 then s.finishPacket k 0 2 0
  else if !s.namesCtx p then s.finishPacket k 0 3 0
  else
    let l := s.ctxLease p.ctx
    let e := max l.e (s.dt + min (field p.body 0x18 8) (maxLease 1))
    (s.setLease (ctxUnit p.link) p.ctx { l with e := e }).finishPacket k (BitVec.ofNat 64 (e - s.dt)) 0 0

/-- CONTEXT_END (20 R332): an error record of kind 9, and the revocation. -/
def State.contextEnd (s : State) (k : Nat) (p : Packet) : State :=
  if !zeroFrom p.body 0x18 then s.finishPacket k 0 2 0
  else if !s.namesCtx p then s.finishPacket k 0 3 0
  else
    let r := ctxRecord s 9 p.ctx (linkDie p.link) (BitVec.ofNat 64 (field p.body 0x10 8)) 0
    ((s.report r).revoke p.ctx).finishPacket k 0 0 0

/-- A template that is refused, for n pages of a size code from the template's frame (20 R333, 09 R168); op 0 in mode 1 does not
look at the frame. -/
def State.templateBad (s : State) (w : Word) (code n : Nat) (useFrame : Bool) : Bool :=
  let f := if useFrame then pteFrame w else 0
  let last := f + (n - 1) * (sizeOfCode code / 4096)
  5 ≤ pteMode w || pteWb w || ptePinned w || 2 ^ 34 ≤ last || s.pteBad (templatePte w f code false) ||
    s.pteBad (templatePte w last code false)

/-- MEMORY_GRANT_NEW (20 R333): as grant 2 for the context of the header, with a template. -/
def State.memoryNew (s : State) (k : Nat) (p : Packet) : State :=
  let b := p.body
  let d := field b 0x18 8
  let w0 : Word := BitVec.ofNat 64 (field b 0x20 8)
  let w1 : Word := BitVec.ofNat 64 (field b 0x28 8)
  let tpl : Word := BitVec.ofNat 64 (field b 0x30 8)
  let code := w1.toNat / 2 ^ 40 % 4
  if !zeroFrom b 0x38 || !zeroSpan b 0x12 0x18 || 2 ≤ field b 0x11 1 || d == 0 || grantBad 2 w0 w1 ||
      s.templateBad tpl code (if pteMode tpl = 1 then 1 else w1.toNat % 2 ^ 40 / sizeOfCode code) (pteMode tpl != 1) then
    s.finishPacket k 0 2 0
  else if s.quotaLeft p.ctx 2 < grantUnits 2 w1 then s.finishPacket k 0 1 0
  else
    let none_ : HomeRep := { id := 0, ctx := p.ctx, chip := s.chip, queued := false, h := 0, a := 0, f := false, e := 0,
                             fault := none, size := 0, owner := 0 }
    let r := s.grantRange none_ p.ctx (min d (maxLease 2)) w0 w1 tpl
    if r.2.f then s.finishPacket k 0 (if r.2.a = 5 then 9 else 1) 0
    else
      let l := r.1.record r.2.a
      (r.1.setRecord r.2.a { l with anchored := field b 0x11 1 == 1 }).finishPacket k r.2.a 0 0

/-- A frame of this chip that an entry of mode 1 gives up is scrubbed with its range (06 R100). -/
def State.dirtied (s : State) (old : PageEntry) (pte : Word) : List Dirty :=
  if pteMode old.pte == 1 && ptePeer old.pte == s.chip && !(pteMode pte == 1 && pteFrame pte == pteFrame old.pte) then
    [{ lease := old.lease, gen := old.gen, pa := pteFrame old.pte * 4096, size := pteSize old.pte }]
  else []

/-- Rewrite one page's entry; a pinned page stays pinned until its pins end (16 R316). -/
def State.changePage (s : State) (ctx key gen va : Nat) (pte : Word) : State :=
  let hit := fun e : PageEntry => e.ctx == ctx && e.lease == key && e.gen == gen && e.va == va
  let put := fun e : PageEntry =>
    if hit e then { e with pte := if ptePinned e.pte then pte ||| (1#64 <<< 46) else pte } else e
  ({ s with entries := s.entries.map put, dirty := s.dirty ++ (s.entries.filter hit).flatMap fun e => s.dirtied e pte }).entryChanged
    ctx va (pteSize pte)

def State.changePages (s : State) (ctx key gen va : Nat) (tpl : Word) (frame code : Nat) (striped : Bool) : Nat → State
  | 0 => s
  | n + 1 =>
    let page := sizeOfCode code
    (s.changePages ctx key gen va tpl frame code striped n).changePage ctx key gen (va + n * page)
      (templatePte tpl (frame + n * (page / 4096)) code striped)

/-- MEMORY_GRANT_CHANGE (20 R333): the entries of existing pages; any other op is malformed. -/
def State.memoryChange (s : State) (k : Nat) (p : Packet) : State :=
  let b := p.body
  let h : Word := BitVec.ofNat 64 (field b 0x20 8)
  let w1 := field b 0x28 8
  let tpl : Word := BitVec.ofNat 64 (field b 0x30 8)
  if field b 0x10 1 ≠ 1 ∨ !zeroFrom b 0x38 ∨ !zeroSpan b 0x11 0x20 then s.finishPacket k 0 2 0
  else if hChip h ≠ s.chip ∨ !s.rangeLive h ∨ (s.record h).owner ≠ p.ctx then s.finishPacket k 0 3 0
  else match (s.record h).data with
    | .range va size code striped =>
      let first := w1 % 2 ^ 32
      let n := w1 / 2 ^ 32
      if size / sizeOfCode code < first + n ∨ s.templateBad tpl code n true then s.finishPacket k 0 2 0
      else
        let key := leaseKey (unitOf 2 (hDie h)) (hIndex h)
        (s.changePages p.ctx key (hGen h) (va + first * sizeOfCode code) tpl (pteFrame tpl) code striped n).finishPacket k h 0 0
    | _ => s.finishPacket k 0 3 0

/-- One node record (20 R335), for the node of index i; none where it breaks its layout. -/
def nodeOf (r : List Byte) (i : Nat) : Option Node :=
  let n := field r 0x10 1
  let preds := (List.range n).map fun j => field r (0x12 + 2 * j) 2
  if 7 < n ∨ field r 0 8 / 2 ^ 60 ≠ 8 ∨ field r 0 8 % 4096 ≠ 0 ∨ (preds.any fun q => decide (i ≤ q)) = true ∨
      field r 0x11 1 ≠ 0 ∨ !zeroSpan r (0x12 + 2 * n) 0x20 then none
  else some { image := field r 0 8, ident := BitVec.ofNat 64 (field r 8 8), preds := preds.eraseDups, state := 0, order := 0, log := [] }

/-- The nodes of a packet, from index i on. -/
def nodesOf (b : List Byte) (off i : Nat) : Nat → Option (List (Nat × Node))
  | 0 => some []
  | n + 1 => do
    let x ← nodeOf ((b.drop off).take 32) i
    let r ← nodesOf b (off + 32) (i + 1) n
    some ((i, x) :: r)

/-- The unfinished graph of a context under a number, and where it stands in the table: its packets stand in one queue, so one that
comes in another shows a breach (20 R335). -/
def State.openGraph (s : State) (p : Packet) (number : Nat) : Option (Nat × Graph) :=
  s.graphs.find? fun e => !e.2.whole && e.2.ctx == p.ctx && e.2.number == number

def State.graphBreach (s : State) (k : Nat) (p : Packet) (number : Nat) : State :=
  let t := match s.openGraph p number with
    | some (g, _) => { s with graphs := tdel s.graphs g }
    | none => s
  (t.tlDone p.ctx p.tl).finishPacket k 0 2 0

def Graph.addNodes (x : Graph) : List (Nat × Node) → Graph
  | [] => x
  | e :: es => (x.setNode e.1 e.2).addNodes es

/-- LAUNCH_GRAPH (20 R335): in ascending order without gap; a breach discards the graph. With its last packet accepted, the
nodes without predecessors are ready. -/
def State.launchGraph (s : State) (k : Nat) (p : Packet) : State :=
  let b := p.body
  let number := field b 0x10 4
  let first := field b 0x14 2
  let n := field b 0x16 1
  let last := field b 0x17 1
  let total := field b 0x18 2
  let old := (s.openGraph p number).getD (s.nextId,
    { ctx := p.ctx, link := p.link, q := p.q, number := number, total := total, nodes := [], packet := none, whole := false })
  if n = 0 ∨ 16 < n ∨ 1 < last ∨ total = 0 ∨ 256 < total ∨ total < first + n ∨ !zeroSpan b 0x1A 0x20 ∨ !zeroFrom b (0x20 + 32 * n) ∨
      old.2.link ≠ p.link ∨ old.2.q ≠ p.q ∨ old.2.total ≠ total ∨ old.2.nodes.length ≠ first ∨ decide (last = 1) ≠ decide (first + n = total) then
    s.graphBreach k p number
  else match nodesOf b 0x20 first n with
    | none => s.graphBreach k p number
    | some ns =>
      let x := { old.2.addNodes ns with whole := last = 1, packet := if last = 1 then some k else none }
      let t := { s with nextId := max s.nextId (old.1 + 1), graphs := tput s.graphs old.1 x }
      if last = 1 then t.laterAll (x.readyNodes.map (Due.nodeReady old.1)) else t.finishPacket k 0 0 0

/-- The engine of a copy packet: by its source, as for a slot of the link's die (09 R177). -/
def State.packetEngine (s : State) (link ctx src : Nat) : Nat := s.engineFor (256 * linkDie link) ctx src

/-- Copy packet k has its copy, or its descriptor is with another chip's engine, unanswered (09 R177). -/
def State.placed (s : State) (k : Nat) : Bool :=
  (s.copies.any fun e => e.2.packet == some k) || s.remote.any fun r => r.core == queueOwner k

/-- A copy packet that waits for room in an engine's queue tries again. -/
def State.placeDue (s : State) (k : Nat) (p : Packet) : Bool :=
  let e := s.packetEngine p.link p.ctx (field p.body 0x10 8)
  p.kind == 6 && !s.placed k && (engChip e != s.chip || s.engineRoom e)

/-- COPY_PACKET (20 R332): the copy is queued at its engine once that has room, one of another chip by an active message (09 R177); one
whose body breaks its layout does nothing. -/
def State.copyPacket (s : State) (k : Nat) (p : Packet) : State :=
  let desc := (p.body.drop 0x10).take 128
  let d := copyDesc desc
  let e := s.packetEngine p.link p.ctx d.src
  if !zeroFrom p.body 0x90 ∨ d.crec ≠ 0 ∨ d.mapped = true ∨ d.src / 2 ^ 60 ≠ 8 ∨ d.dst / 2 ^ 60 ≠ 8 then
    (s.tlDone p.ctx p.tl).finishPacket k 0 2 0
  else if s.placed k then s
  else if engChip e = s.chip then (if s.engineRoom e then s.packetTaken k e p none else s)
  else s.request (queueOwner k) 0 p.ctx (engChip e) (e % 65536) (.copy (e % 65536) desc)

/-- A request of the front end to a home for a packet. -/
def State.packetReq (s : State) (k : Nat) (p : Packet) (op : HomeOp) : HomeReq :=
  { chip := s.chip, core := packetOwner k, slot := 0, ctx := p.ctx, id := s.nextId, op := op }

/-- Ask a home for a packet: a home here answers or holds it; one on another chip is asked, and the packet waits. -/
def State.callFor (s : State) (k : Nat) (p : Packet) (h : Word) (op : HomeOp) : State :=
  if s.staleShape h then s.finishPacket k 0 3 0
  else
    let r := s.packetReq k p op
    let t := { s with nextId := s.nextId + 1 }
    if hChip h = s.chip then
      match t.homeOp r with
      | (u, some q) => u.answer r q
      | (u, none) => u
    else t.sendHome (hChip h) r

/-- The packet already waits at a home. -/
def State.asking (s : State) (k : Nat) : Bool :=
  (s.waiting.any fun r => r.chip == s.chip && r.core == packetOwner k) || s.homeOut.any fun o => o.req.core == packetOwner k

/-- SIGNAL_ADD (20 R332, 10 R208, R209): it waits until every write that left the chip before the packet started, with whose number k
is taken in one count, is acknowledged. -/
def State.signalAdd (s : State) (k : Nat) (p : Packet) : State :=
  if !zeroFrom p.body 0x20 then s.finishPacket k 0 2 0
  else if s.writesOut k then s
  else s.callFor k p (BitVec.ofNat 64 (field p.body 0x10 8))
    (.sig (BitVec.ofNat 64 (field p.body 0x10 8)) (BitVec.ofNat 64 (field p.body 0x18 8)))

/-- SIGNAL_WAIT (20 R332). -/
def State.signalWait (s : State) (k : Nat) (p : Packet) : State :=
  if !zeroFrom p.body 0x28 then s.finishPacket k 0 2 0
  else if s.asking k then s
  else s.callFor k p (BitVec.ofNat 64 (field p.body 0x10 8))
    (.sigw (BitVec.ofNat 64 (field p.body 0x10 8)) (BitVec.ofNat 64 (field p.body 0x18 8)))

/-- The value that a signal wait reports when its limit passes: the variable's, where its home is here; for a variable of another
chip the spec does not say how it is known: a free value (log 88). -/
def State.signalValue (s : State) (k : Nat) (h : Word) : Word :=
  match (if hChip h = s.chip then s.syncRecord 3 h else none) with
  | some l => match l.data with
    | .svar v _ => v
    | _ => Config.openResult k
  | none => Config.openResult k

/-- SIGNAL_WAIT_TIMEOUT (20 R332): the limit, counted from the start of the packet. -/
def State.signalLimit (s : State) (k : Nat) (p : Packet) : State :=
  let limit := field p.body 0x20 8
  if limit = 0 ∨ s.dt < p.at_ + limit then s
  else
    let t := { s with
      waiting := s.waiting.filter fun r => !(r.chip == s.chip && r.core == packetOwner k)
      homeOut := s.homeOut.filter fun o => o.req.core != packetOwner k }
    t.finishPacket k (s.signalValue k (BitVec.ofNat 64 (field p.body 0x10 8))) 8 0

/-- The gang that a debug packet names, of the context of its header (20 R332). -/
def State.namedGang (s : State) (p : Packet) : Option Nat :=
  (s.gangs.find? fun e =>
    let l := s.launch e.2.launch
    l.ctx == p.ctx && e.2.index == field p.body 0x14 4 && l.ident.toNat == field p.body 0x18 8 &&
      (e.2.state == .running || e.2.state == .halting || e.2.state == .saving || e.2.state == .saved || e.2.state == .held)).map
    fun e => e.1

/-- A gang that is held, or will be once its image is written. -/
def Gang.isHeld (x : Gang) : Bool := x.state == .held || ((x.state == .halting || x.state == .saving) && x.hold)

/-- Reason 2 in the index block of a gang's image, with the CRC that follows from it (15 R283, 21 R346). -/
def State.holdReason (s : State) (n : Nat) : State :=
  let x := s.gang n
  let t := s.imageWrite n 0x0A (leBytes 2 2)
  (t.imageWrite n 0xFFC (leBytes 4 (imageCrc t.mem x.image (imageSpan (mgets t.mem x.image 4096))))).setGang n
    { x with reason := 2, state := .held }

/-- DEBUG_HOLD (20 R332): a running gang is pre-empted with reason 2; one that is being saved for another reason is held with its
image, and one that is saved is held at once; the hold shows as reason 2 (21 R346). The packet completes once the gang's image is
written (20 R330); a gang for which the save area has no place runs on, and none is held (log 18). -/
def State.debugHold (s : State) (k : Nat) (p : Packet) : State :=
  match (if zeroFrom p.body 0x20 then s.namedGang p else none) with
  | none => s.finishPacket k 0 2 0
  | some n =>
    let x := s.gang n
    if x.isHeld then s.finishPacket k 0 2 0
    else match x.state with
      | .running =>
        let t := s.preempt n 2 true
        if (t.gang n).state = .running then s.finishPacket k 0 2 0
        else t.setGang n { t.gang n with packets := (t.gang n).packets ++ [k] }
      | .saved => (s.holdReason n).finishPacket k 0 0 0
      | .saving =>
        (s.imageWrite n 0x0A (leBytes 2 2)).setGang n { x with hold := true, reason := 2, packets := x.packets ++ [k] }
      | _ => s.setGang n { x with hold := true, reason := 2, packets := x.packets ++ [k] }

/-- DEBUG_RELEASE (20 R332): a held gang goes back to its dispatcher; any other op is malformed. -/
def State.debugRelease (s : State) (k : Nat) (p : Packet) : State :=
  match (if zeroFrom p.body 0x20 ∧ field p.body 0x10 4 = 1 then s.namedGang p else none) with
  | none => s.finishPacket k 0 2 0
  | some n =>
    let x := s.gang n
    if !x.isHeld then s.finishPacket k 0 2 0
    else (s.setGang n { x with hold := false, state := if x.state = .held then .saved else x.state }).finishPacket k 0 0 0

/-- CONTEXT_GRANT (20 R333). -/
def execContextGrant (k : Nat) (s : State) : Host.Outcome State Fault Refusal :=
  .next (s.withPacket k 1 anyPacket (s.grantContext k))

/-- CONTEXT_RENEW (20 R332). -/
def execContextRenew (k : Nat) (s : State) : Host.Outcome State Fault Refusal :=
  .next (s.withPacket k 2 anyPacket (s.renewContext k))

/-- CONTEXT_END (20 R332). -/
def execContextEnd (k : Nat) (s : State) : Host.Outcome State Fault Refusal :=
  .next (s.withPacket k 3 anyPacket (s.contextEnd k))

/-- MEMORY_GRANT_NEW (20 R333): op 0. -/
def execMemoryGrantNew (k : Nat) (s : State) : Host.Outcome State Fault Refusal :=
  .next (s.withPacket k 4 (fun p => field p.body 0x10 1 == 0) (s.memoryNew k))

/-- MEMORY_GRANT_CHANGE (20 R333): every other op. -/
def execMemoryGrantChange (k : Nat) (s : State) : Host.Outcome State Fault Refusal :=
  .next (s.withPacket k 4 (fun p => field p.body 0x10 1 != 0) (s.memoryChange k))

/-- LAUNCH_GRAPH (20 R335). -/
def execLaunchGraph (k : Nat) (s : State) : Host.Outcome State Fault Refusal :=
  .next (s.withPacket k 5 anyPacket (s.launchGraph k))

/-- COPY_PACKET (20 R332). -/
def execCopyPacket (k : Nat) (s : State) : Host.Outcome State Fault Refusal :=
  .next (s.withPacket k 6 anyPacket (s.copyPacket k))

/-- SIGNAL_ADD (20 R332). -/
def execSignalAdd (k : Nat) (s : State) : Host.Outcome State Fault Refusal :=
  .next (s.withPacket k 7 anyPacket (s.signalAdd k))

/-- SIGNAL_WAIT (20 R332). -/
def execSignalWait (k : Nat) (s : State) : Host.Outcome State Fault Refusal :=
  .next (s.withPacket k 8 anyPacket (s.signalWait k))

/-- SIGNAL_WAIT_TIMEOUT (20 R332). -/
def execSignalWaitTimeout (k : Nat) (s : State) : Host.Outcome State Fault Refusal :=
  .next (s.withPacket k 8 anyPacket (s.signalLimit k))

/-- DEBUG_HOLD (20 R332): op 0. -/
def execDebugHold (k : Nat) (s : State) : Host.Outcome State Fault Refusal :=
  .next (s.withPacket k 10 (fun p => field p.body 0x10 4 == 0) (s.debugHold k))

/-- DEBUG_RELEASE (20 R332): every other op. -/
def execDebugRelease (k : Nat) (s : State) : Host.Outcome State Fault Refusal :=
  .next (s.withPacket k 10 (fun p => field p.body 0x10 4 != 0) (s.debugRelease k))

end Sys2Proof.Machine
end

