-- ==== Sys2Proof/Machine/Power.lean ====
section
/-!
DEFINITION. The power limit, the temperature sensors, and the frequency steps of the core islands (23 R376 to R379).
-/
namespace Sys2Proof.Machine

/-- The measurements that a window holds, one every 10 µs (23 R378). -/
def Policy.periods (p : Policy) : Nat := p.window / 10

/-- The sum of the measurements of the window and their number. -/
def Power.sum (x : Power) : Nat := x.samples.foldl (· + ·) 0

def Power.count (x : Power) : Nat := x.samples.length

/-- The step that an island should stand at: the slower of the power and the thermal demand (23 R377). -/
def Power.target (x : Power) (i : Nat) : Nat := max (tget 0 x.demand i) (tget 0 x.heat i)

/-- The rank of an island in the order of lowering (23 R378, 05 R87): the level of the gang it runs; an idle one last. -/
def State.islandRank (s : State) (i : Nat) : Nat :=
  match s.runningOn (clusterOf i) with
  | some n => (s.context (s.launch (s.gang n).launch).ctx).level
  | none => 4

/-- The first island in the order of lowering among some: the lowest level, then the highest number. -/
def State.lowerFirst (s : State) : List Nat → Option Nat → Option Nat
  | [], best => best
  | i :: is, none => s.lowerFirst is (some i)
  | i :: is, some b => s.lowerFirst is (some (if s.islandRank i ≤ s.islandRank b then i else b))

/-- The first in the reverse order: the highest level, then the lowest number. -/
def State.raiseFirst (s : State) : List Nat → Option Nat → Option Nat
  | [], best => best
  | i :: is, none => s.raiseFirst is (some i)
  | i :: is, some b => s.raiseFirst is (some (if s.islandRank b < s.islandRank i then i else b))

def coreIslands : List Nat := List.range 1024

/-- What a period does once the new measurement stands in the window. -/
def State.limitPower (s : State) : State :=
  let x := s.power
  let put := fun (i st : Nat) => { s with power := { x with demand := tput x.demand i st } }
  if x.now.limit * x.count < x.sum then
    match s.lowerFirst (coreIslands.filter fun i => tget 0 x.demand i < x.now.floor) none with
    | some i => put i (tget 0 x.demand i + 1)
    | none => { s with power := { x with overs := x.overs + 1 } }
  else if 100 * x.sum < 95 * (x.now.limit * x.count) then
    match s.raiseFirst (coreIslands.filter fun i => 0 < tget 0 x.demand i) none with
    | some i => put i (tget 0 x.demand i - 1)
    | none => s
  else s

/-- POWER_PERIOD (23 R378, R380): a policy set before applies from this period. -/
def State.powerPeriod (s : State) (watts : Nat) : State :=
  let x := s.power
  let p := x.next.getD x.now
  ({ s with power := { x with now := p, next := none, samples := (watts :: x.samples).take p.periods } }).limitPower

/-- One sensor's reading, in tenths of a degree (23 R379): an island at 105 °C or more is lowered a step in each period,
whatever the floor, until it reads below 100 °C. -/
def Power.read (x : Power) (i t : Nat) : Power :=
  let hot := 1050 ≤ t ∨ (i ∈ x.hot ∧ 1000 ≤ t)
  { x with
    temps := tput x.temps i t
    hot := if hot then (if i ∈ x.hot then x.hot else x.hot ++ [i]) else x.hot.filter fun j => j != i
    heat := if 1024 ≤ i then x.heat else tput x.heat i (if hot then min 5 (x.target i + 1) else 0) }

def Power.readAll (x : Power) : List (Nat × Nat) → Power
  | [] => x
  | (i, t) :: l => (x.read i t).readAll l

/-- The die of an island (01 R7). -/
def islandDie (i : Nat) : Nat := if i < 1024 then dieOf i else (i - 1024) / 16

/-- Thermal emergency of a die (23 R379): from 115 °C on any island, until every island reads below 105 °C. -/
def Power.emergency (x : Power) (die : Nat) : Bool :=
  let l := x.temps.filter fun e => islandDie e.1 == die
  (l.any fun e => decide (1150 ≤ e.2)) || (x.emerg.getLsbD die && l.any fun e => decide (1050 ≤ e.2))

def boolBit (b : Bool) (k : Nat) : BitVec 4 := if b then 1#4 <<< k else 0

/-- THERMAL_PERIOD (23 R379): at 125 °C the dies lose power, and nothing is recorded. -/
def State.thermalPeriod (s : State) (temps : List (Nat × Nat)) : State :=
  let x := s.power.readAll (temps.filter fun e => e.1 < 1088)
  let em := boolBit (x.emergency 0) 0 ||| boolBit (x.emergency 1) 1 ||| boolBit (x.emergency 2) 2 ||| boolBit (x.emergency 3) 3
  let t := { s with power := { x with emerg := em } }
  if x.temps.any fun e => decide (1250 ≤ e.2) then { t with powered := false } else t

/-- A change of step can apply now (23 R377): no chunk step in flight on the core, of an mm or an mmx, and no pre-emption of its gang
under way. -/
def State.stepFree (s : State) (i : Nat) : Bool :=
  (s.core i).array.isNone && (s.core i).damask.isNone && match (s.cluster (clusterOf i)).gang with
    | some n => (s.gang n).state != .halting && (s.gang n).state != .saving
    | none => true

/-- ISLAND_STEP_CHANGE (23 R376, R377): time alone changes. -/
def State.islandStep (s : State) (i step : Nat) : State :=
  if step < 6 ∧ s.stepFree i then { s with step := tput s.step i step } else s

/-- The changes of step that are due. -/
def State.stepChanges (s : State) : List Due :=
  ((s.power.demand ++ s.power.heat).map fun e => e.1).filterMap fun i =>
    if s.power.target i ≠ tget 0 s.step i ∧ s.stepFree i then some (.stepChange i (s.power.target i)) else none

/-- POWER_PERIOD (23 R378). -/
def execPowerPeriod (watts : Nat) (s : State) : Host.Outcome State Fault Refusal := .next (s.powerPeriod watts)

/-- THERMAL_PERIOD (23 R379). -/
def execThermalPeriod (temps : List (Nat × Nat)) (s : State) : Host.Outcome State Fault Refusal := .next (s.thermalPeriod temps)

/-- ISLAND_STEP_CHANGE (23 R377). -/
def execIslandStepChange (island step : Nat) (s : State) : Host.Outcome State Fault Refusal :=
  if island < 1024 then .next (s.islandStep island step) else .fault .noSuchUnit

end Sys2Proof.Machine
end

