-- ==== Sys2Proof/Machine/Riscv.lean ====
section
/-!
DEFINITION. The core of the Filhel controller, of RV32IMC with 256 KiB of tightly coupled memory (01 R11). The spec names the
instruction set and gives none of it: PRESUMED, its meanings are those of the RISC-V unprivileged architecture (log 87).
-/
namespace Sys2Proof.Machine

/-- The operations on two registers: of I, and of M. -/
inductive RvAlu where
  | add | sub | sll | slt | sltu | xor | srl | sra | or | and
  | mul | mulh | mulhsu | mulhu | div | divu | rem | remu
  deriving DecidableEq, Repr

inductive RvCond where
  | eq | ne | lt | ge | ltu | geu
  deriving DecidableEq, Repr

/-- An instruction of the controller's core; trap is an environment call, a breakpoint, and every encoding that RV32IMC does not define.
-/
inductive RvInstr where
  | lui (rd : Nat) (imm : BitVec 32)
  | auipc (rd : Nat) (imm : BitVec 32)
  | jal (rd : Nat) (off : BitVec 32)
  | jalr (rd rs1 : Nat) (off : BitVec 32)
  | branch (c : RvCond) (rs1 rs2 : Nat) (off : BitVec 32)
  | load (size : Nat) (signed : Bool) (rd rs1 : Nat) (off : BitVec 32)
  | store (size : Nat) (rs1 rs2 : Nat) (off : BitVec 32)
  | opImm (f : RvAlu) (rd rs1 : Nat) (imm : BitVec 32)
  | op (f : RvAlu) (rd rs1 rs2 : Nat)
  | fence
  | trap
  deriving DecidableEq, Repr

/-- Bits hi down to lo of a word. -/
def bitsAt (w hi lo : Nat) : Nat := w / 2 ^ lo % 2 ^ (hi + 1 - lo)

/-- An n-bit number as 32 bits, its sign extended. -/
def sext32 (n v : Nat) : BitVec 32 := (BitVec.ofNat n v).signExtend 32

def rvAlu (f3 : Nat) : RvAlu :=
  match f3 with
  | 0 => .add | 1 => .sll | 2 => .slt | 3 => .sltu | 4 => .xor | 5 => .srl | 6 => .or | _ => .and

def rvMul (f3 : Nat) : RvAlu :=
  match f3 with
  | 0 => .mul | 1 => .mulh | 2 => .mulhsu | 3 => .mulhu | 4 => .div | 5 => .divu | 6 => .rem | _ => .remu

/-- OP-IMM: the shifts take five bits, and funct7 tells the right shifts apart. -/
def rvOpImm (w : Nat) : RvInstr :=
  let rd := bitsAt w 11 7
  let rs1 := bitsAt w 19 15
  let sh := BitVec.ofNat 32 (bitsAt w 24 20)
  match bitsAt w 14 12, bitsAt w 31 25 with
  | 1, 0 => .opImm .sll rd rs1 sh
  | 1, _ => .trap
  | 5, 0 => .opImm .srl rd rs1 sh
  | 5, 32 => .opImm .sra rd rs1 sh
  | 5, _ => .trap
  | f, _ => .opImm (rvAlu f) rd rs1 (sext32 12 (bitsAt w 31 20))

def rvOp (w : Nat) : RvInstr :=
  let f3 := bitsAt w 14 12
  let go (f : RvAlu) : RvInstr := .op f (bitsAt w 11 7) (bitsAt w 19 15) (bitsAt w 24 20)
  match bitsAt w 31 25, f3 with
  | 0, _ => go (rvAlu f3)
  | 1, _ => go (rvMul f3)
  | 32, 0 => go .sub
  | 32, 5 => go .sra
  | _, _ => .trap

def rvBranch (w : Nat) : RvInstr :=
  let off := sext32 13 (bitsAt w 31 31 * 4096 + bitsAt w 7 7 * 2048 + bitsAt w 30 25 * 32 + bitsAt w 11 8 * 2)
  let go (c : RvCond) : RvInstr := .branch c (bitsAt w 19 15) (bitsAt w 24 20) off
  match bitsAt w 14 12 with
  | 0 => go .eq
  | 1 => go .ne
  | 4 => go .lt
  | 5 => go .ge
  | 6 => go .ltu
  | 7 => go .geu
  | _ => .trap

def rvLoad (w : Nat) : RvInstr :=
  let go (size : Nat) (signed : Bool) : RvInstr := .load size signed (bitsAt w 11 7) (bitsAt w 19 15) (sext32 12 (bitsAt w 31 20))
  match bitsAt w 14 12 with
  | 0 => go 1 true
  | 1 => go 2 true
  | 2 => go 4 true
  | 4 => go 1 false
  | 5 => go 2 false
  | _ => .trap

def rvStore (w : Nat) : RvInstr :=
  let off := sext32 12 (bitsAt w 31 25 * 32 + bitsAt w 11 7)
  if bitsAt w 14 12 < 3 then .store (2 ^ bitsAt w 14 12) (bitsAt w 19 15) (bitsAt w 24 20) off else .trap

/-- A 32-bit instruction, by its opcode. -/
def rvDecode32 (w : Nat) : RvInstr :=
  let rd := bitsAt w 11 7
  match bitsAt w 6 0 with
  | 0x37 => .lui rd (BitVec.ofNat 32 (bitsAt w 31 12 * 4096))
  | 0x17 => .auipc rd (BitVec.ofNat 32 (bitsAt w 31 12 * 4096))
  | 0x6F => .jal rd (sext32 21 (bitsAt w 31 31 * 2 ^ 20 + bitsAt w 19 12 * 4096 + bitsAt w 20 20 * 2048 + bitsAt w 30 21 * 2))
  | 0x67 => if bitsAt w 14 12 = 0 then .jalr rd (bitsAt w 19 15) (sext32 12 (bitsAt w 31 20)) else .trap
  | 0x63 => rvBranch w
  | 0x03 => rvLoad w
  | 0x23 => rvStore w
  | 0x13 => rvOpImm w
  | 0x33 => rvOp w
  | 0x0F => if bitsAt w 14 12 = 0 then .fence else .trap
  | _ => .trap

/-- Compressed instructions with low bits 0. -/
def rvQuadrant0 (w : Nat) : RvInstr :=
  let rs1 := bitsAt w 9 7 + 8
  let r := bitsAt w 4 2 + 8
  let wordOff := BitVec.ofNat 32 (bitsAt w 12 10 * 8 + bitsAt w 6 6 * 4 + bitsAt w 5 5 * 64)
  let n := bitsAt w 12 11 * 16 + bitsAt w 10 7 * 64 + bitsAt w 6 6 * 4 + bitsAt w 5 5 * 8
  match bitsAt w 15 13 with
  | 0 => if n = 0 then .trap else .opImm .add r 2 (BitVec.ofNat 32 n)
  | 2 => .load 4 true r rs1 wordOff
  | 6 => .store 4 rs1 r wordOff
  | _ => .trap

/-- The target of C.J and C.JAL. -/
def rvCJump (w : Nat) : BitVec 32 :=
  sext32 12 (bitsAt w 12 12 * 2048 + bitsAt w 11 11 * 16 + bitsAt w 10 9 * 256 + bitsAt w 8 8 * 1024 + bitsAt w 7 7 * 64 +
    bitsAt w 6 6 * 128 + bitsAt w 5 3 * 2 + bitsAt w 2 2 * 32)

/-- The target of C.BEQZ and C.BNEZ. -/
def rvCBranch (w : Nat) : BitVec 32 :=
  sext32 9 (bitsAt w 12 12 * 256 + bitsAt w 11 10 * 8 + bitsAt w 6 5 * 64 + bitsAt w 4 3 * 2 + bitsAt w 2 2 * 32)

/-- C.SRLI, C.SRAI, C.ANDI, and the operations on two of the eight registers. -/
def rvCArith (w : Nat) : RvInstr :=
  let rd := bitsAt w 9 7 + 8
  let rs2 := bitsAt w 4 2 + 8
  let sh := BitVec.ofNat 32 (bitsAt w 6 2)
  match bitsAt w 11 10, bitsAt w 12 12, bitsAt w 6 5 with
  | 0, 0, _ => .opImm .srl rd rd sh
  | 1, 0, _ => .opImm .sra rd rd sh
  | 2, _, _ => .opImm .and rd rd (sext32 6 (bitsAt w 12 12 * 32 + bitsAt w 6 2))
  | 3, 0, 0 => .op .sub rd rd rs2
  | 3, 0, 1 => .op .xor rd rd rs2
  | 3, 0, 2 => .op .or rd rd rs2
  | 3, 0, _ => .op .and rd rd rs2
  | _, _, _ => .trap

/-- C.ADDI16SP and C.LUI. -/
def rvCUpper (w : Nat) : RvInstr :=
  let sp := bitsAt w 12 12 * 512 + bitsAt w 6 6 * 16 + bitsAt w 5 5 * 64 + bitsAt w 4 3 * 128 + bitsAt w 2 2 * 32
  let up := bitsAt w 12 12 * 2 ^ 17 + bitsAt w 6 2 * 4096
  if bitsAt w 11 7 = 2 then (if sp = 0 then .trap else .opImm .add 2 2 (sext32 10 sp))
  else if up = 0 then .trap
  else .lui (bitsAt w 11 7) (sext32 18 up)

/-- Compressed instructions with low bits 1. -/
def rvQuadrant1 (w : Nat) : RvInstr :=
  let rd := bitsAt w 11 7
  let imm := sext32 6 (bitsAt w 12 12 * 32 + bitsAt w 6 2)
  match bitsAt w 15 13 with
  | 0 => .opImm .add rd rd imm
  | 1 => .jal 1 (rvCJump w)
  | 2 => .opImm .add rd 0 imm
  | 3 => rvCUpper w
  | 4 => rvCArith w
  | 5 => .jal 0 (rvCJump w)
  | 6 => .branch .eq (bitsAt w 9 7 + 8) 0 (rvCBranch w)
  | _ => .branch .ne (bitsAt w 9 7 + 8) 0 (rvCBranch w)

/-- C.JR, C.MV, C.EBREAK, C.JALR, C.ADD. -/
def rvCRegs (w : Nat) : RvInstr :=
  let rd := bitsAt w 11 7
  let rs2 := bitsAt w 6 2
  match bitsAt w 12 12, rs2, rd with
  | 0, 0, 0 => .trap
  | 0, 0, _ => .jalr 0 rd 0
  | 0, _, _ => .op .add rd 0 rs2
  | _, 0, 0 => .trap
  | _, 0, _ => .jalr 1 rd 0
  | _, _, _ => .op .add rd rd rs2

/-- Compressed instructions with low bits 2. -/
def rvQuadrant2 (w : Nat) : RvInstr :=
  let rd := bitsAt w 11 7
  match bitsAt w 15 13 with
  | 0 => if bitsAt w 12 12 = 0 then .opImm .sll rd rd (BitVec.ofNat 32 (bitsAt w 6 2)) else .trap
  | 2 => if rd = 0 then .trap
    else .load 4 true rd 2 (BitVec.ofNat 32 (bitsAt w 12 12 * 32 + bitsAt w 6 4 * 4 + bitsAt w 3 2 * 64))
  | 4 => rvCRegs w
  | 6 => .store 4 2 (bitsAt w 6 2) (BitVec.ofNat 32 (bitsAt w 12 9 * 4 + bitsAt w 8 7 * 64))
  | _ => .trap

/-- A 16-bit instruction. -/
def rvDecode16 (w : Nat) : RvInstr :=
  match w % 4 with
  | 0 => rvQuadrant0 w
  | 1 => rvQuadrant1 w
  | _ => rvQuadrant2 w

/-- Division towards zero: by zero it gives all ones, and leaves the dividend as the rest. -/
def rvDiv (a b : Int) : Int := if b = 0 then -1 else a.tdiv b
def rvRem (a b : Int) : Int := if b = 0 then a else a.tmod b

def RvAlu.eval (f : RvAlu) (a b : BitVec 32) : BitVec 32 :=
  match f with
  | .add => a + b
  | .sub => a - b
  | .sll => a <<< (b.toNat % 32)
  | .slt => if a.toInt < b.toInt then 1 else 0
  | .sltu => if a.toNat < b.toNat then 1 else 0
  | .xor => a ^^^ b
  | .srl => a >>> (b.toNat % 32)
  | .sra => a.sshiftRight (b.toNat % 32)
  | .or => a ||| b
  | .and => a &&& b
  | .mul => a * b
  | .mulh => BitVec.ofInt 32 (a.toInt * b.toInt / 2 ^ 32)
  | .mulhsu => BitVec.ofInt 32 (a.toInt * b.toNat / 2 ^ 32)
  | .mulhu => BitVec.ofNat 32 (a.toNat * b.toNat / 2 ^ 32)
  | .div => BitVec.ofInt 32 (rvDiv a.toInt b.toInt)
  | .divu => BitVec.ofInt 32 (rvDiv a.toNat b.toNat)
  | .rem => BitVec.ofInt 32 (rvRem a.toInt b.toInt)
  | .remu => BitVec.ofInt 32 (rvRem a.toNat b.toNat)

def RvCond.holds (c : RvCond) (a b : BitVec 32) : Bool :=
  match c with
  | .eq => a == b
  | .ne => a != b
  | .lt => decide (a.toInt < b.toInt)
  | .ge => decide (b.toInt ≤ a.toInt)
  | .ltu => decide (a.toNat < b.toNat)
  | .geu => decide (b.toNat ≤ a.toNat)

/-- A register: x0 reads as zero and discards what is written. -/
def Filhel.reg (f : Filhel) (i : Nat) : BitVec 32 := if i = 0 then 0 else tget 0 f.regs i

def Filhel.setReg (f : Filhel) (i : Nat) (v : BitVec 32) : Filhel := if i = 0 then f else { f with regs := tput f.regs i v }

/-- Size of the tightly coupled memory; PRESUMED, it begins at address 0 (log 87). -/
def tcmSize : Nat := 0x40000

/-- A byte that the core reads in its step n: of its memory, as last written or as the verified image left it there; outside, where
the configuration of the dies lies, a free value (01 R11, 20 R339; log 87). -/
def Filhel.byte (f : Filhel) (img : List Byte) (n : Nat) (a : BitVec 32) : Byte :=
  if a.toNat < tcmSize then (f.tcm.lookup a.toNat).getD (Config.controllerImage img a.toNat) else Config.controllerRead n a

/-- n bytes from an address on, the lowest first; an unaligned access is made of its bytes. -/
def Filhel.read (f : Filhel) (img : List Byte) (n : Nat) (a : BitVec 32) : Nat → Nat
  | 0 => 0
  | k + 1 => (f.byte img n a).toNat + 256 * f.read img n (a + 1) k

/-- A store: what it does to the configuration of the dies are the controller's duties, steps of their own (01 R11; log 87). -/
def Filhel.write (f : Filhel) (a : BitVec 32) (v : Nat) : Nat → Filhel
  | 0 => f
  | k + 1 =>
    ({ f with tcm := if a.toNat < tcmSize then tput f.tcm a.toNat (BitVec.ofNat 8 v) else f.tcm }).write (a + 1) (v / 256) k

/-- An even address: every instruction begins at one. -/
def evenPc (a : BitVec 32) : BitVec 32 := a &&& 0xFFFFFFFE

/-- One instruction, len bytes long. Where a trap goes is a free value. -/
def Filhel.exec (f : Filhel) (img : List Byte) (n : Nat) (len : BitVec 32) : RvInstr → Filhel
  | .lui rd imm => { f.setReg rd imm with pc := f.pc + len }
  | .auipc rd imm => { f.setReg rd (f.pc + imm) with pc := f.pc + len }
  | .jal rd off => { f.setReg rd (f.pc + len) with pc := evenPc (f.pc + off) }
  | .jalr rd rs1 off => { f.setReg rd (f.pc + len) with pc := evenPc (f.reg rs1 + off) }
  | .branch c rs1 rs2 off => { f with pc := if c.holds (f.reg rs1) (f.reg rs2) then evenPc (f.pc + off) else f.pc + len }
  | .load size signed rd rs1 off =>
    let v := f.read img n (f.reg rs1 + off) size
    { f.setReg rd (if signed then sext32 (8 * size) v else BitVec.ofNat 32 v) with pc := f.pc + len }
  | .store size rs1 rs2 off => { f.write (f.reg rs1 + off) (f.reg rs2).toNat size with pc := f.pc + len }
  | .opImm g rd rs1 imm => { f.setReg rd (g.eval (f.reg rs1) imm) with pc := f.pc + len }
  | .op g rd rs1 rs2 => { f.setReg rd (g.eval (f.reg rs1) (f.reg rs2)) with pc := f.pc + len }
  | .fence => { f with pc := f.pc + len }
  | .trap => { f with pc := evenPc (Config.controllerTrap n) }

/-- Fetch at the pc and run: the low two bits of an instruction tell its length. -/
def Filhel.run (f : Filhel) (img : List Byte) (n : Nat) : Filhel :=
  let w := f.read img n f.pc 4
  if w % 4 = 3 then f.exec img n 4 (rvDecode32 w) else f.exec img n 2 (rvDecode16 (w % 65536))

end Sys2Proof.Machine
end

