-- ==== Sys2Proof/Machine/Sha.lean ====
section
/-!
DEFINITION. SHA-256 (20 R339, R340): the digest of a byte string, by FIPS 180-4, which the spec names and does not repeat (log 93).
-/
namespace Sys2Proof.Machine

/-- The round constants: the first 32 bits of the fractional parts of the cube roots of the first 64 primes. -/
def shaRounds : List (BitVec 32) :=
  [0x428A2F98#32, 0x71374491#32, 0xB5C0FBCF#32, 0xE9B5DBA5#32, 0x3956C25B#32, 0x59F111F1#32, 0x923F82A4#32, 0xAB1C5ED5#32] ++
  [0xD807AA98#32, 0x12835B01#32, 0x243185BE#32, 0x550C7DC3#32, 0x72BE5D74#32, 0x80DEB1FE#32, 0x9BDC06A7#32, 0xC19BF174#32] ++
  [0xE49B69C1#32, 0xEFBE4786#32, 0x0FC19DC6#32, 0x240CA1CC#32, 0x2DE92C6F#32, 0x4A7484AA#32, 0x5CB0A9DC#32, 0x76F988DA#32] ++
  [0x983E5152#32, 0xA831C66D#32, 0xB00327C8#32, 0xBF597FC7#32, 0xC6E00BF3#32, 0xD5A79147#32, 0x06CA6351#32, 0x14292967#32] ++
  [0x27B70A85#32, 0x2E1B2138#32, 0x4D2C6DFC#32, 0x53380D13#32, 0x650A7354#32, 0x766A0ABB#32, 0x81C2C92E#32, 0x92722C85#32] ++
  [0xA2BFE8A1#32, 0xA81A664B#32, 0xC24B8B70#32, 0xC76C51A3#32, 0xD192E819#32, 0xD6990624#32, 0xF40E3585#32, 0x106AA070#32] ++
  [0x19A4C116#32, 0x1E376C08#32, 0x2748774C#32, 0x34B0BCB5#32, 0x391C0CB3#32, 0x4ED8AA4A#32, 0x5B9CCA4F#32, 0x682E6FF3#32] ++
  [0x748F82EE#32, 0x78A5636F#32, 0x84C87814#32, 0x8CC70208#32, 0x90BEFFFA#32, 0xA4506CEB#32, 0xBEF9A3F7#32, 0xC67178F2#32]

/-- The initial hash value: those of the square roots of the first 8 primes. -/
def shaStart : List (BitVec 32) :=
  [0x6A09E667#32, 0xBB67AE85#32, 0x3C6EF372#32, 0xA54FF53A#32, 0x510E527F#32, 0x9B05688C#32, 0x1F83D9AB#32, 0x5BE0CD19#32]

def shaRot (x : BitVec 32) (a b c : Nat) : BitVec 32 := x.rotateRight a ^^^ x.rotateRight b ^^^ x.rotateRight c

def shaMix (x : BitVec 32) (a b c : Nat) : BitVec 32 := x.rotateRight a ^^^ x.rotateRight b ^^^ (x >>> c)

/-- n further words of the message schedule; the newest word stands first. -/
def shaExtend : Nat → List (BitVec 32) → List (BitVec 32)
  | 0, w => w
  | n + 1, w =>
    shaExtend n ((shaMix (w.getD 1 0) 17 19 10 + w.getD 6 0 + shaMix (w.getD 14 0) 7 18 3 + w.getD 15 0) :: w)

/-- One round on the eight working variables, with a round constant and a schedule word. -/
def shaRound (v : List (BitVec 32)) (kw : BitVec 32) : List (BitVec 32) :=
  match v with
  | [a, b, c, d, e, f, g, h] =>
    let t := h + shaRot e 6 11 25 + ((e &&& f) ^^^ (~~~e &&& g)) + kw
    [t + shaRot a 2 13 22 + ((a &&& b) ^^^ (a &&& c) ^^^ (b &&& c)), a, b, c, d + t, e, f, g]
  | _ => v

/-- Four bytes as a big-endian word. -/
def shaWord (b : List Byte) (i : Nat) : BitVec 32 :=
  (b.getD (4 * i) 0 ++ b.getD (4 * i + 1) 0 ++ b.getD (4 * i + 2) 0 ++ b.getD (4 * i + 3) 0 : BitVec 32)

/-- The hash value after a block of 64 bytes. -/
def shaBlock (h : List (BitVec 32)) (b : List Byte) : List (BitVec 32) :=
  let w := (shaExtend 48 ((List.range 16).map (shaWord b)).reverse).reverse
  List.zipWith (· + ·) h ((List.zipWith (· + ·) shaRounds w).foldl shaRound h)

/-- The hash value after n blocks. -/
def shaBlocks (h : List (BitVec 32)) : Nat → List Byte → List (BitVec 32)
  | 0, _ => h
  | n + 1, bs => shaBlocks (shaBlock h (bs.take 64)) n (bs.drop 64)

/-- The padding: a one bit, zeros, and the length in bits, big-endian, up to a multiple of 64 bytes. -/
def shaPadded (bs : List Byte) : List Byte :=
  bs ++ [0x80] ++ List.replicate ((119 - bs.length % 64) % 64) 0 ++ (leBytes 8 (8 * bs.length)).reverse

/-- SHA-256 of some bytes, 32 bytes. -/
def sha256 (bs : List Byte) : List Byte :=
  let m := shaPadded bs
  (shaBlocks shaStart (m.length / 64) m).flatMap fun w => (leBytes 4 w.toNat).reverse

end Sys2Proof.Machine
end

