-- ==== Sys2Proof/Machine/Firmware.lean ====
section
/-!
DEFINITION. The Filhel controller (20 R337 to R341, 21 R359, 23 R380 to R385): firmware calls, Gingham, the rings of the host,
BAR2, and the resets of the package.
-/
namespace Sys2Proof.Machine

/-- Exactly n bytes of a list, with zeros behind. -/
def exactly (n : Nat) (bs : List Byte) : List Byte := (List.range n).map fun i => bs.getD i 0

/-- The firmware image the device holds, and whether the boot ROM accepts it (20 R339). -/
def State.image (s : State) : List Byte := s.firmware.getD Config.firstImage

def State.accepts (s : State) (img : List Byte) : Bool :=
  Config.firmwareVerifies img && decide (s.rollback ≤ Config.rollbackIndex img)

/-- Bytes 0x00 to 0xBF of an attestation report (20 R340). -/
def State.report192 (s : State) (nonce : List Byte) : List Byte :=
  leBytes 4 0x41545A39 ++ leBytes 4 1 ++ exactly 32 nonce ++ sha256 s.image ++
  sha256 s.routeBytes ++ leBytes 8 Config.serial.toNat ++ leBytes 8 s.dt ++ leBytes 2 s.chip ++
  List.replicate 70 0

/-- The report with its signature. -/
def State.attestation (s : State) (nonce : List Byte) : List Byte :=
  let r := s.report192 nonce
  r ++ exactly 64 (Config.signature (sha256 r))

/-- Write bytes to the memory behind the link of a packet. -/
def State.hostWrite (s : State) (link addr : Nat) (bs : List Byte) : State := s.writeBytes (hostKey link addr) bs

/-- A function the firmware does not define (20 R338, 21 R359). -/
def undefinedFn (n : Nat) : Bool := n == 0 || 8 < n

/-- FW_ATTEST (20 R340); a call of no defined function ends here with status 2. -/
def State.attest (s : State) (k : Nat) (p : Packet) : State :=
  if undefinedFn p.fn ∨ !zeroFrom p.body 0x40 then s.finishPacket k 0 2 0
  else (s.hostWrite p.link (field p.body 0x38 8) (s.attestation ((p.body.drop 0x18).take 32))).finishPacket k (Config.openResult k) 0 0

/-- FW_TIME_SLICE (20 R338, 05 R88). -/
def State.timeSlice (s : State) (k : Nat) (p : Packet) : State :=
  let n := field p.body 0x18 8
  if !zeroFrom p.body 0x20 ∨ n < 100000 ∨ 100000000 < n then s.finishPacket k 0 2 0
  else { s with sliceLen := n }.finishPacket k (Config.openResult k) 0 0

/-- The policy in an op 0 body (23 R380). -/
def policyOf (b : List Byte) : Policy :=
  { limit := field b 0x1C 4, window := field b 0x20 4, floor := field b 0x24 1, short := field b 0x25 1 == 1 }

def policyBad (b : List Byte) : Bool :=
  let p := policyOf b
  p.limit < 600 || 2400 < p.limit || p.window < 100 || 100000 < p.window || 5 < p.floor || 1 < field b 0x25 1 || !zeroFrom b 0x26

/-- FW_POWER_POLICY_SET (23 R380): the result is the previous limit; other ops give status 2. -/
def State.setPolicy (s : State) (k : Nat) (p : Packet) : State :=
  if field p.body 0x18 1 ≠ 0 ∨ policyBad p.body then s.finishPacket k 0 2 0
  else
    let old := s.power.next.getD s.power.now
    { s with power := { s.power with next := some (policyOf p.body) } }.finishPacket k (BitVec.ofNat 64 old.limit) 0 0

def maxOf (l : List Nat) : Nat := l.foldl max 0

/-- The status record (23 R380). -/
def State.powerRecord (s : State) : List Byte :=
  let x := s.power
  let at_ := fun (n : Nat) => (coreIslands.filter fun i => tget 0 s.step i == n).length
  leBytes 4 x.now.limit ++ leBytes 4 (x.sum / x.count) ++ leBytes 4 (maxOf (x.temps.map fun e => e.2)) ++
  leBytes 2 (at_ 0) ++ leBytes 2 (at_ 1) ++ leBytes 2 (at_ 2) ++ leBytes 2 (at_ 3) ++ leBytes 2 (at_ 4) ++ leBytes 2 (at_ 5) ++
  leBytes 2 s.outOf.length ++ leBytes 2 s.half.length ++ leBytes 1 (x.emerg.toNat + 16 * (if x.now.short then x.emerg.toNat else 0)) ++
  leBytes 3 0 ++ leBytes 8 x.overs ++ leBytes 8 s.dt ++ List.replicate 16 0

/-- FW_POWER_STATUS (23 R380). -/
def State.powerStatus (s : State) (k : Nat) (p : Packet) : State :=
  let a := field p.body 0x28 8
  if !zeroFrom p.body 0x30 ∨ a % 64 ≠ 0 then s.finishPacket k 0 2 0
  else (s.hostWrite p.link a s.powerRecord).finishPacket k (Config.openResult k) 0 0

/-- The minimal ports, at most four, and the escape port that a table gives for a destination (16 R290). -/
def hopsOf (bs : List Byte) (d : Nat) : List Nat × Nat :=
  (((Config.routePorts bs d).map fun p => p % 96).take 4, Config.routeEscape bs d % 96)

/-- FW_ROUTE_TABLE (16 R290, 23 R383): the first load joins the chip to its domain, before any context has been granted. Every hop
decision made from then on follows the new table, those of the messages that wait at the router too. -/
def State.loadRoutes (s : State) (k : Nat) (p : Packet) : State :=
  if !zeroFrom p.body 0x28 ∨ (!s.joined ∧ s.everCtx) then s.finishPacket k 0 2 0
  else
    let bs := mgets s.mem (hostKey p.link (field p.body 0x18 8)) (field p.body 0x20 8)
    let ds := (Config.routeDests bs).eraseDups
    let t := { s with routes := ds, routeBytes := bs, hops := ds.foldl (fun h d => tput h d (hopsOf bs d)) [] }
    let t := if s.joined then t else { t with joined := true, chip := Config.routeChip bs % 3072, dt := Config.routeTime bs % 2 ^ 64 }
    ({ t with stuck := [] }.leaveAll t.stuck).finishPacket k (Config.openResult k) 0 0

/-- FW_ISLAND_SERVICE (20 R338): an island taken out is returned. -/
def State.islandService (s : State) (k : Nat) (p : Packet) : State :=
  let i := field p.body 0x18 8
  if !zeroFrom p.body 0x20 ∨ 1088 ≤ i then s.finishPacket k 0 2 0
  else { s with outOf := s.outOf.filter fun j => j != i }.finishPacket k (Config.openResult k) 0 0

/-- FW_IDENTITY (23 R384). -/
def State.certificates (s : State) (k : Nat) (p : Packet) : State :=
  if !zeroFrom p.body 0x28 ∨ field p.body 0x20 8 < Config.certChain.length then s.finishPacket k 0 2 0
  else (s.hostWrite p.link (field p.body 0x18 8) Config.certChain).finishPacket k (Config.openResult k) 0 0

/-- FW_FIRMWARE_UPDATE (20 R338, R339, 23 R385): an image that does not verify, or whose index lies below the counter, is not
stored. -/
def State.updateFirmware (s : State) (k : Nat) (p : Packet) : State :=
  let img := mgets s.mem (hostKey p.link (field p.body 0x18 8)) (field p.body 0x20 8)
  if !zeroFrom p.body 0x28 ∨ !s.accepts img then s.finishPacket k 0 2 0
  else { s with storedFw := some img }.finishPacket k (Config.openResult k) 0 0

/-- FW_GINGHAM (21 R359). -/
def State.startGingham (s : State) (k : Nat) (p : Packet) : State :=
  let a := field p.body 0x18 8
  let d := field p.body 0x20 8
  let n := field p.body 0x28 8
  let g : Gingham := { link := p.link, base := a, interval := d, n := n, k := 0, at_ := s.dt, phase := 0, image := [] }
  if !zeroFrom p.body 0x30 ∨ a % 16384 ≠ 0 ∨ (a ≠ 0 ∧ (d < 10000 ∨ 1000000 < d ∨ n = 0 ∨ 4096 < n)) then s.finishPacket k 0 2 0
  else { s with gingham := g }.finishPacket k (Config.openResult k) 0 0

/-- The controller's core goes on by one instruction: only a verified image runs there, and only with power (01 R11; 20 R339, 23
R379; log 87). -/
def State.controllerOn (s : State) : Filhel :=
  if s.powered && !s.bootBad then s.filhel.run s.image s.ticks else s.filhel

/-- The counters of one port and channel in a grid. -/
def State.portBytes (s : State) (v : Nat) : List Byte :=
  let c := tget (0, 0) s.portCtr v
  leBytes 8 c.1 ++ leBytes 8 c.2

/-- A slot of the ring (21 R359): all 96 × 8 pairs of counters as they stand at the latch. -/
def State.grid (s : State) (k : Nat) : List Byte :=
  leBytes 8 k ++ leBytes 8 s.dt ++ leBytes 2 s.chip ++ List.replicate 6 0 ++ leBytes 8 s.gingham.interval ++ List.replicate 32 0 ++
  (List.range 768).flatMap s.portBytes

/-- Gingham is due for a latch, or for the next write of its slot. -/
def State.ginghamDue (s : State) : Bool :=
  s.gingham.phase != 0 || s.gingham.base != 0 && decide (s.gingham.at_ + s.gingham.interval ≤ s.dt)

/-- The slot of grid k in the ring (21 R359). -/
def Gingham.slotOf (g : Gingham) (k : Nat) : Nat := g.base + 16384 * (k % g.n)

/-- GINGHAM_LATCH (21 R359, R360): the counters are latched and 0 is written at offset 0 of the slot; the next two executions write every
other field and then k at offset 0. -/
def State.latch (s : State) : State :=
  let g := s.gingham
  match g.phase with
  | 0 =>
    if s.ginghamDue then
      { s.hostWrite g.link (g.slotOf (g.k + 1)) (leBytes 8 0) with
        gingham := { g with k := g.k + 1, at_ := g.at_ + g.interval, phase := 1, image := s.grid (g.k + 1) } }
    else s
  | 1 => { s.hostWrite g.link (g.slotOf g.k + 8) (g.image.drop 8) with gingham := { g with phase := 2 } }
  | _ => { s.hostWrite g.link (g.slotOf g.k) (g.image.take 8) with gingham := { g with phase := 0, image := [] } }

/-- Forward staged records of 32 bytes to a context's ring in host memory (20 R337): the record, then the write count; one
that finds the ring full is counted and dropped. -/
def State.forwardRing (s : State) (link : Nat) (r : HostRing) : List (List Byte) → State × HostRing
  | [] => (s, r)
  | b :: bs =>
    let base := hostKey link r.base
    if r.wr - mread s.mem (base + 8) 8 = r.size then
      (s.write (base + 0x10) 8 (r.ovf + 1)).forwardRing link { r with ovf := r.ovf + 1 } bs
    else
      let t := s.writeBytes (base + 0x40 + 32 * (r.wr % r.size)) b
      (t.write base 8 (r.wr + 1)).forwardRing link { r with wr := r.wr + 1 } bs

/-- Forward error records of 64 bytes to the error ring of a link (20 R337). -/
def State.forwardErrors (s : State) (link : Nat) (l : Link) : List (List Byte) → State × Link
  | [] => (s, l)
  | b :: bs =>
    let size := 2 ^ (l.ectl.toNat / 65536 % 16 + 6)
    if l.ewr - l.erd = size then s.forwardErrors link { l with eovf := l.eovf + 1 } bs
    else (s.writeBytes (hostKey link (l.ebase.toNat + 64 * (l.ewr % size))) b).forwardErrors link { l with ewr := l.ewr + 1 } bs

/-- FAULT_RECORD_FORWARD (20 R337): what is staged for a context, and for the error ring of its link, in append order; then
the vector of each. -/
def State.forward (s : State) (ctx : Nat) : State :=
  let c := s.context ctx
  let f := s.forwardRing c.link c.fq c.fq.staged
  let n := f.1.forwardRing c.link c.nq c.nq.staged
  let t := n.1.setContext ctx { c with fq := { f.2 with staged := [] }, nq := { n.2 with staged := [] } }
  let t := if c.fq.staged.isEmpty && c.nq.staged.isEmpty then t else t.emit (.msix c.link c.vector)
  let l := t.link c.link
  let e := t.forwardErrors c.link l l.staged
  let u := e.1.setLink c.link { e.2 with staged := [] }
  if l.staged.isEmpty then u else u.emit (.msix c.link (l.ectl.toNat % 65536))

/-- Whether bytes of some device memory lie in a poisoned block. -/
def spanPoisoned (m : List Host.Cell) (pa : Nat) : Nat → Bool
  | 0 => false
  | n + 1 => (decide (pa < hbmSize) && poisoned m pa) || spanPoisoned m (pa + 1) n

/-- BAR2_READ (20 R341): data bytes from bar2win onwards; a poisoned block marks the completion. It reads for no context (log 92).
-/
def State.bar2Read (s : State) (link off n : Nat) : State :=
  let pa := (s.link link).bar2win.toNat + off
  let t := s.sense 1024 pa (min n (hbmSize - pa))
  { t with hostRead := (t.readDevice pa n, spanPoisoned t.mem pa n) }

/-- BAR2_WRITE (20 R341): descriptors stay; a partial write merges (09 R192). -/
def State.bar2Write (s : State) (link off : Nat) (bs : List Byte) : State :=
  let pa := (s.link link).bar2win.toNat + off
  { s with mem := writeDevice s.mem pa bs }.mend 1024 pa (min bs.length (hbmSize - pa)) false

/-- The part of memory that a reset does not touch: what lies behind the links. -/
def hostPart (m : List Host.Cell) : List Host.Cell := m.filter fun c => 2 ^ 64 ≤ c.1 && c.1 < descBase

/-- The turns that come from outside the package. -/
def outside (ts : List Turn) : List Turn := ts.filter fun t => match t with
  | .event _ => true
  | .core _ => false
  | .due _ => false

/-- Islands marked beside those marked before, each once. -/
def addIslands (old new : List Nat) : List Nat := old ++ (new.filter fun i => i < 1024 && !old.contains i).eraseDups

/-- COLD_RESET and FUNCTION_LEVEL_RESET (20 R339, 23 R382, R383, R385): the whole package, with memory zero and descriptors
(0x00, 127); the boot ROM verifies the stored image, and the reset test marks islands and half arrays beside those marked before: a
half array never ends, and an island out of service only by function 5 (23 R381). -/
def State.resetAll (s : State) : State :=
  let img := s.storedFw.getD s.image
  let ok := s.accepts img
  { State.reset with
    mem := hostPart s.mem, outbox := s.outbox, agenda := outside s.agenda, ticks := s.ticks, born := s.ticks, nextId := s.nextId, noted := s.noted, resets := s.resets + 1
    firmware := some img, bootBad := !ok, rollback := if ok then Config.rollbackIndex img else s.rollback
    half := addIslands s.half (Config.testedHalf (s.resets + 1))
    outOf := addIslands s.outOf (Config.testedOut (s.resets + 1)) }

/-- FW_ATTEST (20 R338, R340): function 1, and every function the controller does not define. -/
def execFwAttest (k : Nat) (s : State) : Host.Outcome State Fault Refusal :=
  .next (s.withPacket k 9 (fun p => p.fn == 1 || undefinedFn p.fn) (s.attest k))

/-- FW_TIME_SLICE (20 R338). -/
def execFwTimeSlice (k : Nat) (s : State) : Host.Outcome State Fault Refusal :=
  .next (s.withPacket k 9 (fun p => p.fn == 2) (s.timeSlice k))

/-- FW_POWER_POLICY_SET (23 R380): op 0, and every op but 1. -/
def execFwPowerPolicySet (k : Nat) (s : State) : Host.Outcome State Fault Refusal :=
  .next (s.withPacket k 9 (fun p => p.fn == 3 && field p.body 0x18 1 != 1) (s.setPolicy k))

/-- FW_POWER_STATUS (23 R380): op 1. -/
def execFwPowerStatus (k : Nat) (s : State) : Host.Outcome State Fault Refusal :=
  .next (s.withPacket k 9 (fun p => p.fn == 3 && field p.body 0x18 1 == 1) (s.powerStatus k))

/-- FW_ROUTE_TABLE (16 R290). -/
def execFwRouteTable (k : Nat) (s : State) : Host.Outcome State Fault Refusal :=
  .next (s.withPacket k 9 (fun p => p.fn == 4) (s.loadRoutes k))

/-- FW_ISLAND_SERVICE (20 R338). -/
def execFwIslandService (k : Nat) (s : State) : Host.Outcome State Fault Refusal :=
  .next (s.withPacket k 9 (fun p => p.fn == 5) (s.islandService k))

/-- FW_IDENTITY (23 R384). -/
def execFwIdentity (k : Nat) (s : State) : Host.Outcome State Fault Refusal :=
  .next (s.withPacket k 9 (fun p => p.fn == 6) (s.certificates k))

/-- FW_FIRMWARE_UPDATE (23 R385). -/
def execFwFirmwareUpdate (k : Nat) (s : State) : Host.Outcome State Fault Refusal :=
  .next (s.withPacket k 9 (fun p => p.fn == 7) (s.updateFirmware k))

/-- FW_GINGHAM (21 R359). -/
def execFwGingham (k : Nat) (s : State) : Host.Outcome State Fault Refusal :=
  .next (s.withPacket k 9 (fun p => p.fn == 8) (s.startGingham k))

/-- GINGHAM_LATCH (21 R359). -/
def execGinghamLatch (s : State) : Host.Outcome State Fault Refusal := .next s.latch

/-- BAR2_READ (20 R341). -/
def execBar2Read (link off n : Nat) (s : State) : Host.Outcome State Fault Refusal :=
  if link < 2 then .next (s.bar2Read link off n) else .fault .noSuchUnit

/-- BAR2_WRITE (20 R341). -/
def execBar2Write (link off : Nat) (bs : List Byte) (s : State) : Host.Outcome State Fault Refusal :=
  if link < 2 then .next (s.bar2Write link off bs) else .fault .noSuchUnit

/-- FAULT_RECORD_FORWARD (20 R337). -/
def execFaultRecordForward (ctx : Nat) (s : State) : Host.Outcome State Fault Refusal :=
  if ctx < 1024 then .next (s.forward ctx) else .fault .noSuchUnit

/-- SUPERVISOR_MESSAGE (15 R279). -/
def execSupervisorMessage (core : Nat) (s : State) : Host.Outcome State Fault Refusal :=
  if core < 1024 then .next (s.ring core 0) else .fault .noSuchUnit

/-- COLD_RESET (23 R382). -/
def execColdReset (s : State) : Host.Outcome State Fault Refusal := .next s.resetAll

/-- FUNCTION_LEVEL_RESET (23 R382). -/
def execFunctionLevelReset (link : Nat) (s : State) : Host.Outcome State Fault Refusal :=
  if link < 2 then .next s.resetAll else .fault .noSuchUnit

end Sys2Proof.Machine
end

