-- ==== Sys2Proof/Machine/Scalar.lean ====
section
/-!
DEFINITION. The meanings of the scalar classes ALU, MULBIT, LD, ST, MOVE, IMM and PTR, and of their short words (04 R54 to
R64, 03 R35).
-/
namespace Sys2Proof.Machine

/-- An ALU instruction (04 R54): keep means that only the flags are written. -/
def aluRun (op : AluOp) (keep : Bool) (s : State) (sp : Spec) (i : Int) : Run := do
  let (t, x) ← s.source sp i 8
  let r := alu op t.acc x (flagC t.flags)
  let u := t.setFlags (setZNCV t.flags r.1 r.2.1 r.2.2)
  .ok (if keep then u else u.setAcc r.1)

/-- A MULBIT instruction (04 R56). -/
def mulRun (op : MulOp) (s : State) (sp : Spec) (i : Int) : Run := do
  let (t, x) ← s.source sp i 8
  let r := mulbit op t.acc x
  .ok ((t.setFlags (setZNCV t.flags r.1 r.2.1 r.2.2)).setAcc r.1)

/-- The value of a load of size bytes, zero- or sign-extended (04 R59). -/
def extend (size : Nat) (signed : Bool) (v : Word) : Word :=
  let low := v.toNat % 2 ^ (8 * size)
  if signed ∧ 2 ^ (8 * size - 1) ≤ low then BitVec.ofInt 64 ((low : Int) - 2 ^ (8 * size)) else BitVec.ofNat 64 low

/-- A load (04 R59). -/
def loadRun (size : Nat) (signed : Bool) (s : State) (sp : Spec) (i : Int) : Run := do
  let (t, v) ← s.source sp i size
  let r := extend size signed v
  .ok ((t.setFlags (setZN t.flags r)).setAcc r)

/-- A store of the low size bytes of a (04 R60). -/
def storeRun (size : Nat) (s : State) (sp : Spec) (i : Int) : Run := do
  let x := s.operand sp i size
  let t ← x.1.needPorts (x.2.uses true 1)
  t.writeRef x.2 size t.acc

/-- The word of an xch, checked for the read and for the write before either is performed (04 R61): the read's checks come first,
but a touch of a view starts no pull for a write that is refused. DESIGN CHOICE (log 106): of a read and a write that both fail, the
read's space, range, alignment and station show first, then the write's, then poison that the read meets. -/
def State.xchPlace (s : State) (a : Word) : Except Stop (State × Loc × Loc) :=
  match s.recall, s.judge a 8 8 .read tagLoad true false with
  | none, .fault code => .error (.trap code a)
  | none, .late code => .error (.wait (s.note (.fault code a)) .mem .none s.soon)
  | _, _ => do
    let (t, m) ← s.locate a 8 8 .write tagStore true false
    let (u, l) ← t.locate a 8 8 .read tagLoad true false
    .ok (u, l, m)

/-- xch (04 R61): read, write the old a to the same place, then a takes the value; in G the write was accepted with the read, so the
park ends when the data returns (04 R53). On a port it pops an entry and pushes one. -/
def xchRun (s : State) (sp : Spec) (i : Int) : Run := do
  let x := s.operand sp i 8
  match x.2 with
  | .mem a =>
    let (t, l, m) ← x.1.xchPlace a
    let (u, v) ← t.loadLoc a 8 l
    let w ← u.storeAt false a 8 s.acc.toNat m
    .ok (w.setAcc (BitVec.ofNat 64 v))
  | r =>
    let t ← x.1.needPorts (r.uses false 1 ++ r.uses true 1)
    let (u, v) ← t.readRef r 8
    let w ← u.writeRef r 8 s.acc
    .ok (w.setAcc v)

/-- lea (04 R62). -/
def leaRun (s : State) (sp : Spec) (i : Int) : Run := do
  let (t, a) ← s.address sp i 1
  .ok (t.setAcc a)

/-- Read and write the destination of an IMM instruction (03 R24, 04 R63). -/
def State.immGet (s : State) : ImmDst → Word
  | .acc => s.acc
  | .ptr n => s.ptr n.toNat
  | .lc => s.cur.lc.zeroExtend 64

def State.immSet (s : State) (v : Word) : ImmDst → State
  | .acc => s.setAcc v
  | .ptr n => s.setPtr n.toNat v
  | .lc => s.setLc (v.truncate 32)

/-- addi on a pointer works on bits [59:0]; elsewhere it wraps (04 R63). -/
def State.immAdd (s : State) (k : Int) : ImmDst → State
  | .ptr n => s.stepPtr n.toNat k
  | d => s.immSet (s.immGet d + BitVec.ofInt 64 k) d

/-- ADD (04 R54, R55). -/
def execAdd (sp : Spec) (i : BitVec 13) (s : State) : Host.Outcome State Fault Refusal :=
  retire s 4 4 (aluRun .add false s sp i.toInt)

/-- ADC (04 R54, R55). -/
def execAdc (sp : Spec) (i : BitVec 13) (s : State) : Host.Outcome State Fault Refusal :=
  retire s 4 4 (aluRun .adc false s sp i.toInt)

/-- SUB (04 R54, R55). -/
def execSub (sp : Spec) (i : BitVec 13) (s : State) : Host.Outcome State Fault Refusal :=
  retire s 4 4 (aluRun .sub false s sp i.toInt)

/-- SBC (04 R54, R55). -/
def execSbc (sp : Spec) (i : BitVec 13) (s : State) : Host.Outcome State Fault Refusal :=
  retire s 4 4 (aluRun .sbc false s sp i.toInt)

/-- RSUB (04 R54, R55). -/
def execRsub (sp : Spec) (i : BitVec 13) (s : State) : Host.Outcome State Fault Refusal :=
  retire s 4 4 (aluRun .rsub false s sp i.toInt)

/-- AND (04 R54, R55). -/
def execAnd (sp : Spec) (i : BitVec 13) (s : State) : Host.Outcome State Fault Refusal :=
  retire s 4 4 (aluRun .and false s sp i.toInt)

/-- OR (04 R54, R55). -/
def execOr (sp : Spec) (i : BitVec 13) (s : State) : Host.Outcome State Fault Refusal :=
  retire s 4 4 (aluRun .or false s sp i.toInt)

/-- XOR (04 R54, R55). -/
def execXor (sp : Spec) (i : BitVec 13) (s : State) : Host.Outcome State Fault Refusal :=
  retire s 4 4 (aluRun .xor false s sp i.toInt)

/-- ANDN (04 R54, R55). -/
def execAndn (sp : Spec) (i : BitVec 13) (s : State) : Host.Outcome State Fault Refusal :=
  retire s 4 4 (aluRun .andn false s sp i.toInt)

/-- SHL (04 R54, R55). -/
def execShl (sp : Spec) (i : BitVec 13) (s : State) : Host.Outcome State Fault Refusal :=
  retire s 4 4 (aluRun .shl false s sp i.toInt)

/-- SHR (04 R54, R55). -/
def execShr (sp : Spec) (i : BitVec 13) (s : State) : Host.Outcome State Fault Refusal :=
  retire s 4 4 (aluRun .shr false s sp i.toInt)

/-- SAR (04 R54, R55). -/
def execSar (sp : Spec) (i : BitVec 13) (s : State) : Host.Outcome State Fault Refusal :=
  retire s 4 4 (aluRun .sar false s sp i.toInt)

/-- ROL (04 R54, R55). -/
def execRol (sp : Spec) (i : BitVec 13) (s : State) : Host.Outcome State Fault Refusal :=
  retire s 4 4 (aluRun .rol false s sp i.toInt)

/-- MIN (04 R54, R55). -/
def execMin (sp : Spec) (i : BitVec 13) (s : State) : Host.Outcome State Fault Refusal :=
  retire s 4 4 (aluRun .min false s sp i.toInt)

/-- MAX (04 R54, R55). -/
def execMax (sp : Spec) (i : BitVec 13) (s : State) : Host.Outcome State Fault Refusal :=
  retire s 4 4 (aluRun .max false s sp i.toInt)

/-- MINN (04 R54, R55). -/
def execMinn (sp : Spec) (i : BitVec 13) (s : State) : Host.Outcome State Fault Refusal :=
  retire s 4 4 (aluRun .minn false s sp i.toInt)

/-- MAXN (04 R54, R55). -/
def execMaxn (sp : Spec) (i : BitVec 13) (s : State) : Host.Outcome State Fault Refusal :=
  retire s 4 4 (aluRun .maxn false s sp i.toInt)

/-- CMP: as sub, a not written (04 R54). -/
def execCmp (sp : Spec) (i : BitVec 13) (s : State) : Host.Outcome State Fault Refusal :=
  retire s 4 4 (aluRun .sub true s sp i.toInt)

/-- TST: as and, a not written (04 R54). -/
def execTst (sp : Spec) (i : BitVec 13) (s : State) : Host.Outcome State Fault Refusal :=
  retire s 4 4 (aluRun .and true s sp i.toInt)

/-- NEG (04 R54). -/
def execNeg (sp : Spec) (i : BitVec 13) (s : State) : Host.Outcome State Fault Refusal :=
  retire s 4 4 (aluRun .neg false s sp i.toInt)

/-- NOT (04 R54). -/
def execNot (sp : Spec) (i : BitVec 13) (s : State) : Host.Outcome State Fault Refusal :=
  retire s 4 4 (aluRun .not false s sp i.toInt)

/-- MUL (04 R56 to R58). -/
def execMul (sp : Spec) (i : BitVec 13) (s : State) : Host.Outcome State Fault Refusal :=
  retire s 4 4 (mulRun .mul s sp i.toInt)

/-- MULH (04 R56 to R58). -/
def execMulh (sp : Spec) (i : BitVec 13) (s : State) : Host.Outcome State Fault Refusal :=
  retire s 4 4 (mulRun .mulh s sp i.toInt)

/-- MULHN (04 R56 to R58). -/
def execMulhn (sp : Spec) (i : BitVec 13) (s : State) : Host.Outcome State Fault Refusal :=
  retire s 4 4 (mulRun .mulhn s sp i.toInt)

/-- DIV (04 R56 to R58). -/
def execDiv (sp : Spec) (i : BitVec 13) (s : State) : Host.Outcome State Fault Refusal :=
  retire s 4 20 (mulRun .div s sp i.toInt)

/-- DIVN (04 R56 to R58). -/
def execDivn (sp : Spec) (i : BitVec 13) (s : State) : Host.Outcome State Fault Refusal :=
  retire s 4 20 (mulRun .divn s sp i.toInt)

/-- REM (04 R56 to R58). -/
def execRem (sp : Spec) (i : BitVec 13) (s : State) : Host.Outcome State Fault Refusal :=
  retire s 4 20 (mulRun .rem s sp i.toInt)

/-- REMN (04 R56 to R58). -/
def execRemn (sp : Spec) (i : BitVec 13) (s : State) : Host.Outcome State Fault Refusal :=
  retire s 4 20 (mulRun .remn s sp i.toInt)

/-- CLZ (04 R56 to R58). -/
def execClz (sp : Spec) (i : BitVec 13) (s : State) : Host.Outcome State Fault Refusal :=
  retire s 4 4 (mulRun .clz s sp i.toInt)

/-- CTZ (04 R56 to R58). -/
def execCtz (sp : Spec) (i : BitVec 13) (s : State) : Host.Outcome State Fault Refusal :=
  retire s 4 4 (mulRun .ctz s sp i.toInt)

/-- POPC (04 R56 to R58). -/
def execPopc (sp : Spec) (i : BitVec 13) (s : State) : Host.Outcome State Fault Refusal :=
  retire s 4 4 (mulRun .popc s sp i.toInt)

/-- BSWAP (04 R56 to R58). -/
def execBswap (sp : Spec) (i : BitVec 13) (s : State) : Host.Outcome State Fault Refusal :=
  retire s 4 4 (mulRun .bswap s sp i.toInt)

/-- SEXT (04 R56 to R58). -/
def execSext (sp : Spec) (i : BitVec 13) (s : State) : Host.Outcome State Fault Refusal :=
  retire s 4 4 (mulRun .sext s sp i.toInt)

/-- ZEXT (04 R56 to R58). -/
def execZext (sp : Spec) (i : BitVec 13) (s : State) : Host.Outcome State Fault Refusal :=
  retire s 4 4 (mulRun .zext s sp i.toInt)

/-- BEXT (04 R56 to R58). -/
def execBext (sp : Spec) (i : BitVec 13) (s : State) : Host.Outcome State Fault Refusal :=
  retire s 4 4 (mulRun .bext s sp i.toInt)

/-- BINS (04 R56 to R58). -/
def execBins (sp : Spec) (i : BitVec 13) (s : State) : Host.Outcome State Fault Refusal :=
  retire s 4 4 (mulRun .bins s sp i.toInt)

/-- A load of 1 byte(s) (04 R59). -/
def execLdB (sp : Spec) (i : BitVec 13) (s : State) : Host.Outcome State Fault Refusal :=
  retire s 4 4 (loadRun 1 false s sp i.toInt)

/-- A load of 2 byte(s) (04 R59). -/
def execLdH (sp : Spec) (i : BitVec 13) (s : State) : Host.Outcome State Fault Refusal :=
  retire s 4 4 (loadRun 2 false s sp i.toInt)

/-- A load of 4 byte(s) (04 R59). -/
def execLdW (sp : Spec) (i : BitVec 13) (s : State) : Host.Outcome State Fault Refusal :=
  retire s 4 4 (loadRun 4 false s sp i.toInt)

/-- A load of 8 byte(s) (04 R59). -/
def execLdD (sp : Spec) (i : BitVec 13) (s : State) : Host.Outcome State Fault Refusal :=
  retire s 4 4 (loadRun 8 false s sp i.toInt)

/-- A load of 1 byte(s) (04 R59). -/
def execLdSb (sp : Spec) (i : BitVec 13) (s : State) : Host.Outcome State Fault Refusal :=
  retire s 4 4 (loadRun 1 true s sp i.toInt)

/-- A load of 2 byte(s) (04 R59). -/
def execLdSh (sp : Spec) (i : BitVec 13) (s : State) : Host.Outcome State Fault Refusal :=
  retire s 4 4 (loadRun 2 true s sp i.toInt)

/-- A load of 4 byte(s) (04 R59). -/
def execLdSw (sp : Spec) (i : BitVec 13) (s : State) : Host.Outcome State Fault Refusal :=
  retire s 4 4 (loadRun 4 true s sp i.toInt)

/-- A store of 1 byte(s) (04 R60). -/
def execStB (sp : Spec) (i : BitVec 13) (s : State) : Host.Outcome State Fault Refusal :=
  retire s 4 4 (storeRun 1 s sp i.toInt)

/-- A store of 2 byte(s) (04 R60). -/
def execStH (sp : Spec) (i : BitVec 13) (s : State) : Host.Outcome State Fault Refusal :=
  retire s 4 4 (storeRun 2 s sp i.toInt)

/-- A store of 4 byte(s) (04 R60). -/
def execStW (sp : Spec) (i : BitVec 13) (s : State) : Host.Outcome State Fault Refusal :=
  retire s 4 4 (storeRun 4 s sp i.toInt)

/-- A store of 8 byte(s) (04 R60). -/
def execStD (sp : Spec) (i : BitVec 13) (s : State) : Host.Outcome State Fault Refusal :=
  retire s 4 4 (storeRun 8 s sp i.toInt)

/-- XCH (04 R61). -/
def execXch (sp : Spec) (i : BitVec 13) (s : State) : Host.Outcome State Fault Refusal :=
  retire s 4 4 (xchRun s sp i.toInt)

/-- LEA (04 R62). -/
def execLea (sp : Spec) (i : BitVec 13) (s : State) : Host.Outcome State Fault Refusal :=
  retire s 4 4 (leaRun s sp i.toInt)

/-- LI: d ← sext(imm19) (03 R24, 04 R63). -/
def execLi (d : ImmDst) (i : BitVec 19) (s : State) : Host.Outcome State Fault Refusal :=
  retire s 4 4 (.ok (s.immSet (i.signExtend 64) d))

/-- LSH: d ← (d << 19) OR imm19 (03 R24, 04 R63). -/
def execLsh (d : ImmDst) (i : BitVec 19) (s : State) : Host.Outcome State Fault Refusal :=
  retire s 4 4 (.ok (s.immSet (s.immGet d <<< 19 ||| i.zeroExtend 64) d))

/-- ADDI: d ← d + sext(imm19) (03 R24, 04 R63). -/
def execAddi (d : ImmDst) (i : BitVec 19) (s : State) : Host.Outcome State Fault Refusal :=
  retire s 4 4 (.ok (s.immAdd i.toInt d))

/-- PSTEP: sN ← sext(imm13) (04 R64). -/
def execPstep (n : BitVec 3) (i : BitVec 13) (s : State) : Host.Outcome State Fault Refusal :=
  retire s 4 4 (.ok (s.setCur (s.cur.setStep n.toNat (i.signExtend 16))))

/-- pN[59:0] ← pN[59:0] + a[59:0] (04 R64). -/
def State.padd (s : State) (n : BitVec 3) : State := s.stepPtr n.toNat (offOf s.acc)

/-- PADD (04 R64). -/
def execPadd (n : BitVec 3) (s : State) : Host.Outcome State Fault Refusal :=
  retire s 4 4 (.ok (s.padd n))

/-- PSPC: pN[63:60] ← a[3:0] (04 R64). -/
def execPspc (n : BitVec 3) (s : State) : Host.Outcome State Fault Refusal :=
  retire s 4 4 (.ok (s.setPtr n.toNat ((s.ptr n.toNat &&& 0x0FFFFFFFFFFFFFFF#64) ||| s.acc <<< 60)))

/-- PINC (04 R64). -/
def execPinc (n : BitVec 3) (s : State) : Host.Outcome State Fault Refusal :=
  retire s 4 4 (.ok (s.stepPtr n.toNat (s.stepInt n.toNat)))

/-- SGET: a ← sext(sN) (04 R64). -/
def execSget (n : BitVec 3) (s : State) : Host.Outcome State Fault Refusal :=
  retire s 4 4 (.ok (s.setAcc (BitVec.ofInt 64 (s.stepInt n.toNat))))

/-- The short word: as its long word with imm13 = sext(imm4) (03 R35). -/
def execLdDShort (sp : Spec) (i : BitVec 4) (s : State) : Host.Outcome State Fault Refusal :=
  retire s 2 4 (loadRun 8 false s sp i.toInt)

/-- The short word: as its long word with imm13 = sext(imm4) (03 R35). -/
def execStDShort (sp : Spec) (i : BitVec 4) (s : State) : Host.Outcome State Fault Refusal :=
  retire s 2 4 (storeRun 8 s sp i.toInt)

/-- The short word: as its long word with imm13 = sext(imm4) (03 R35). -/
def execAddShort (sp : Spec) (i : BitVec 4) (s : State) : Host.Outcome State Fault Refusal :=
  retire s 2 4 (aluRun .add false s sp i.toInt)

/-- The short word: as its long word with imm13 = sext(imm4) (03 R35). -/
def execSubShort (sp : Spec) (i : BitVec 4) (s : State) : Host.Outcome State Fault Refusal :=
  retire s 2 4 (aluRun .sub false s sp i.toInt)

/-- The short word: as its long word with imm13 = sext(imm4) (03 R35). -/
def execAndShort (sp : Spec) (i : BitVec 4) (s : State) : Host.Outcome State Fault Refusal :=
  retire s 2 4 (aluRun .and false s sp i.toInt)

/-- The short word: as its long word with imm13 = sext(imm4) (03 R35). -/
def execOrShort (sp : Spec) (i : BitVec 4) (s : State) : Host.Outcome State Fault Refusal :=
  retire s 2 4 (aluRun .or false s sp i.toInt)

/-- The short word: as its long word with imm13 = sext(imm4) (03 R35). -/
def execXorShort (sp : Spec) (i : BitVec 4) (s : State) : Host.Outcome State Fault Refusal :=
  retire s 2 4 (aluRun .xor false s sp i.toInt)

/-- The short word: as its long word with imm13 = sext(imm4) (03 R35). -/
def execCmpShort (sp : Spec) (i : BitVec 4) (s : State) : Host.Outcome State Fault Refusal :=
  retire s 2 4 (aluRun .sub true s sp i.toInt)

/-- The short word: as its long word with imm13 = sext(imm4) (03 R35). -/
def execLdWShort (sp : Spec) (i : BitVec 4) (s : State) : Host.Outcome State Fault Refusal :=
  retire s 2 4 (loadRun 4 false s sp i.toInt)

/-- The short word: as its long word with imm13 = sext(imm4) (03 R35). -/
def execStWShort (sp : Spec) (i : BitVec 4) (s : State) : Host.Outcome State Fault Refusal :=
  retire s 2 4 (storeRun 4 s sp i.toInt)

/-- The short word: as its long word with imm13 = sext(imm4) (03 R35). -/
def execShlShort (sp : Spec) (i : BitVec 4) (s : State) : Host.Outcome State Fault Refusal :=
  retire s 2 4 (aluRun .shl false s sp i.toInt)

/-- The short word: as its long word with imm13 = sext(imm4) (03 R35). -/
def execShrShort (sp : Spec) (i : BitVec 4) (s : State) : Host.Outcome State Fault Refusal :=
  retire s 2 4 (aluRun .shr false s sp i.toInt)

/-- The short word: as its long word with imm13 = sext(imm4) (03 R35). -/
def execMulShort (sp : Spec) (i : BitVec 4) (s : State) : Host.Outcome State Fault Refusal :=
  retire s 2 4 (mulRun .mul s sp i.toInt)

/-- The short word: as its long word with imm13 = sext(imm4) (03 R35). -/
def execXchShort (sp : Spec) (i : BitVec 4) (s : State) : Host.Outcome State Fault Refusal :=
  retire s 2 4 (xchRun s sp i.toInt)

/-- The short PADD (03 R35, 04 R64). -/
def execPaddShort (n : BitVec 3) (s : State) : Host.Outcome State Fault Refusal :=
  retire s 2 4 (.ok (s.padd n))

end Sys2Proof.Machine
end

