-- ==== Sys2Proof/Machine/Dispatch.lean ====
section
/-!
DEFINITION. The dispatch: one arm per constructor of Instr, one direct call of its meaning.
-/
namespace Sys2Proof.Machine

/-- The meaning of an instruction, or of a step outside issue, in a state. -/
def exec (i : Instr) (s : State) : Host.Outcome State Fault Refusal :=
  match i with
  | .add sp im => Sys2Proof.Machine.execAdd sp im s
  | .adc sp im => Sys2Proof.Machine.execAdc sp im s
  | .sub sp im => Sys2Proof.Machine.execSub sp im s
  | .sbc sp im => Sys2Proof.Machine.execSbc sp im s
  | .rsub sp im => Sys2Proof.Machine.execRsub sp im s
  | .and sp im => Sys2Proof.Machine.execAnd sp im s
  | .or sp im => Sys2Proof.Machine.execOr sp im s
  | .xor sp im => Sys2Proof.Machine.execXor sp im s
  | .andn sp im => Sys2Proof.Machine.execAndn sp im s
  | .shl sp im => Sys2Proof.Machine.execShl sp im s
  | .shr sp im => Sys2Proof.Machine.execShr sp im s
  | .sar sp im => Sys2Proof.Machine.execSar sp im s
  | .rol sp im => Sys2Proof.Machine.execRol sp im s
  | .min sp im => Sys2Proof.Machine.execMin sp im s
  | .max sp im => Sys2Proof.Machine.execMax sp im s
  | .minn sp im => Sys2Proof.Machine.execMinn sp im s
  | .maxn sp im => Sys2Proof.Machine.execMaxn sp im s
  | .cmp sp im => Sys2Proof.Machine.execCmp sp im s
  | .tst sp im => Sys2Proof.Machine.execTst sp im s
  | .neg sp im => Sys2Proof.Machine.execNeg sp im s
  | .not sp im => Sys2Proof.Machine.execNot sp im s
  | .mul sp im => Sys2Proof.Machine.execMul sp im s
  | .mulh sp im => Sys2Proof.Machine.execMulh sp im s
  | .mulhn sp im => Sys2Proof.Machine.execMulhn sp im s
  | .div sp im => Sys2Proof.Machine.execDiv sp im s
  | .divn sp im => Sys2Proof.Machine.execDivn sp im s
  | .rem sp im => Sys2Proof.Machine.execRem sp im s
  | .remn sp im => Sys2Proof.Machine.execRemn sp im s
  | .clz sp im => Sys2Proof.Machine.execClz sp im s
  | .ctz sp im => Sys2Proof.Machine.execCtz sp im s
  | .popc sp im => Sys2Proof.Machine.execPopc sp im s
  | .bswap sp im => Sys2Proof.Machine.execBswap sp im s
  | .sext sp im => Sys2Proof.Machine.execSext sp im s
  | .zext sp im => Sys2Proof.Machine.execZext sp im s
  | .bext sp im => Sys2Proof.Machine.execBext sp im s
  | .bins sp im => Sys2Proof.Machine.execBins sp im s
  | .ldB sp im => Sys2Proof.Machine.execLdB sp im s
  | .ldH sp im => Sys2Proof.Machine.execLdH sp im s
  | .ldW sp im => Sys2Proof.Machine.execLdW sp im s
  | .ldD sp im => Sys2Proof.Machine.execLdD sp im s
  | .ldSb sp im => Sys2Proof.Machine.execLdSb sp im s
  | .ldSh sp im => Sys2Proof.Machine.execLdSh sp im s
  | .ldSw sp im => Sys2Proof.Machine.execLdSw sp im s
  | .stB sp im => Sys2Proof.Machine.execStB sp im s
  | .stH sp im => Sys2Proof.Machine.execStH sp im s
  | .stW sp im => Sys2Proof.Machine.execStW sp im s
  | .stD sp im => Sys2Proof.Machine.execStD sp im s
  | .xch sp im => Sys2Proof.Machine.execXch sp im s
  | .lea sp im => Sys2Proof.Machine.execLea sp im s
  | .li d im => Sys2Proof.Machine.execLi d im s
  | .lsh d im => Sys2Proof.Machine.execLsh d im s
  | .addi d im => Sys2Proof.Machine.execAddi d im s
  | .pstep n im => Sys2Proof.Machine.execPstep n im s
  | .padd n => Sys2Proof.Machine.execPadd n s
  | .pspc n => Sys2Proof.Machine.execPspc n s
  | .pinc n => Sys2Proof.Machine.execPinc n s
  | .sget n => Sys2Proof.Machine.execSget n s
  | .b d => Sys2Proof.Machine.execB d s
  | .bz d => Sys2Proof.Machine.execBz d s
  | .bnz d => Sys2Proof.Machine.execBnz d s
  | .bn d => Sys2Proof.Machine.execBn d s
  | .bnn d => Sys2Proof.Machine.execBnn d s
  | .bc d => Sys2Proof.Machine.execBc d s
  | .bnc d => Sys2Proof.Machine.execBnc d s
  | .bv d => Sys2Proof.Machine.execBv d s
  | .bnv d => Sys2Proof.Machine.execBnv d s
  | .bf d => Sys2Proof.Machine.execBf d s
  | .bnf d => Sys2Proof.Machine.execBnf d s
  | .bgt d => Sys2Proof.Machine.execBgt d s
  | .ble d => Sys2Proof.Machine.execBle d s
  | .bge d => Sys2Proof.Machine.execBge d s
  | .blt d => Sys2Proof.Machine.execBlt d s
  | .call d => Sys2Proof.Machine.execCall d s
  | .loop d => Sys2Proof.Machine.execLoop d s
  | .jmp sp im => Sys2Proof.Machine.execJmp sp im s
  | .jsr sp im => Sys2Proof.Machine.execJsr sp im s
  | .lcset sp im => Sys2Proof.Machine.execLcset sp im s
  | .start sp im => Sys2Proof.Machine.execStart sp im s
  | .idr n => Sys2Proof.Machine.execIdr n s
  | .vadd d a b => Sys2Proof.Machine.execVadd d a b s
  | .vsub d a b => Sys2Proof.Machine.execVsub d a b s
  | .vmul d a b => Sys2Proof.Machine.execVmul d a b s
  | .vfma d a b => Sys2Proof.Machine.execVfma d a b s
  | .vfms d a b => Sys2Proof.Machine.execVfms d a b s
  | .vmin d a b => Sys2Proof.Machine.execVmin d a b s
  | .vmax d a b => Sys2Proof.Machine.execVmax d a b s
  | .vabs d a => Sys2Proof.Machine.execVabs d a s
  | .vneg d a => Sys2Proof.Machine.execVneg d a s
  | .vaxpy d a b => Sys2Proof.Machine.execVaxpy d a b s
  | .vscl d a => Sys2Proof.Machine.execVscl d a s
  | .vdiv d a b => Sys2Proof.Machine.execVdiv d a b s
  | .vsqrt d a => Sys2Proof.Machine.execVsqrt d a s
  | .vand d a b => Sys2Proof.Machine.execVand d a b s
  | .vor d a b => Sys2Proof.Machine.execVor d a b s
  | .vxor d a b => Sys2Proof.Machine.execVxor d a b s
  | .vandn d a b => Sys2Proof.Machine.execVandn d a b s
  | .vshl d a b => Sys2Proof.Machine.execVshl d a b s
  | .vshr d a b => Sys2Proof.Machine.execVshr d a b s
  | .vsar d a b => Sys2Proof.Machine.execVsar d a b s
  | .vceq d a b => Sys2Proof.Machine.execVceq d a b s
  | .vclt d a b => Sys2Proof.Machine.execVclt d a b s
  | .vcle d a b => Sys2Proof.Machine.execVcle d a b s
  | .vsel d a b => Sys2Proof.Machine.execVsel d a b s
  | .vmov d a => Sys2Proof.Machine.execVmov d a s
  | .vbcast d a => Sys2Proof.Machine.execVbcast d a s
  | .vmsk a => Sys2Proof.Machine.execVmsk a s
  | .vexp2 d a => Sys2Proof.Machine.execVexp2 d a s
  | .vlog2 d a => Sys2Proof.Machine.execVlog2 d a s
  | .vrcp d a => Sys2Proof.Machine.execVrcp d a s
  | .vrsqrt d a => Sys2Proof.Machine.execVrsqrt d a s
  | .vsinpi d a => Sys2Proof.Machine.execVsinpi d a s
  | .vcospi d a => Sys2Proof.Machine.execVcospi d a s
  | .vtanh d a => Sys2Proof.Machine.execVtanh d a s
  | .vsigm d a => Sys2Proof.Machine.execVsigm d a s
  | .verf d a => Sys2Proof.Machine.execVerf d a s
  | .vradd d a => Sys2Proof.Machine.execVradd d a s
  | .vrmax d a => Sys2Proof.Machine.execVrmax d a s
  | .vrmin d a => Sys2Proof.Machine.execVrmin d a s
  | .vdot d a b => Sys2Proof.Machine.execVdot d a b s
  | .vperm d a b => Sys2Proof.Machine.execVperm d a b s
  | .vgath d a b => Sys2Proof.Machine.execVgath d a b s
  | .vscat d a b => Sys2Proof.Machine.execVscat d a b s
  | .vcmpr d a => Sys2Proof.Machine.execVcmpr d a s
  | .vcvt d a => Sys2Proof.Machine.execVcvt d a s
  | .vscal d a => Sys2Proof.Machine.execVscal d a s
  | .vqnt d a b => Sys2Proof.Machine.execVqnt d a b s
  | .vdeq d a b => Sys2Proof.Machine.execVdeq d a b s
  | .vpack d a => Sys2Proof.Machine.execVpack d a s
  | .vunpk d a => Sys2Proof.Machine.execVunpk d a s
  | .dget sp im => Sys2Proof.Machine.execDget sp im s
  | .dset sp im => Sys2Proof.Machine.execDset sp im s
  | .dchk sp im => Sys2Proof.Machine.execDchk sp im s
  | .fset sp im => Sys2Proof.Machine.execFset sp im s
  | .qsub k sp im => Sys2Proof.Machine.execQsub k sp im s
  | .qstat k => Sys2Proof.Machine.execQstat k s
  | .tld x p n => Sys2Proof.Machine.execTld x p n s
  | .tstTile x p n => Sys2Proof.Machine.execTstTile x p n s
  | .tcfg x => Sys2Proof.Machine.execTcfg x s
  | .tcfr x => Sys2Proof.Machine.execTcfr x s
  | .tzero x => Sys2Proof.Machine.execTzero x s
  | .tmov x y => Sys2Proof.Machine.execTmov x y s
  | .mm c x y r => Sys2Proof.Machine.execMm c x y r s
  | .mmx c x y r a b => Sys2Proof.Machine.execMmx c x y r a b s
  | .cclr c f => Sys2Proof.Machine.execCclr c f s
  | .crd c p q n => Sys2Proof.Machine.execCrd c p q n s
  | .cwr c p q n => Sys2Proof.Machine.execCwr c p q n s
  | .cadd c x r => Sys2Proof.Machine.execCadd c x r s
  | .cstat c => Sys2Proof.Machine.execCstat c s
  | .cstatR c => Sys2Proof.Machine.execCstatR c s
  | .cstatC c => Sys2Proof.Machine.execCstatC c s
  | .cscl c e => Sys2Proof.Machine.execCscl c e s
  | .gldv sp im => Sys2Proof.Machine.execGldv sp im s
  | .gstv sp im => Sys2Proof.Machine.execGstv sp im s
  | .gpref sp im => Sys2Proof.Machine.execGpref sp im s
  | .cpy k sp im => Sys2Proof.Machine.execCpy k sp im s
  | .cpyr k sp im => Sys2Proof.Machine.execCpyr k sp im s
  | .wtok m => Sys2Proof.Machine.execWtok m s
  | .ttok k => Sys2Proof.Machine.execTtok k s
  | .tokr k => Sys2Proof.Machine.execTokr k s
  | .aadd sp im => Sys2Proof.Machine.execAadd sp im s
  | .aand sp im => Sys2Proof.Machine.execAand sp im s
  | .aor sp im => Sys2Proof.Machine.execAor sp im s
  | .axor sp im => Sys2Proof.Machine.execAxor sp im s
  | .amin sp im => Sys2Proof.Machine.execAmin sp im s
  | .amax sp im => Sys2Proof.Machine.execAmax sp im s
  | .aminn sp im => Sys2Proof.Machine.execAminn sp im s
  | .amaxn sp im => Sys2Proof.Machine.execAmaxn sp im s
  | .aswp sp im => Sys2Proof.Machine.execAswp sp im s
  | .acas sp im => Sys2Proof.Machine.execAcas sp im s
  | .aaddf sp im => Sys2Proof.Machine.execAaddf sp im s
  | .aaddW sp im => Sys2Proof.Machine.execAaddW sp im s
  | .aandW sp im => Sys2Proof.Machine.execAandW sp im s
  | .aorW sp im => Sys2Proof.Machine.execAorW sp im s
  | .axorW sp im => Sys2Proof.Machine.execAxorW sp im s
  | .aminW sp im => Sys2Proof.Machine.execAminW sp im s
  | .amaxW sp im => Sys2Proof.Machine.execAmaxW sp im s
  | .aminnW sp im => Sys2Proof.Machine.execAminnW sp im s
  | .amaxnW sp im => Sys2Proof.Machine.execAmaxnW sp im s
  | .aswpW sp im => Sys2Proof.Machine.execAswpW sp im s
  | .acasW sp im => Sys2Proof.Machine.execAcasW sp im s
  | .aaddfW sp im => Sys2Proof.Machine.execAaddfW sp im s
  | .vaadd d a => Sys2Proof.Machine.execVaadd d a s
  | .vamin d a => Sys2Proof.Machine.execVamin d a s
  | .vamax d a => Sys2Proof.Machine.execVamax d a s
  | .vaaddS d a b => Sys2Proof.Machine.execVaaddS d a b s
  | .vaminS d a b => Sys2Proof.Machine.execVaminS d a b s
  | .vamaxS d a b => Sys2Proof.Machine.execVamaxS d a b s
  | .watch sp im => Sys2Proof.Machine.execWatch sp im s
  | .watchRm sp im => Sys2Proof.Machine.execWatchRm sp im s
  | .cbar k => Sys2Proof.Machine.execCbar k s
  | .barr sp im => Sys2Proof.Machine.execBarr sp im s
  | .barw sp im => Sys2Proof.Machine.execBarw sp im s
  | .sig sp im => Sys2Proof.Machine.execSig sp im s
  | .sigw sp im => Sys2Proof.Machine.execSigw sp im s
  | .sigm sp im => Sys2Proof.Machine.execSigm sp im s
  | .lk k sp im => Sys2Proof.Machine.execLk k sp im s
  | .twait k => Sys2Proof.Machine.execTwait k s
  | .tread k => Sys2Proof.Machine.execTread k s
  | .fence o sp => Sys2Proof.Machine.execFence o sp s
  | .grant k sp im => Sys2Proof.Machine.execGrant k sp im s
  | .renew sp im => Sys2Proof.Machine.execRenew sp im s
  | .life sp im => Sys2Proof.Machine.execLife sp im s
  | .anchor sp im => Sys2Proof.Machine.execAnchor sp im s
  | .hinfo sp im => Sys2Proof.Machine.execHinfo sp im s
  | .dsbind k sp im => Sys2Proof.Machine.execDsbind k sp im s
  | .fsend k => Sys2Proof.Machine.execFsend k s
  | .fsendv k sp n => Sys2Proof.Machine.execFsendv k sp n s
  | .fseek k => Sys2Proof.Machine.execFseek k s
  | .allw k => Sys2Proof.Machine.execAllw k s
  | .dsend k sp im => Sys2Proof.Machine.execDsend k sp im s
  | .dmap sp im => Sys2Proof.Machine.execDmap sp im s
  | .spull sp im => Sys2Proof.Machine.execSpull sp im s
  | .fsig k sp im => Sys2Proof.Machine.execFsig k sp im s
  | .bal k t d => Sys2Proof.Machine.execBal k t d s
  | .bnal k t d => Sys2Proof.Machine.execBnal k t d s
  | .mfs r => Sys2Proof.Machine.execMfs r s
  | .mts r => Sys2Proof.Machine.execMts r s
  | .trap n => Sys2Proof.Machine.execTrap n s
  | .trc n => Sys2Proof.Machine.execTrc n s
  | .dbgh n => Sys2Proof.Machine.execDbgh n s
  | .smpl n => Sys2Proof.Machine.execSmpl n s
  | .ldDShort sp im => Sys2Proof.Machine.execLdDShort sp im s
  | .stDShort sp im => Sys2Proof.Machine.execStDShort sp im s
  | .addShort sp im => Sys2Proof.Machine.execAddShort sp im s
  | .subShort sp im => Sys2Proof.Machine.execSubShort sp im s
  | .andShort sp im => Sys2Proof.Machine.execAndShort sp im s
  | .orShort sp im => Sys2Proof.Machine.execOrShort sp im s
  | .xorShort sp im => Sys2Proof.Machine.execXorShort sp im s
  | .cmpShort sp im => Sys2Proof.Machine.execCmpShort sp im s
  | .ldWShort sp im => Sys2Proof.Machine.execLdWShort sp im s
  | .stWShort sp im => Sys2Proof.Machine.execStWShort sp im s
  | .shlShort sp im => Sys2Proof.Machine.execShlShort sp im s
  | .shrShort sp im => Sys2Proof.Machine.execShrShort sp im s
  | .mulShort sp im => Sys2Proof.Machine.execMulShort sp im s
  | .xchShort sp im => Sys2Proof.Machine.execXchShort sp im s
  | .paddShort n => Sys2Proof.Machine.execPaddShort n s
  | .vaddShort d sp => Sys2Proof.Machine.execVaddShort d sp s
  | .vsubShort d sp => Sys2Proof.Machine.execVsubShort d sp s
  | .vmulShort d sp => Sys2Proof.Machine.execVmulShort d sp s
  | .vfmaShort d sp => Sys2Proof.Machine.execVfmaShort d sp s
  | .vminShort d sp => Sys2Proof.Machine.execVminShort d sp s
  | .vmaxShort d sp => Sys2Proof.Machine.execVmaxShort d sp s
  | .vmovShort d sp => Sys2Proof.Machine.execVmovShort d sp s
  | .vandShort d sp => Sys2Proof.Machine.execVandShort d sp s
  | .vorShort d sp => Sys2Proof.Machine.execVorShort d sp s
  | .vxorShort d sp => Sys2Proof.Machine.execVxorShort d sp s
  | .vabsShort d sp => Sys2Proof.Machine.execVabsShort d sp s
  | .vnegShort d sp => Sys2Proof.Machine.execVnegShort d sp s
  | .vselShort d sp => Sys2Proof.Machine.execVselShort d sp s
  | .vcvtShort d sp => Sys2Proof.Machine.execVcvtShort d sp s
  | .vshlShort d sp => Sys2Proof.Machine.execVshlShort d sp s
  | .vshrShort d sp => Sys2Proof.Machine.execVshrShort d sp s
  | .ret => Sys2Proof.Machine.execRet s
  | .endSlot => Sys2Proof.Machine.execEndSlot s
  | .yield => Sys2Proof.Machine.execYield s
  | .live => Sys2Proof.Machine.execLive s
  | .fget => Sys2Proof.Machine.execFget s
  | .watchClr => Sys2Proof.Machine.execWatchClr s
  | .sleep => Sys2Proof.Machine.execSleep s
  | .bfence => Sys2Proof.Machine.execBfence s
  | .isync => Sys2Proof.Machine.execIsync s
  | .hgen => Sys2Proof.Machine.execHgen s
  | .rti => Sys2Proof.Machine.execRti s
  | .wfi => Sys2Proof.Machine.execWfi s
  | .icinv => Sys2Proof.Machine.execIcinv s
  | .icinvAll => Sys2Proof.Machine.execIcinvAll s
  | .ssave => Sys2Proof.Machine.execSsave s
  | .srest => Sys2Proof.Machine.execSrest s
  | .brk => Sys2Proof.Machine.execBrk s
  | .abortWrite v => Sys2Proof.Machine.execAbortWrite v s
  | .bellWrite v => Sys2Proof.Machine.execBellWrite v s
  | .debugRequestWrite => Sys2Proof.Machine.execDebugRequestWrite s
  | .traceControlWrite v => Sys2Proof.Machine.execTraceControlWrite v s
  | .traceCountRead => Sys2Proof.Machine.execTraceCountRead s
  | .traceSample core => Sys2Proof.Machine.execTraceSample core s
  | .watchpointRemoteHalt hit => Sys2Proof.Machine.execWatchpointRemoteHalt hit s
  | .stepCountHalt cluster => Sys2Proof.Machine.execStepCountHalt cluster s
  | .queueKick link q => Sys2Proof.Machine.execQueueKick link q s
  | .queuePoll link q => Sys2Proof.Machine.execQueuePoll link q s
  | .queueEnable link q v => Sys2Proof.Machine.execQueueEnable link q v s
  | .queueDisable link q => Sys2Proof.Machine.execQueueDisable link q s
  | .completionHeadWrite link q v => Sys2Proof.Machine.execCompletionHeadWrite link q v s
  | .bar0RegisterWrite link off v => Sys2Proof.Machine.execBar0RegisterWrite link off v s
  | .completionEntryWrite link q => Sys2Proof.Machine.execCompletionEntryWrite link q s
  | .msixCoalesceTimeout link q => Sys2Proof.Machine.execMsixCoalesceTimeout link q s
  | .contextGrant k => Sys2Proof.Machine.execContextGrant k s
  | .contextRenew k => Sys2Proof.Machine.execContextRenew k s
  | .contextEnd k => Sys2Proof.Machine.execContextEnd k s
  | .memoryGrantNew k => Sys2Proof.Machine.execMemoryGrantNew k s
  | .memoryGrantChange k => Sys2Proof.Machine.execMemoryGrantChange k s
  | .launchGraph k => Sys2Proof.Machine.execLaunchGraph k s
  | .copyPacket k => Sys2Proof.Machine.execCopyPacket k s
  | .signalAdd k => Sys2Proof.Machine.execSignalAdd k s
  | .signalWait k => Sys2Proof.Machine.execSignalWait k s
  | .signalWaitTimeout k => Sys2Proof.Machine.execSignalWaitTimeout k s
  | .debugHold k => Sys2Proof.Machine.execDebugHold k s
  | .debugRelease k => Sys2Proof.Machine.execDebugRelease k s
  | .fwAttest k => Sys2Proof.Machine.execFwAttest k s
  | .fwTimeSlice k => Sys2Proof.Machine.execFwTimeSlice k s
  | .fwPowerPolicySet k => Sys2Proof.Machine.execFwPowerPolicySet k s
  | .fwPowerStatus k => Sys2Proof.Machine.execFwPowerStatus k s
  | .fwRouteTable k => Sys2Proof.Machine.execFwRouteTable k s
  | .fwIslandService k => Sys2Proof.Machine.execFwIslandService k s
  | .fwIdentity k => Sys2Proof.Machine.execFwIdentity k s
  | .fwFirmwareUpdate k => Sys2Proof.Machine.execFwFirmwareUpdate k s
  | .fwGingham k => Sys2Proof.Machine.execFwGingham k s
  | .ginghamLatch => Sys2Proof.Machine.execGinghamLatch s
  | .bar2Read link off n => Sys2Proof.Machine.execBar2Read link off n s
  | .bar2Write link off bs => Sys2Proof.Machine.execBar2Write link off bs s
  | .nodeReady graph node => Sys2Proof.Machine.execNodeReady graph node s
  | .gangPlace die => Sys2Proof.Machine.execGangPlace die s
  | .timeSliceExpiry die ctx => Sys2Proof.Machine.execTimeSliceExpiry die ctx s
  | .preemptRequest gang reason => Sys2Proof.Machine.execPreemptRequest gang reason s
  | .preemptDrainEnd gang => Sys2Proof.Machine.execPreemptDrainEnd gang s
  | .saveImageComplete gang => Sys2Proof.Machine.execSaveImageComplete gang s
  | .gangRestore gang => Sys2Proof.Machine.execGangRestore gang s
  | .leaseLapse unit idx => Sys2Proof.Machine.execLeaseLapse unit idx s
  | .homeRequest r => Sys2Proof.Machine.execHomeRequest r s
  | .homeReply core slot r => Sys2Proof.Machine.execHomeReply core slot r s
  | .revocationApply unit ctx => Sys2Proof.Machine.execRevocationApply unit ctx s
  | .rangeScrubDone unit idx => Sys2Proof.Machine.execRangeScrubDone unit idx s
  | .dtBeacon adj => Sys2Proof.Machine.execDtBeacon adj s
  | .pathSourceDiscard h => Sys2Proof.Machine.execPathSourceDiscard h s
  | .memoryReply core slot r => Sys2Proof.Machine.execMemoryReply core slot r s
  | .stationAccess r => Sys2Proof.Machine.execStationAccess r s
  | .pageMigration ctx va frame => Sys2Proof.Machine.execPageMigration ctx va frame s
  | .migrationWbTimeout ctx va => Sys2Proof.Machine.execMigrationWbTimeout ctx va s
  | .patrolScrub line err => Sys2Proof.Machine.execPatrolScrub line err s
  | .copyAccept id => Sys2Proof.Machine.execCopyAccept id s
  | .copySector id => Sys2Proof.Machine.execCopySector id s
  | .copyComplete id => Sys2Proof.Machine.execCopyComplete id s
  | .quantCommandRun die => Sys2Proof.Machine.execQuantCommandRun die s
  | .quantCommandComplete die => Sys2Proof.Machine.execQuantCommandComplete die s
  | .faultRecordForward ctx => Sys2Proof.Machine.execFaultRecordForward ctx s
  | .supervisorMessage core => Sys2Proof.Machine.execSupervisorMessage core s
  | .mirrorWrite m => Sys2Proof.Machine.execMirrorWrite m s
  | .icacheFill core addr => Sys2Proof.Machine.execIcacheFill core addr s
  | .icacheInvalidateArrival cluster => Sys2Proof.Machine.execIcacheInvalidateArrival cluster s
  | .chunkStepComplete core => Sys2Proof.Machine.execChunkStepComplete core s
  | .residueReplay core slot again => Sys2Proof.Machine.execResidueReplay core slot again s
  | .damaskStep core slot n c x y r a b => Sys2Proof.Machine.execDamaskStep core slot n c x y r a b s
  | .flitReceive f => Sys2Proof.Machine.execFlitReceive f s
  | .remoteRequestArrival r => Sys2Proof.Machine.execRemoteRequestArrival r s
  | .unorderedResendTimeout id => Sys2Proof.Machine.execUnorderedResendTimeout id s
  | .pathMessageArrival m => Sys2Proof.Machine.execPathMessageArrival m s
  | .fsigArrival m => Sys2Proof.Machine.execFsigArrival m s
  | .stubOfferArrival m => Sys2Proof.Machine.execStubOfferArrival m s
  | .ackArrival a => Sys2Proof.Machine.execAckArrival a s
  | .goBackArrival path seq => Sys2Proof.Machine.execGoBackArrival path seq s
  | .holdNoticeArrival path => Sys2Proof.Machine.execHoldNoticeArrival path s
  | .pathResendTimeout path => Sys2Proof.Machine.execPathResendTimeout path s
  | .pullRequestArrival h tile chip => Sys2Proof.Machine.execPullRequestArrival h tile chip s
  | .pullDataArrival h tile bs tagOk => Sys2Proof.Machine.execPullDataArrival h tile bs tagOk s
  | .stubLinkArrival h e => Sys2Proof.Machine.execStubLinkArrival h e s
  | .pinCompletionArrival h => Sys2Proof.Machine.execPinCompletionArrival h s
  | .pinExpiry h => Sys2Proof.Machine.execPinExpiry h s
  | .coldReset => Sys2Proof.Machine.execColdReset s
  | .functionLevelReset link => Sys2Proof.Machine.execFunctionLevelReset link s
  | .powerPeriod watts => Sys2Proof.Machine.execPowerPeriod watts s
  | .thermalPeriod temps => Sys2Proof.Machine.execThermalPeriod temps s
  | .islandStepChange island step => Sys2Proof.Machine.execIslandStepChange island step s
  | .tileTransferComplete core slot => Sys2Proof.Machine.execTileTransferComplete core slot s
  | .reservedEncodingIssue => Sys2Proof.Machine.execReservedEncodingIssue s
  | .fetchSpaceFault => Sys2Proof.Machine.execFetchSpaceFault s

end Sys2Proof.Machine
end

