-- ==== Sys2Proof/Machine/Barrel.lean ====
section
/-!
DEFINITION. One cycle of a core: the barrel (05 R80, R82, R83), the counters of the cycle, and which core moves next.
-/
namespace Sys2Proof.Machine

/-- The order of selection after the slot that issued last (05 R82). -/
def rotation (last : Nat) : List Nat := (List.range 11).map fun i => (last + 1 + i) % 11

/-- Whether yield keeps a slot out: some slot of its set is live, not parked, and has not issued since (05 R80). -/
def Core.held (c : Core) (x : Slot) : Bool :=
  x.yields.any fun k => let y := tget Slot.reset c.slots k; y.live && y.park.isNone

/-- The instruction at pc runs: an undefined word as RESERVED_ENCODING_ISSUE, a fetch beyond L as FETCH_SPACE_FAULT. -/
def runWord (dec : List Byte → Option (Instr × Nat)) (s : State) (bs : List Byte) : Host.Outcome State Fault Refusal :=
  match dec bs with
  | some (i, _) => exec i s
  | none => execReservedEncodingIssue s

/-- Run the bytes of an instruction in slot k of core g; a slot that comes to wait keeps them (11 R234). -/
def runSlot (dec : List Byte → Option (Instr × Nat)) (s : State) (bs : List Byte) : Host.Outcome State Fault Refusal :=
  runWord dec (s.setCur { s.cur with word := bs }) bs

def State.on (s : State) (g k : Nat) : State := { s with curCore := g, curSlot := k }

/-- An issued instruction that waits is taken up again: its condition is to be tested, its answer is there, or its cycle is reached
(04 R53, 05 R83). It takes no issue. -/
def Slot.resumes (x : Slot) (cycle : Nat) : Bool :=
  x.live && x.issued.isSome && match x.park with
    | none => false
    | some p => match p.wake with
      | .poll => true
      | .reply => false
      | .till c => decide (c ≤ cycle)

/-- Take up the issued instructions of core g that wait; in a halted cluster those that complete before they are saved (15 R282). -/
def resumeSlots (dec : List Byte → Option (Instr × Nat)) (s : State) (g : Nat) : List Nat → Host.Outcome State Fault Refusal
  | [] => .next s
  | k :: ks =>
    let x := s.slot g k
    if x.resumes (s.core g).cycle && (!(s.cluster (clusterOf g)).halt || x.drains) then
      match runSlot dec (s.on g k) x.word with
      | .next t => resumeSlots dec t g ks
      | o => o
    else resumeSlots dec s g ks

/-- A slot parked on a port: its instruction has not issued (03 R32). -/
def Slot.atPort (x : Slot) : Bool :=
  x.live && x.issued.isNone && match x.park with
    | some p => p.res.isPort
    | none => false

/-- Whether every port operand of the instruction at which slot k is parked can now complete, and no slot stands before it: the
instruction would not park on a port again (03 R32). -/
def portsOpen (dec : List Byte → Option (Instr × Nat)) (s : State) (g k : Nat) : Bool :=
  match runSlot dec (s.on g k) (s.slot g k).word with
  | .next t => !(t.slot g k).atPort
  | _ => true

/-- The parks of slots with no instruction in issue: one on a port is over, and the slot ready, once its ports can complete; one
until a cycle once that is reached (05 R83). -/
def wakeSlots (dec : List Byte → Option (Instr × Nat)) (s : State) (g : Nat) : List Nat → State
  | [] => s
  | k :: ks =>
    let x := s.slot g k
    let t :=
      if x.atPort then
        let w := portsOpen dec s g k
        s.setSlot g k { x with park := x.park.map fun p => { p with woken := w } }
      else (s.setSlot g k (x.rejoin (s.core g).cycle)).filled g k
    wakeSlots dec t g ks

/-- A slot that has issued or parked leaves the yield sets of the others (05 R80). -/
def unyield (k : Nat) (t : Table Slot) : Table Slot :=
  t.map fun e => (e.1, { e.2 with yields := e.2.yields.filter fun j => j != k })

def State.unyieldAt (s : State) (g k : Nat) : State :=
  s.setCore g { s.core g with slots := unyield k (s.core g).slots }

/-- Trying a slot: it is passed over, with what the attempt has changed, or it issues. -/
inductive Tried where
  | skip (t : State)
  | did (o : Host.Outcome State Fault Refusal)

/-- The park on a line that the cache misses: L is read, and the line is there later (05 R70, 11 R387). -/
def State.missed (s : State) (addr : Nat) : State :=
  let t := s.sense (s.ctxOf s.curCore) (lKey s.curCore (addr / 64 * 64)) 64
  let l := t.readLine t.curCore (addr / 64 * 64)
  t.setCur { t.cur with
    fill := some { addr := l.addr, bytes := l.bytes, install := true, here := false }
    park := some { reason := .mem, seq := s.curCoreOf.cycle, res := .none, wake := s.soon, woken := false } }

/-- The instruction of slot k of core g is at hand: it issues, or parks at a port. -/
def tryWord (dec : List Byte → Option (Instr × Nat)) (s : State) (g k : Nat) (bs : List Byte) : Tried :=
  match runSlot dec s bs with
  | .next u => if (u.slot g k).atPort then .skip (u.unyieldAt g k) else .did (.next u)
  | o => .did o

/-- Try slot k of core g in this cycle. -/
def trySlot (dec : List Byte → Option (Instr × Nat)) (s : State) (g k : Nat) : Tried :=
  let x := s.slot g k
  if !x.ready (s.core g).cycle || (s.core g).held x then .skip s
  else if x.atPort then tryWord dec (s.on g k) g k x.word
  else
    match (s.on g k).fetch with
    | .miss t addr => .skip ((t.missed addr).unyieldAt g k)
    | .beyond => .did (execFetchSpaceFault (s.on g k))
    | .word t bs => tryWord dec t g k bs

/-- Go round the slots until one issues. -/
def trySlots (dec : List Byte → Option (Instr × Nat)) (s : State) (g : Nat) :
    List Nat → State × Option (Nat × Host.Outcome State Fault Refusal)
  | [] => (s, none)
  | k :: ks =>
    match trySlot dec s g k with
    | .skip t => trySlots dec t g ks
    | .did o => (s, some (k, o))

def bump (c : Table Word) (n : Nat) : Table Word := tput c n (tget 0 c n + 1)

/-- Count the parked slots of a core by reason; one whose event has been delivered is ready (05 R83). -/
def countParks (ctr : Table Word) : List (Nat × Slot) → Table Word
  | [] => ctr
  | e :: t =>
    match e.2.park with
    | some p => countParks (if e.2.live && !p.woken then bump ctr (0x040 + p.reason.num) else ctr) t
    | none => countParks ctr t

/-- The end of a cycle of core g in which slot k issued, or none did (05 R82, R83, 21 R347). -/
def Core.cycleEnd (c : Core) (k : Option Nat) : Core :=
  { c with
    ctr := bump (countParks c.ctr c.slots) (if k.isSome then 0x04E else 0x04F), cycle := c.cycle + 1, last := k.getD c.last
    stepped := if k.isSome then c.stepped + 1 else c.stepped
    slots := match k with
      | some j => unyield j c.slots
      | none => c.slots }

def State.afterCycle (s : State) (g : Nat) (k : Option Nat) : State :=
  let s := s.setCore g ((s.core g).cycleEnd k)
  let s := if (s.core g).sampleDue then s.traceSample g else s
  if (s.core g).stepDue then s.debugHalt (clusterOf g) 0xFFFF 0xFF 0 5 0 else s

/-- The slots of core g that may issue, in their order: none in a halted cluster (15 R282, 21 R345). -/
def State.candidates (s : State) (g : Nat) : List Nat :=
  if (s.cluster (clusterOf g)).halt then [] else rotation (s.core g).last

/-- What the arrays and Damask of core g do in a cycle (13 R255, R256); uses that are over are forgotten. -/
def State.tick (s : State) (g : Nat) : State :=
  let t := (s.chunkDone g).damaskDue g
  t.setCore g { t.core g with uses := (t.core g).uses.filter fun u => decide ((t.core g).cycle < u.till) }

/-- The slots of a core that are or were in use. -/
def Core.listed (c : Core) : List Nat := c.slots.map fun e => e.1

/-- The issue of a cycle of core g: from the first ready slot in its order (05 R82). -/
def issueTurn (dec : List Byte → Option (Instr × Nat)) (s : State) (g : Nat) : Host.Outcome State Fault Refusal :=
  match trySlots dec s g (s.candidates g) with
  | (t, none) => .next (t.afterCycle g none)
  | (_, some (k, .next u)) => .next (u.afterCycle g (some k))
  | (_, some (_, o)) => o

/-- One cycle of core g: the arrays, the instructions that wait, the parks that are over, and an issue. -/
def coreTurn (dec : List Byte → Option (Instr × Nat)) (s : State) (g : Nat) : Host.Outcome State Fault Refusal :=
  let s := { s with lastCore := g }.tick g
  match resumeSlots dec s g (s.core g).listed with
  | .next t => issueTurn dec (if (t.cluster (clusterOf g)).halt then t else wakeSlots dec t g (t.core g).listed) g
  | o => o

/-- A core on which some slot runs, whose array works, or whose cluster has a gang. The idle cycles of the others are counted when a
gang is placed on them (05 R83; log 83). -/
def State.coreRuns (s : State) (e : Nat × Core) : Bool :=
  (e.2.slots.any fun x => x.2.live) || e.2.array.isSome || (s.cluster (clusterOf e.1)).gang.isSome

/-- The next core after the last one that moved, cyclic. -/
def State.nextCore (s : State) : Option Nat :=
  let l := (s.cores.filter s.coreRuns).map fun e => e.1
  match l.find? fun g => s.lastCore < g with
  | some g => some g
  | none => l.head?

end Sys2Proof.Machine
end

