-- ==== Sys2Proof/Machine/Due.lean ====
section
/-!
DEFINITION. The steps that the package makes due by itself: engines with work, times that are reached, rings with room. They
are looked for after each turn taken with an empty agenda, and each is then run as its row of the table.
-/
namespace Sys2Proof.Machine

/-- Dies 0 to 3. -/
def dies : List Nat := [0, 1, 2, 3]

/-- Quantisation engines with a command to run, or one that has run (07 R143). -/
def State.quantDues (s : State) : List Due :=
  (s.quant.filter fun e => !e.2.queue.isEmpty).map fun e =>
    if e.2.queue.any fun c => c.ran then .quantDone e.1 else .quantRun e.1

/-- The next step of a copy at the head of its engine's queue (09 R179 to R188). -/
def Copy.nextDue (id : Nat) (c : Copy) : Due :=
  if !c.accepted then .copyAccept id
  else if c.status ≠ 2 ∧ c.next < c.count then .copySector id
  else .copyComplete id

def State.copyDues (s : State) : List Due :=
  (s.copies.filter fun e => !e.2.suspended && !e.2.ended && !s.copyStands e.2 && s.headCopy e.1).map fun e =>
    e.2.nextDue e.1

/-- Leases that have lapsed, and lapsed ranges to scrub (06 R97, R100). -/
def State.leaseDues (s : State) : List Due :=
  s.leases.flatMap fun e =>
    let unit := e.1 / 2 ^ 20
    let idx := e.1 % 2 ^ 20
    if s.leaseLive e.2 then []
    else if e.2.inUse then [.lapse unit idx]
    else match e.2.data with
      | .range .. => if s.scrubWaits unit idx e.2.gen then [] else [.scrubDone unit idx]
      | _ => []

/-- Path messages that a page holds no more (16 R316). -/
def State.pathDues (s : State) : List Due :=
  s.leases.filterMap fun e =>
    match e.2.data with
    | .path x => match x.held with
      | (_, at_) :: _ =>
        if !(s.blockersAt (at_.getD [])).isEmpty then none
        else some (.pathGo (mkHandle e.2.gen 6 (e.1 / 2 ^ 20) s.chip (e.1 % 2 ^ 20)))
      | [] => none
    | _ => none

/-- Pull data that no page holds any more (16 R316). -/
def State.tileDues (s : State) : List Due :=
  s.tilesIn.filterMap fun t =>
    match (s.record t.h).data with
    | .stub x => if (s.tileBlocker x t.tile).isSome then none else some (.tileGo t.h t.tile)
    | _ => some (.tileGo t.h t.tile)

/-- Requests of every kind whose answer is overdue (16 R292). -/
def State.resendDues (s : State) : List Due :=
  ((s.remote.filter fun r => decide (r.since + resendNs ≤ s.dt)).map fun r => Due.resend r.id) ++
  ((s.homeOut.filter fun o => decide (o.since + resendNs ≤ s.dt)).map fun o => Due.resend o.req.id) ++
  ((s.pullsOut.filter fun p => decide (p.since + resendNs ≤ s.dt)).map fun p => Due.resend p.id)

/-- What the fabric has to do at its times (16 R292, R296, R316, R317, 17 R320). -/
def State.fabricDues (s : State) : List Due :=
  ((s.pins.filter fun p => !s.pinLive p).map fun p => Due.pinExpiry p.h) ++
  ((s.paths.filter fun p => !p.gone && hChip p.h != s.chip && decide (p.ed + 200 ≤ s.dt)).map fun p => Due.pathDiscard p.h) ++
  s.resendDues ++ ((s.paths.filter fun p => !p.unacked.isEmpty && decide (p.since + resendNs ≤ s.dt)).map fun p => Due.pathResend p.h) ++
  ((s.stalled.filter fun r => (s.pinnedAt r.pa).isNone).map fun r => Due.remote r) ++ s.pathDues ++
  s.tileDues ++ ((s.router.filter fun e => !e.2.isEmpty).map fun e => Due.hop e.1)

/-- Gangs whose drain has ended, dispatchers with work, nodes that are ready, slices that are over (05 R86 to R88, 15 R282). -/
def State.gangDues (s : State) : List Due :=
  ((s.gangs.filter fun e => e.2.state == .halting && s.drained e.2.cluster).map fun e => Due.preemptDrain e.1) ++
  ((dies.filter s.dispatchDue).map Due.gangPlace) ++
  (s.graphs.flatMap fun e => ((List.range e.2.total).filter e.2.nodeDue).map (Due.nodeReady e.1)) ++
  ((s.slices.filter fun e => decide (e.2 + s.sliceLen ≤ s.dt)).map fun e => Due.sliceEnd (e.1 / 1024) (e.1 % 1024))

/-- Signal adds that have waited for writes to be acknowledged, copy packets that have waited for room (09 R177; 10 R209; 20 R332). -/
def State.signalDues (s : State) : List Due :=
  ((s.started.filter fun e => e.2.kind == 7 && !s.asking e.1 && !s.writesOut e.1).map fun e => Due.packet e.1) ++
  (s.started.filter fun e => s.placeDue e.1 e.2).map fun e => Due.packet e.1

/-- Queues to poll, entries to write, messages to send (20 R328, R334). -/
def State.queueDues (s : State) : List Due :=
  ([0, 1].flatMap fun l => (s.link l).queues.flatMap fun e =>
    (if s.pollDue l e.1 then [Due.poll l e.1] else []) ++
    (if (s.finished.any fun c => c.link == l && c.q == e.1) && !e.2.full then [Due.completion l e.1] else []) ++
    (if e.2.pending ≠ 0 ∧ e.2.since + e.2.cap ≤ s.dt then [Due.msixDue l e.1] else [])) ++
  (s.started.filter fun e =>
    e.2.kind == 8 && decide (field e.2.body 0x20 8 ≠ 0 ∧ e.2.at_ + field e.2.body 0x20 8 ≤ s.dt)).map fun e => Due.signalLimit e.1

/-- Contexts with records to forward, their own or those of their link (20 R337). -/
def State.ringDues (s : State) : List Due :=
  ((s.contexts.filter fun e => !e.2.fq.staged.isEmpty || !e.2.nq.staged.isEmpty).map fun e => Due.forward e.1) ++
  ([0, 1].filter fun l => !(s.link l).staged.isEmpty).flatMap fun l =>
    (((List.range 1024).find? fun c => (s.context c).link == l).map Due.forward).toList

/-- The controller's times (09 R173, 21 R359, 23 R377). -/
def State.controlDues (s : State) : List Due :=
  (s.migrations.filter fun m => decide (m.2.2 + 2000000 ≤ s.dt)).map (fun m => Due.migTimeout m.1 m.2.1) ++
  (if s.ginghamDue then [.gingham] else []) ++ s.stepChanges

/-- Everything that is due. -/
def State.dues (s : State) : List Due :=
  s.quantDues ++ s.copyDues ++ s.leaseDues ++ s.fabricDues ++ s.gangDues ++ s.queueDues ++ s.signalDues ++ s.ringDues ++ s.controlDues

/-- The agenda takes what is due. -/
def State.look (s : State) : State := s.laterAll s.dues

/-- Run a started packet by its kind (20 R332). -/
def packetRun (s : State) (k : Nat) : Host.Outcome State Fault Refusal :=
  match s.started.lookup k with
  | none => .next s
  | some p =>
    match p.kind with
    | 1 => execContextGrant k s
    | 2 => execContextRenew k s
    | 3 => execContextEnd k s
    | 4 => if field p.body 0x10 1 = 0 then execMemoryGrantNew k s else execMemoryGrantChange k s
    | 5 => execLaunchGraph k s
    | 6 => execCopyPacket k s
    | 7 => execSignalAdd k s
    | 8 => execSignalWait k s
    | 9 =>
      (match p.fn with
       | 2 => execFwTimeSlice k s
       | 3 => if field p.body 0x18 1 = 1 then execFwPowerStatus k s else execFwPowerPolicySet k s
       | 4 => execFwRouteTable k s
       | 5 => execFwIslandService k s
       | 6 => execFwIdentity k s
       | 7 => execFwFirmwareUpdate k s
       | 8 => execFwGingham k s
       | _ => execFwAttest k s)
    | _ => if field p.body 0x10 4 = 0 then execDebugHold k s else execDebugRelease k s

/-- Run a step that is due, as its row of the table. -/
def dueRun (s : State) : Due → Host.Outcome State Fault Refusal
  | .gangPlace d => execGangPlace d s
  | .nodeReady g n => execNodeReady g n s
  | .revocationApply u c => execRevocationApply u c s
  | .packet k => packetRun s k
  | .path m => execPathMessageArrival m s
  | .ack m => execAckArrival m s
  | .goBack h q => execGoBackArrival h q s
  | .holdNotice h => execHoldNoticeArrival h s
  | .pull h t c => execPullRequestArrival h t c s
  | .pullData h t bs => execPullDataArrival h t bs true s
  | .link h e => execStubLinkArrival h e s
  | .pinDone h => execPinCompletionArrival h s
  | .preemptDrain n => execPreemptDrainEnd n s
  | .saveImage n => execSaveImageComplete n s
  | .mirror u i m => execMirrorWrite (.home u i m) s
  | .forward c => execFaultRecordForward c s
  | .icacheArrival c => execIcacheInvalidateArrival c s
  | .quantRun d => execQuantCommandRun d s
  | .quantDone d => execQuantCommandComplete d s
  | .copyAccept i => execCopyAccept i s
  | .copySector i => execCopySector i s
  | .copyComplete i => execCopyComplete i s
  | .lapse u i => execLeaseLapse u i s
  | .scrubDone u i => execRangeScrubDone u i s
  | .pinExpiry h => execPinExpiry h s
  | .pathDiscard h => execPathSourceDiscard h s
  | .sliceEnd d c => execTimeSliceExpiry d c s
  | .completion l q => execCompletionEntryWrite l q s
  | .fsig m => execFsigArrival m s
  | .offer m => execStubOfferArrival m s
  | .resend i => execUnorderedResendTimeout i s
  | .pathResend h => execPathResendTimeout h s
  | .pathGo h => .next (s.pathGo h (s.nextId + 1))
  | .remote r => execRemoteRequestArrival r s
  | .msixDue l q => execMsixCoalesceTimeout l q s
  | .signalLimit k => execSignalWaitTimeout k s
  | .poll l q => execQueuePoll l q s
  | .gingham => execGinghamLatch s
  | .stepChange i n => execIslandStepChange i n s
  | .migTimeout c v => execMigrationWbTimeout c v s
  | .hop ch => .next (s.hop ch)
  | .tileGo h t => .next (s.tileGo h t)

end Sys2Proof.Machine
end

