-- ==== Sys2Proof/Machine/Step.lean ====
section
/-!
DEFINITION. The step of the package: the first turn of the agenda, or with an empty agenda one cycle of the next core and then
what has become due. Device time passes with every step by a free value.
-/
namespace Sys2Proof.Machine

/-- What a step adds to device time, in units of 10⁻¹⁵ s: the nanoseconds that pass, at the corrected rate, and what was left over
before (01 R12: the correction of the rate is at most 100 parts per million). -/
def State.passed (s : State) : Nat := Config.elapsed s.ticks * (999900 + s.dtSlew) + s.dtRem

/-- What stands under an ECC: device memory, and L, A and W of each core (09 R191, R193). -/
def underEcc (k : Nat) : Bool :=
  k < hbmSize || (decide (coreBase 0 ≤ k) && decide (k < coreBase 1024) &&
    (let o := (k - coreBase 0) % (coreBase 1 - coreBase 0); decide (o < 0x40000) || (decide (0x80000 ≤ o) && decide (o < 0x180000))))

/-- A new error of memory stands on a whole ECC unit, beside the others (09 R191, R193). -/
def addFlaw (l : List (Nat × Bool)) : Option (Nat × Bool) → List (Nat × Bool)
  | none => l
  | some f =>
    if !underEcc f.1 then l else
    let k := f.1 / flawSize f.1 * flawSize f.1
    l.filter (fun g => g.1 != k) ++ [(k, f.2 || l.any fun g => g.1 == k && g.2)]

/-- A cached line is evicted (09 R169). -/
def evicted (l : List CachedLine) : Option Nat → List CachedLine
  | none => l
  | some i => l.eraseIdx i

/-- DESIGN CHOICE (log 100): DT counts on in an unbounded number, with which expiries are compared, and a read of it gives its low 64
bits. Device time and the count of steps go on; errors of memory arise, and cached lines are evicted, by free values. -/
def State.tickOn (s : State) : State :=
  { s with
    dt := s.dt + s.passed / 1000000, dtRem := s.passed % 1000000, ticks := s.ticks + 1
    flaws := addFlaw s.flaws (Config.flaw s.ticks), cached := evicted s.cached (Config.evict s.ticks)
    filhel := s.controllerOn }

/-- Time passes after a step. -/
def passTime : Host.Outcome State Fault Refusal → Host.Outcome State Fault Refusal
  | .next s => .next s.tickOn
  | .fault f => .fault f
  | .refused r => .refused r

/-- What is due is looked for after a turn. -/
def thenLook : Host.Outcome State Fault Refusal → Host.Outcome State Fault Refusal
  | .next s => .next s.look
  | .fault f => .fault f
  | .refused r => .refused r

/-- One turn. -/
def runTurn (dec : List Byte → Option (Instr × Nat)) (s : State) : Turn → Host.Outcome State Fault Refusal
  | .core g => coreTurn dec s g
  | .event i => exec i s
  | .due d => dueRun s d

/-- With an empty agenda the next core has its cycle; with no core running the package waits. -/
def freeTurn (dec : List Byte → Option (Instr × Nat)) (s : State) : Host.Outcome State Fault Refusal :=
  match s.nextCore with
  | some g => thenLook (coreTurn dec s g)
  | none => .next s.look

/-- Without power nothing moves but a cold reset (23 R379). -/
def darkTurn (s : State) : Host.Outcome State Fault Refusal :=
  match s.agenda with
  | .event .coldReset :: ts => execColdReset { s with agenda := ts }
  | _ :: ts => .next { s with agenda := ts }
  | [] => .next s

/-- The step, for a decoder. -/
def stepWith (dec : List Byte → Option (Instr × Nat)) (s : State) : Host.Outcome State Fault Refusal :=
  passTime (
    if !s.powered then darkTurn s
    else match s.agenda with
      | [] => freeTurn dec s
      | t :: ts => runTurn dec { s with agenda := ts } t)

/-- One step of the package. -/
noncomputable def step (s : State) : Host.Outcome State Fault Refusal := stepWith decode s

/-- Where withFetchWord lays its instruction in the L of core 0. -/
def wordAt : Nat := 0x400

/-- Slot 0 as it takes the next issue of its core at wordAt. -/
def Slot.poised (x : Slot) : Slot :=
  { x with live := true, pc := BitVec.ofNat 64 wordAt, park := none, readyAt := 0, fbuf := none, yields := [],
           replies := [], ports := [], issued := none, word := [] }

/-- Core 0 with slot 0 first in the order of selection. -/
def Core.poised (c : Core) : Core := { c with last := 10, slots := tput c.slots 0 (tget .reset c.slots 0).poised }

/-- The state with an instruction where the very next step fetches: core 0 has the next turn, its slot 0 stands at wordAt, and
the cluster cache holds the line (11 R233). It stands for the placement of a gang whose code the instruction is (log 50). -/
def State.withFetchWord (s : State) (nbits w : Nat) : State :=
  let t := s.write (lKey 0 wordAt) 4 (w % 2 ^ nbits)
  let t := t.setCore 0 (t.core 0).poised
  let t := t.setCluster 0 { t.cluster 0 with halt := false }
  { t.fillLine 0 wordAt with agenda := [.core 0], powered := true }

end Sys2Proof.Machine
end

