-- ==== Sys2Proof/Safety.lean ====
section
/-!
DEFINITION. What counts as a safe run, in the terms claims use: memory in its canonical form, a step that goes on, and what an
instruction leaves as it was.
-/
namespace Sys2Proof.Machine

/-- Memory is in its canonical form. -/
abbrev State.MemOk (s : State) : Prop := Memory.wf s.mem = true

/-- The machine goes on. -/
def goesOn : Host.Outcome State Fault Refusal → Bool
  | .next _ => true
  | .fault _ => false
  | .refused _ => false

/-- The scale of a block on which an uncorrectable error of memory stands: the access that finds the error makes it 255 (09 R191 to
R193). -/
def State.spoilt (s : State) (k : Nat) : Prop := ∃ f ∈ s.flaws, f.2 = true ∧ k = scaleKey f.1

/-- A byte reads as before, or an error has been found in its block. -/
def SameByte (s t : State) (k : Nat) : Prop := mget t.mem k = mget s.mem k ∨ s.spoilt k ∧ mget t.mem k = 255

/-- Every byte of memory, and of the blocks' descriptors, reads as before. -/
def SameBytes (s t : State) : Prop := ∀ k, SameByte s t k

/-- Every byte but the n from key k on reads as before. -/
def SameBytesBut (s t : State) (k n : Nat) : Prop := ∀ j, ¬(k ≤ j ∧ j < k + n) → SameByte s t j

/-- What an instruction leaves that works on its own slot and its core's queues and rings: every other slot, every other
register of every core (accumulator tiles, destination slots, trap vectors, trace and debug registers), every register of the
clusters, the leases, the page table entries and the gangs. -/
structure Kept (s t : State) : Prop where
  curCore  : t.curCore = s.curCore
  curSlot  : t.curSlot = s.curSlot
  slots    : ∀ g k, ¬(g = s.curCore ∧ k = s.curSlot) → t.slot g k = s.slot g k
  cores    : ∀ g, { t.core g with slots := [], queues := [] } = { s.core g with slots := [], queues := [] }
  clusters : ∀ n, { t.cluster n with rings := [] } = { s.cluster n with rings := [] }
  leases   : t.leases = s.leases
  entries  : t.entries = s.entries
  gangs    : t.gangs = s.gangs

end Sys2Proof.Machine
end

