-- ==== Sys2Proof/Certificates/Slice0/Obligations.lean ====
section
/-!
DEFINITION. The statements about the model: each formalises rules of the spec that its docstring cites.
-/
namespace Sys2Proof.Claims
open Sys2Proof.Machine

/-! ## The scalar classes (04 R54 to R64) -/

/-- A scalar instruction of one operand: its length, its spacing, its operand and the immediate. -/
structure Scalar where
  len   : Nat
  delay : Nat
  sp    : Spec
  imm   : Int

/-- The ALU instructions and their short words: the operation, and whether only the flags are written. -/
def aluForm : Instr → Option (AluOp × Bool × Scalar)
  | .add s i => some (.add, false, ⟨4, 4, s, i.toInt⟩)
  | .adc s i => some (.adc, false, ⟨4, 4, s, i.toInt⟩)
  | .sub s i => some (.sub, false, ⟨4, 4, s, i.toInt⟩)
  | .sbc s i => some (.sbc, false, ⟨4, 4, s, i.toInt⟩)
  | .rsub s i => some (.rsub, false, ⟨4, 4, s, i.toInt⟩)
  | .and s i => some (.and, false, ⟨4, 4, s, i.toInt⟩)
  | .or s i => some (.or, false, ⟨4, 4, s, i.toInt⟩)
  | .xor s i => some (.xor, false, ⟨4, 4, s, i.toInt⟩)
  | .andn s i => some (.andn, false, ⟨4, 4, s, i.toInt⟩)
  | .shl s i => some (.shl, false, ⟨4, 4, s, i.toInt⟩)
  | .shr s i => some (.shr, false, ⟨4, 4, s, i.toInt⟩)
  | .sar s i => some (.sar, false, ⟨4, 4, s, i.toInt⟩)
  | .rol s i => some (.rol, false, ⟨4, 4, s, i.toInt⟩)
  | .min s i => some (.min, false, ⟨4, 4, s, i.toInt⟩)
  | .max s i => some (.max, false, ⟨4, 4, s, i.toInt⟩)
  | .minn s i => some (.minn, false, ⟨4, 4, s, i.toInt⟩)
  | .maxn s i => some (.maxn, false, ⟨4, 4, s, i.toInt⟩)
  | .cmp s i => some (.sub, true, ⟨4, 4, s, i.toInt⟩)
  | .tst s i => some (.and, true, ⟨4, 4, s, i.toInt⟩)
  | .neg s i => some (.neg, false, ⟨4, 4, s, i.toInt⟩)
  | .not s i => some (.not, false, ⟨4, 4, s, i.toInt⟩)
  | .addShort s i => some (.add, false, ⟨2, 4, s, i.toInt⟩)
  | .subShort s i => some (.sub, false, ⟨2, 4, s, i.toInt⟩)
  | .andShort s i => some (.and, false, ⟨2, 4, s, i.toInt⟩)
  | .orShort s i => some (.or, false, ⟨2, 4, s, i.toInt⟩)
  | .xorShort s i => some (.xor, false, ⟨2, 4, s, i.toInt⟩)
  | .cmpShort s i => some (.sub, true, ⟨2, 4, s, i.toInt⟩)
  | .shlShort s i => some (.shl, false, ⟨2, 4, s, i.toInt⟩)
  | .shrShort s i => some (.shr, false, ⟨2, 4, s, i.toInt⟩)
  | _ => none

/-- An exact signed result outside the 64-bit range (04 R54). -/
def Overflow (x : Int) : Prop := x < -(2 ^ 63) ∨ 2 ^ 63 - 1 < x

/-- The rows of the tables of 04 R54 and R55: the result, C and V of an operation on a and x with carry cin. -/
def AluRow (op : AluOp) (a x : Word) (cin : Bool) (res : Word) (c v : Bool) : Prop :=
  let n := x.toNat
  match op with
  | .add => res = a + x ∧ (c = true ↔ 2 ^ 64 ≤ a.toNat + x.toNat) ∧ (v = true ↔ Overflow (a.toInt + x.toInt))
  | .adc =>
    res = a + x + BitVec.ofNat 64 cin.toNat ∧ (c = true ↔ 2 ^ 64 ≤ a.toNat + x.toNat + cin.toNat) ∧
      (v = true ↔ Overflow (a.toInt + x.toInt + cin.toNat))
  | .sub => res = a - x ∧ (c = true ↔ a.toNat < x.toNat) ∧ (v = true ↔ Overflow (a.toInt - x.toInt))
  | .sbc =>
    res = a - x - BitVec.ofNat 64 cin.toNat ∧ (c = true ↔ a.toNat < x.toNat + cin.toNat) ∧
      (v = true ↔ Overflow (a.toInt - x.toInt - cin.toNat))
  | .rsub => res = x - a ∧ (c = true ↔ x.toNat < a.toNat) ∧ (v = true ↔ Overflow (x.toInt - a.toInt))
  | .and => res = a &&& x ∧ c = false ∧ v = false
  | .or => res = a ||| x ∧ c = false ∧ v = false
  | .xor => res = a ^^^ x ∧ c = false ∧ v = false
  | .andn => res = a &&& ~~~x ∧ c = false ∧ v = false
  | .shl =>
    (∀ i < 64, res.getLsbD i = (decide (n ≤ i) && a.getLsbD (i - n))) ∧
      (c = true ↔ 1 ≤ n ∧ n ≤ 64 ∧ a.getLsbD (64 - n) = true) ∧ v = false
  | .shr =>
    (∀ i < 64, res.getLsbD i = a.getLsbD (i + n)) ∧ (c = true ↔ 1 ≤ n ∧ n ≤ 64 ∧ a.getLsbD (n - 1) = true) ∧ v = false
  | .sar =>
    (∀ i < 64, res.getLsbD i = a.getLsbD (min (i + n) 63)) ∧ (c = true ↔ 1 ≤ n ∧ a.getLsbD (min (n - 1) 63) = true) ∧
      v = false
  | .rol => (∀ i < 64, res.getLsbD ((i + n) % 64) = a.getLsbD i) ∧ c = false ∧ v = false
  | .min => (res.toInt = min a.toInt x.toInt) ∧ c = false ∧ v = false
  | .max => (res.toInt = max a.toInt x.toInt) ∧ c = false ∧ v = false
  | .minn => (res.toNat = min a.toNat x.toNat) ∧ c = false ∧ v = false
  | .maxn => (res.toNat = max a.toNat x.toNat) ∧ c = false ∧ v = false
  | .neg => res = 0 - x ∧ (c = true ↔ x ≠ 0) ∧ (v = true ↔ x = 0x8000000000000000#64)
  | .not => res = ~~~x ∧ c = false ∧ v = false

/-- The flags f with Z, N, C and V replaced; F, E and W stand in bits 4 to 6 (04 R47). -/
def withZNCV (f : BitVec 7) (z n c v : Bool) : BitVec 7 :=
  BitVec.ofNat 7 (f.toNat / 16 * 16 + v.toNat * 8 + c.toNat * 4 + n.toNat * 2 + z.toNat)

/-- The slot with its pointer stepped as the operand says: what reading an operand does to registers (03 R27 to R29). -/
def stepped (s : State) (m : Scalar) (size : Nat) : Slot := (s.operand m.sp m.imm size).1.cur

/-- The MULBIT instructions and their short word (04 R56). -/
def mulForm : Instr → Option (MulOp × Scalar)
  | .mul s i => some (.mul, ⟨4, 4, s, i.toInt⟩)
  | .mulh s i => some (.mulh, ⟨4, 4, s, i.toInt⟩)
  | .mulhn s i => some (.mulhn, ⟨4, 4, s, i.toInt⟩)
  | .div s i => some (.div, ⟨4, 20, s, i.toInt⟩)
  | .divn s i => some (.divn, ⟨4, 20, s, i.toInt⟩)
  | .rem s i => some (.rem, ⟨4, 20, s, i.toInt⟩)
  | .remn s i => some (.remn, ⟨4, 20, s, i.toInt⟩)
  | .clz s i => some (.clz, ⟨4, 4, s, i.toInt⟩)
  | .ctz s i => some (.ctz, ⟨4, 4, s, i.toInt⟩)
  | .popc s i => some (.popc, ⟨4, 4, s, i.toInt⟩)
  | .bswap s i => some (.bswap, ⟨4, 4, s, i.toInt⟩)
  | .sext s i => some (.sext, ⟨4, 4, s, i.toInt⟩)
  | .zext s i => some (.zext, ⟨4, 4, s, i.toInt⟩)
  | .bext s i => some (.bext, ⟨4, 4, s, i.toInt⟩)
  | .bins s i => some (.bins, ⟨4, 4, s, i.toInt⟩)
  | .mulShort s i => some (.mul, ⟨2, 4, s, i.toInt⟩)
  | _ => none

/-- The rows of 04 R56 to R58. -/
def MulRow (op : MulOp) (a x res : Word) (c v : Bool) : Prop :=
  let n := if x.toNat % 64 = 0 then 64 else x.toNat % 64
  let p := x.toNat % 64
  let w := x.toNat / 64 % 64 + 1
  match op with
  | .mul => res = a * x ∧ (c = true ↔ 2 ^ 64 ≤ a.toNat * x.toNat) ∧ (v = true ↔ Overflow (a.toInt * x.toInt))
  | .mulh => res.toInt = a.toInt * x.toInt / 2 ^ 64 ∧ c = false ∧ v = false
  | .mulhn => res.toNat = a.toNat * x.toNat / 2 ^ 64 ∧ c = false ∧ v = false
  | .div =>
    c = false ∧
      (if x = 0 then res.toInt = (if 0 ≤ a.toInt then 2 ^ 63 - 1 else -(2 ^ 63)) ∧ v = true
       else if a.toInt = -(2 ^ 63) ∧ x.toInt = -1 then res.toInt = 2 ^ 63 - 1 ∧ v = true
       else res.toInt = a.toInt.tdiv x.toInt ∧ v = false)
  | .divn =>
    c = false ∧ (if x = 0 then res.toNat = 2 ^ 64 - 1 ∧ v = true else res.toNat = a.toNat / x.toNat ∧ v = false)
  | .rem =>
    c = false ∧
      (if x = 0 then res = a ∧ v = true
       else if a.toInt = -(2 ^ 63) ∧ x.toInt = -1 then res = 0 ∧ v = false
       else res.toInt = a.toInt - a.toInt.tdiv x.toInt * x.toInt ∧ v = false)
  | .remn => c = false ∧ (if x = 0 then res = a ∧ v = true else res.toNat = a.toNat % x.toNat ∧ v = false)
  | .clz =>
    c = false ∧ v = false ∧ res.toNat ≤ 64 ∧ (∀ j < res.toNat, x.getLsbD (63 - j) = false) ∧
      (res.toNat < 64 → x.getLsbD (63 - res.toNat) = true)
  | .ctz =>
    c = false ∧ v = false ∧ res.toNat ≤ 64 ∧ (∀ j < res.toNat, x.getLsbD j = false) ∧
      (res.toNat < 64 → x.getLsbD res.toNat = true)
  | .popc => c = false ∧ v = false ∧ res.toNat = ((List.range 64).filter fun j => x.getLsbD j).length
  | .bswap => c = false ∧ v = false ∧ ∀ j < 64, res.getLsbD j = x.getLsbD (8 * (7 - j / 8) + j % 8)
  | .sext => c = false ∧ v = false ∧ ∀ j < 64, res.getLsbD j = a.getLsbD (min j (n - 1))
  | .zext => c = false ∧ v = false ∧ ∀ j < 64, res.getLsbD j = (decide (j < n) && a.getLsbD j)
  | .bext => c = false ∧ v = false ∧ ∀ j < 64, res.getLsbD j = (decide (j < w) && a.getLsbD (p + j))
  | .bins =>
    c = false ∧ v = false ∧
      ∀ j < 64, res.getLsbD j = if p ≤ j ∧ j < p + w then x.getLsbD (12 + (j - p)) else a.getLsbD j

/-- The loads and their short words: size, signed. -/
def loadForm : Instr → Option (Nat × Bool × Scalar)
  | .ldB s i => some (1, false, ⟨4, 4, s, i.toInt⟩)
  | .ldH s i => some (2, false, ⟨4, 4, s, i.toInt⟩)
  | .ldW s i => some (4, false, ⟨4, 4, s, i.toInt⟩)
  | .ldD s i => some (8, false, ⟨4, 4, s, i.toInt⟩)
  | .ldSb s i => some (1, true, ⟨4, 4, s, i.toInt⟩)
  | .ldSh s i => some (2, true, ⟨4, 4, s, i.toInt⟩)
  | .ldSw s i => some (4, true, ⟨4, 4, s, i.toInt⟩)
  | .ldDShort s i => some (8, false, ⟨2, 4, s, i.toInt⟩)
  | .ldWShort s i => some (4, false, ⟨2, 4, s, i.toInt⟩)
  | _ => none

/-- The low size bytes of x, extended (04 R59). -/
def Extends (size : Nat) (signed : Bool) (x res : Word) : Prop :=
  ∀ j < 64, res.getLsbD j = if j < 8 * size then x.getLsbD j else signed && x.getLsbD (8 * size - 1)

/-- No uncorrectable error of memory stands on the n bytes from key k. -/
def NoFlaw (s : State) (k n : Nat) : Prop := ∀ f ∈ s.flaws, f.2 = true → onFlaw k n f = false

/-- v is the little-endian number of the size bytes from key k on. -/
def ReadsLow (s : State) (k size v : Nat) : Prop :=
  v < 2 ^ (8 * size) ∧ ∀ j < size, v / 2 ^ (8 * j) % 256 = (mget s.mem (k + j)).toNat

/-- The stores and their short words: size. -/
def storeForm : Instr → Option (Nat × Scalar)
  | .stB s i => some (1, ⟨4, 4, s, i.toInt⟩)
  | .stH s i => some (2, ⟨4, 4, s, i.toInt⟩)
  | .stW s i => some (4, ⟨4, 4, s, i.toInt⟩)
  | .stD s i => some (8, ⟨4, 4, s, i.toInt⟩)
  | .stDShort s i => some (8, ⟨2, 4, s, i.toInt⟩)
  | .stWShort s i => some (4, ⟨2, 4, s, i.toInt⟩)
  | _ => none

/-- The low size bytes of a, zero-extended. -/
def lowBytes (size : Nat) (a : Word) : Word := BitVec.ofNat 64 (a.toNat % 2 ^ (8 * size))

/-- The key of the first byte that a checked address names in this package; none for a system register and for the memory of
another chip. -/
def Loc.spot : Loc → Option Nat
  | .buf _ b g off => some (bufKey b g off)
  | .sys _ => none
  | .glob (.here pa) _ _ => some pa
  | .glob (.host l a) _ _ => some (hostKey l a)
  | .glob (.chip _ _) _ _ => none

/-- The size bytes from k on are the low bytes of v, lowest first. -/
def HoldsLow (u : State) (k size : Nat) (v : Word) : Prop := ∀ j < size, mget u.mem (k + j) = BitVec.ofNat 8 (v.toNat / 2 ^ (8 * j))

/-- What an instruction leaves of its slot that goes on: its registers, but for what the operand has stepped. -/
def RestOfSlot (s y u : State) : Prop :=
  u.acc = s.acc ∧ u.flags = s.flags ∧ (∀ n, u.ptr n = y.ptr n) ∧ u.cur.lc = s.cur.lc ∧ u.cur.vf = s.cur.vf ∧
    u.cur.priv = s.cur.priv

/-- The slot that runs is parked with a reason, its instruction not complete and nothing of it to be seen. -/
def Waiting (s u : State) (r : Reason) : Prop :=
  Kept s u ∧ SameBytes s u ∧ RestOfSlot s s u ∧ u.cur.live = s.cur.live ∧ u.cur.pc = s.cur.pc ∧
    ∃ p, u.cur.park = some p ∧ p.reason = r ∧ p.woken = false

/-- d added to bits [59:0] modulo 2^60, the tag kept (03 R29). -/
def pointerPlus (p : Word) (d : Int) : Word :=
  (p &&& 0xF000000000000000#64) ||| ((p + BitVec.ofInt 64 d) &&& 0x0FFFFFFFFFFFFFFF#64)

/-- What an instruction makes of its own slot's registers and of nothing else: IMM, PTR, lea, lcset's kin, idr's and live's
results are stated elsewhere (04 R62 to R64): its length and the slot after it, before pc moves. -/
def registerForm (x : Slot) : Instr → Option (Nat × Slot)
  | .li .acc i => some (4, x.setAcc (i.signExtend 64))
  | .li (.ptr n) i => some (4, x.setPtr n.toNat (i.signExtend 64))
  | .li .lc i => some (4, { x with lc := i.signExtend 32 })
  | .lsh .acc i => some (4, x.setAcc (x.acc <<< 19 ||| i.zeroExtend 64))
  | .lsh (.ptr n) i => some (4, x.setPtr n.toNat (x.ptr n.toNat <<< 19 ||| i.zeroExtend 64))
  | .lsh .lc i => some (4, { x with lc := x.lc <<< 19 ||| i.zeroExtend 32 })
  | .addi .acc i => some (4, x.setAcc (x.acc + i.signExtend 64))
  | .addi (.ptr n) i => some (4, x.setPtr n.toNat (pointerPlus (x.ptr n.toNat) i.toInt))
  | .addi .lc i => some (4, { x with lc := x.lc + i.signExtend 32 })
  | .pstep n i => some (4, x.setStep n.toNat (i.signExtend 16))
  | .padd n => some (4, x.setPtr n.toNat (pointerPlus (x.ptr n.toNat) x.acc.toInt))
  | .paddShort n => some (2, x.setPtr n.toNat (pointerPlus (x.ptr n.toNat) x.acc.toInt))
  | .pspc n =>
    some (4, x.setPtr n.toNat (BitVec.ofNat 64 (x.acc.toNat % 16 * 2 ^ 60 + (x.ptr n.toNat).toNat % 2 ^ 60)))
  | .pinc n => some (4, x.setPtr n.toNat (pointerPlus (x.ptr n.toNat) (x.stepOf n.toNat).toInt))
  | .sget n => some (4, x.setAcc ((x.stepOf n.toNat).signExtend 64))
  | .lea (.mem n) _ => some (4, x.setAcc (x.ptr n.toNat))
  | .lea (.post n) _ =>
    some (4, (x.setPtr n.toNat (pointerPlus (x.ptr n.toNat) (x.stepOf n.toNat).toInt)).setAcc (x.ptr n.toNat))
  | .lea (.disp n) i => some (4, x.setAcc (pointerPlus (x.ptr n.toNat) i.toInt))
  | .lea (.pre n) _ =>
    let v := pointerPlus (x.ptr n.toNat) (-(x.stepOf n.toNat).toInt)
    some (4, (x.setPtr n.toNat v).setAcc v)
  | .fget => some (4, x.setAcc (x.vf.zeroExtend 64))
  | .isync => some (4, { x with fbuf := none })
  | _ => none

/-! ## Control flow and threads (05 R65 to R81) -/

/-- The branches: the condition on Z, N, C, V and F (03 R40), and the displacement. -/
def branchForm : Instr → Option ((Bool → Bool → Bool → Bool → Bool → Bool) × Int)
  | .b d => some (fun _ _ _ _ _ => true, d.toInt)
  | .bz d => some (fun z _ _ _ _ => z, d.toInt)
  | .bnz d => some (fun z _ _ _ _ => !z, d.toInt)
  | .bn d => some (fun _ n _ _ _ => n, d.toInt)
  | .bnn d => some (fun _ n _ _ _ => !n, d.toInt)
  | .bc d => some (fun _ _ c _ _ => c, d.toInt)
  | .bnc d => some (fun _ _ c _ _ => !c, d.toInt)
  | .bv d => some (fun _ _ _ v _ => v, d.toInt)
  | .bnv d => some (fun _ _ _ v _ => !v, d.toInt)
  | .bf d => some (fun _ _ _ _ f => f, d.toInt)
  | .bnf d => some (fun _ _ _ _ f => !f, d.toInt)
  | .bgt d => some (fun z n _ v _ => !z && n == v, d.toInt)
  | .ble d => some (fun z n _ v _ => z || n != v, d.toInt)
  | .bge d => some (fun _ n _ v _ => n == v, d.toInt)
  | .blt d => some (fun _ n _ v _ => n != v, d.toInt)
  | _ => none

/-- The running slot's core traces taken branches (21 R355, R356). -/
def tracesBranches (s : State) : Bool := s.curCoreOf.tctl.getLsbD 0

/-- u is t with the transfer to target made: pc, the fetch buffer given up, the spacing begun; and nothing else unless taken
branches are traced. -/
def Transferred (t u : State) (target : Word) : Prop :=
  u.cur = ({ t.cur with pc := target, fbuf := none }).done t.curCoreOf.cycle 0 4 ∧
    (tracesBranches t = false → Kept t u ∧ SameBytes t u)

/-- A relative target: pc + sext(disp) × 2 (03 R23). -/
def targetOf (s : State) (d : Int) : Word := s.cur.pc + BitVec.ofInt 64 (2 * d)

/-- p7 moved by d bytes (05 R67). -/
def stackAt (s : State) (d : Int) : Word := pointerPlus (s.ptr 7) d

/-- A helper as 02 R18 starts it. -/
def Helper (h : Slot) (k : Nat) (pc x : Word) (vf : BitVec 19) : Prop :=
  h.live = true ∧ h.priv = false ∧ h.pc = pc ∧ h.a = x ∧ h.ptr 7 = BitVec.ofNat 64 (0x34000 + (k + 1) * 0x1000) ∧
    (∀ n < 7, h.ptr n = 0) ∧ (∀ n, h.stepOf n = 0) ∧ h.lc = 0 ∧ h.f = 0 ∧ h.vf = vf ∧ h.tok = [] ∧ h.watch = [] ∧
    h.fired = false ∧ h.park = none

/-- Slot k is the lowest-numbered free one among 1 to 10. -/
def LowestFree (s : State) (k : Nat) : Prop :=
  1 ≤ k ∧ k ≤ 10 ∧ (s.slot s.curCore k).live = false ∧ ∀ j, 1 ≤ j → j < k → (s.slot s.curCore j).live = true

/-- The value of an identity register (05 R76), the sub-tile's registers through the partition of 05 R74. -/
def IdentityRow (s : State) (n : Nat) (v : Word) : Prop :=
  let x := s.gangOf s.curCore
  let l := s.launchOf s.curCore
  (n = 0 → v = BitVec.ofNat 64 s.curSlot) ∧ (n = 1 → v.toNat = s.curCore % 4) ∧ (n = 2 → v = BitVec.ofNat 64 x.index) ∧
    (n = 3 → v = BitVec.ofNat 64 l.ngang) ∧ (n = 4 → v = BitVec.ofNat 64 (s.curCore / 256)) ∧
    (n = 5 → v = BitVec.ofNat 64 s.chip) ∧ (n = 6 → v = BitVec.ofNat 64 (s.curCore / 4)) ∧
    (n = 7 → v = BitVec.ofNat 64 (4 * x.index + s.curCore % 4)) ∧
    (8 ≤ n → n < 12 → v = BitVec.ofNat 64 ((tensorOf l.record 0).extent x.index (s.curCore % 4) (n - 8))) ∧
    (12 ≤ n → n < 16 → v = BitVec.ofNat 64 ((tensorOf l.record 0).org x.index (s.curCore % 4) (n - 12))) ∧
    (n = 16 → v = 0x3F000#64) ∧ (n = 17 → v = l.ident) ∧ (n = 18 → v = BitVec.ofNat 64 l.ctx)

/-- Slot k of the running core is ready as the instruction issues (05 R82, R83): live, its spacing over, and not parked or with the
event of its park delivered. -/
def ReadyAt (s : State) (k : Nat) : Prop :=
  let x := s.slot s.curCore k
  x.live = true ∧ x.readyAt ≤ s.curCoreOf.cycle ∧ ∀ p, x.park = some p → p.woken = true

/-! ## Lane instructions, descriptors and conversions (07, 08) -/

/-- A lane instruction with a destination block: its source check, its calculation, its length and spacing, whether it is a
short word, its sources, its destination, and whether that is a source too. -/
structure LaneForm where
  chk   : SrcCheck
  work  : LaneCalc
  len   : Nat
  delay : Nat
  short : Bool
  src   : List Spec
  dst   : Spec
  readD : Bool

/-- A V-format instruction with two sources, and one with one. -/
def two (chk : SrcCheck) (work : LaneCalc) (delay : Nat) (d a b : Spec) : Option LaneForm :=
  some ⟨chk, work, 4, delay, false, [a, b], d, false⟩

def one (chk : SrcCheck) (work : LaneCalc) (delay : Nat) (d a : Spec) : Option LaneForm :=
  some ⟨chk, work, 4, delay, false, [a], d, false⟩

/-- A lane short word. -/
def brief (chk : SrcCheck) (work : LaneCalc) (readD : Bool) (d a : ShortSpec) : Option LaneForm :=
  some ⟨chk, work, 2, 4, true, [ShortSpec.long a], ShortSpec.long d, readD⟩

/-- The lane instructions with the delays of 08 R164. -/
def laneForm : Instr → Option LaneForm
  | .vadd d a b => two checkNum (calc2 .add) 4 d a b
  | .vsub d a b => two checkNum (calc2 .sub) 4 d a b
  | .vmul d a b => two checkNum (calc2 .mul) 4 d a b
  | .vmin d a b => two checkNum (calc2 .min) 4 d a b
  | .vmax d a b => two checkNum (calc2 .max) 4 d a b
  | .vaxpy d a b => two checkNum (calc2 .axpy) 4 d a b
  | .vfma d a b => some ⟨checkNum, calc3 .fma, 4, 4, false, [a, b], d, true⟩
  | .vfms d a b => some ⟨checkNum, calc3 .fms, 4, 4, false, [a, b], d, true⟩
  | .vdiv d a b => two checkNum (calc2 .div) 16 d a b
  | .vabs d a => one checkNum (calc1 .abs) 4 d a
  | .vneg d a => one checkNum (calc1 .neg) 4 d a
  | .vscl d a => one checkNum (calc1 .scl) 4 d a
  | .vsqrt d a => one checkNum (calc1 .sqrt) 16 d a
  | .vand d a b => two checkBits (calcBits .and) 4 d a b
  | .vor d a b => two checkBits (calcBits .or) 4 d a b
  | .vxor d a b => two checkBits (calcBits .xor) 4 d a b
  | .vandn d a b => two checkBits (calcBits .andn) 4 d a b
  | .vshl d a b => two checkBits (calcBits .shl) 4 d a b
  | .vshr d a b => two checkBits (calcBits .shr) 4 d a b
  | .vsar d a b => two checkBits (calcBits .sar) 4 d a b
  | .vceq d a b => two checkNum (calcCmp .eq) 4 d a b
  | .vclt d a b => two checkNum (calcCmp .lt) 4 d a b
  | .vcle d a b => two checkNum (calcCmp .le) 4 d a b
  | .vsel d a b => two checkNum calcSel 4 d a b
  | .vmov d a => one checkNone calcMov 4 d a
  | .vbcast d a => one checkWidth calcBcast 4 d a
  | .vexp2 d a => one checkNum (calcSpecial .exp2) 12 d a
  | .vlog2 d a => one checkNum (calcSpecial .log2) 12 d a
  | .vrcp d a => one checkNum (calcSpecial .rcp) 12 d a
  | .vrsqrt d a => one checkNum (calcSpecial .rsqrt) 12 d a
  | .vsinpi d a => one checkNum (calcSpecial .sinpi) 12 d a
  | .vcospi d a => one checkNum (calcSpecial .cospi) 12 d a
  | .vtanh d a => one checkNum (calcSpecial .tanh) 12 d a
  | .vsigm d a => one checkNum (calcSpecial .sigm) 12 d a
  | .verf d a => one checkNum (calcSpecial .erf) 12 d a
  | .vradd d a => one checkNum (calcRed .add) 8 d a
  | .vrmax d a => one checkNum (calcRed .max) 8 d a
  | .vrmin d a => one checkNum (calcRed .min) 8 d a
  | .vdot d a b => two checkNum (calcRed .dot) 8 d a b
  | .vperm d a b => two checkPerm calcPerm 4 d a b
  | .vcmpr d a => one checkPerm calcCmpr 4 d a
  | .vscal d a => one checkConv calcScal 4 d a
  | .vaddShort d a => brief checkNum (calc2 .add) true d a
  | .vsubShort d a => brief checkNum (calc2 .sub) true d a
  | .vmulShort d a => brief checkNum (calc2 .mul) true d a
  | .vfmaShort d a => brief checkNum calcFmaShort true d a
  | .vminShort d a => brief checkNum (calc2 .min) true d a
  | .vmaxShort d a => brief checkNum (calc2 .max) true d a
  | .vmovShort d a => brief checkNone calcMov false d a
  | .vandShort d a => brief checkBits (calcBits .and) true d a
  | .vorShort d a => brief checkBits (calcBits .or) true d a
  | .vxorShort d a => brief checkBits (calcBits .xor) true d a
  | .vabsShort d a => brief checkNum (calc1 .abs) false d a
  | .vnegShort d a => brief checkNum (calc1 .neg) false d a
  | .vselShort d a => brief checkNum calcSel true d a
  | .vshlShort d a => brief checkBits (calcBits .shl) true d a
  | .vshrShort d a => brief checkBits (calcBits .shr) true d a
  | _ => none

/-- Evaluate specifiers one after another. -/
def evalRefs (s : State) : List Spec → State × List Ref
  | [] => (s, [])
  | a :: as =>
    let x := s.operand a 0 64
    let r := evalRefs x.1 as
    (r.1, x.2 :: r.2)

/-- The operands of a lane instruction in the order of 03 R30: S1, S2, D in the V format; d, then s in a short word. The state
after their steps, the places to read, and the destination. -/
def laneRefs (f : LaneForm) (s : State) : State × List Ref × Ref :=
  if f.short then
    let z := s.operand f.dst 0 64
    let x := evalRefs z.1 f.src
    (x.1, if f.readD then z.2 :: x.2 else x.2, z.2)
  else
    let x := evalRefs s f.src
    let z := x.1.operand f.dst 0 64
    (z.1, if f.readD then x.2 ++ [z.2] else x.2, z.2)

/-- The check of its destination that a short word makes before it reads (03 R30). -/
def checkedFirst (short : Bool) (q : State) (d : Ref) : Except Stop State :=
  match short, d with
  | true, .mem a => q.laneDest a
  | _, _ => .ok q

/-- A lane instruction whose ports can all complete and whose sources are read, with the blocks read (08 R150, 03 R32). -/
def LaneReady (f : LaneForm) (s u : State) (d : Ref) (xs : List Src) : Prop :=
  ∃ t reads q q', laneRefs f s = (t, reads, d) ∧ t.needPorts (blockUses reads d) = .ok q ∧ checkedFirst f.short q d = .ok q' ∧
    q'.readSrcs f.chk [] reads = .ok (u, xs)

/-- The destination is a block of a buffer that accepts the write, on which no watchpoint stands, and which holds the whole of every
word in error that it touches. -/
def DestBuffer (u : State) (d : Ref) (k : Nat) : Prop :=
  ∃ a z w b g off, d = .mem a ∧ u.recall = none ∧ u.laneLocate a = .ok (z, .buf w b g off) ∧ u.strikes b g off 64 = false ∧
    k = bufKey b g off ∧ ∀ f ∈ u.flaws, f.2 = true → onFlaw k 64 f = true → coversFlaw k 64 true f = true

/-- The cycle in which a slot is ready again: its spacing runs from its issue (05 R82). -/
def readyAfter (s : State) (delay : Nat) : Nat := max s.curCoreOf.cycle (s.cur.from s.curCoreOf.cycle + delay)

/-- Only a reduction and vcmpr write a (08 R160, R161). -/
def writesA : Instr → Bool
  | .vradd .. | .vrmax .. | .vrmin .. | .vdot .. | .vcmpr .. => true
  | _ => false

/-- A lane of the LANEA and LANES instructions and of vsel before it is rounded into vf's format (08 R154, R157, R159, R163), from
the lanes of its sources; vf.rmode RDN, a, and the number of the lane. -/
def laneRow : Instr → Option (Bool → Word → Nat → List Machine.Num → Machine.Num)
  | .vadd .. | .vaddShort .. => some fun down _ _ l => match l with
    | [x, y] => x.add down y
    | _ => .nan
  | .vsub .. | .vsubShort .. => some fun down _ _ l => match l with
    | [x, y] => x.add down y.negate
    | _ => .nan
  | .vmul .. | .vmulShort .. => some fun _ _ _ l => match l with
    | [x, y] => x.mul y
    | _ => .nan
  | .vmin .. | .vminShort .. => some fun _ _ _ l => match l with
    | [x, y] => x.least y
    | _ => .nan
  | .vmax .. | .vmaxShort .. => some fun _ _ _ l => match l with
    | [x, y] => x.greatest y
    | _ => .nan
  | .vaxpy .. => some fun down a _ l => match l with
    | [x, y] => ((num32 a).mul x).add down y
    | _ => .nan
  | .vfma .. => some fun down _ _ l => match l with
    | [x, y, z] => z.add down (x.mul y)
    | _ => .nan
  | .vfms .. => some fun down _ _ l => match l with
    | [x, y, z] => z.add down (x.mul y).negate
    | _ => .nan
  | .vfmaShort .. => some fun down a _ l => match l with
    | [z, x] => z.add down (x.mul (num32 a))
    | _ => .nan
  | .vdiv .. => some fun _ _ _ l => match l with
    | [x, y] => x.quot y
    | _ => .nan
  | .vscl .. => some fun _ a _ l => match l with
    | [x] => (num32 a).mul x
    | _ => .nan
  | .vabs .. | .vabsShort .. => some fun _ _ _ l => match l with
    | [x] => x.absolute
    | _ => .nan
  | .vneg .. | .vnegShort .. => some fun _ _ _ l => match l with
    | [x] => x.negate
    | _ => .nan
  | .vsel .. | .vselShort .. => some fun _ a j l => match l with
    | [x, y] => if a.getLsbD (j % 64) then x else y
    | _ => .nan
  | .vsqrt .. => some fun _ _ _ l => (l.headD .nan).root
  | .vexp2 .. => some fun _ _ _ l => special .exp2 (l.headD .nan)
  | .vlog2 .. => some fun _ _ _ l => special .log2 (l.headD .nan)
  | .vrcp .. => some fun _ _ _ l => special .rcp (l.headD .nan)
  | .vrsqrt .. => some fun _ _ _ l => special .rsqrt (l.headD .nan)
  | .vsinpi .. => some fun _ _ _ l => special .sinpi (l.headD .nan)
  | .vcospi .. => some fun _ _ _ l => special .cospi (l.headD .nan)
  | .vtanh .. => some fun _ _ _ l => special .tanh (l.headD .nan)
  | .vsigm .. => some fun _ _ _ l => special .sigm (l.headD .nan)
  | .verf .. => some fun _ _ _ l => special .erf (l.headD .nan)
  | _ => none

/-- The comparisons of real values (08 R159): false with NaN. -/
def cmpRow : Instr → Option (Machine.Num → Machine.Num → Bool)
  | .vceq .. => some fun x y => !x.isNaN && !y.isNaN && x.cmp y == .eq
  | .vclt .. => some fun x y => !x.isNaN && !y.isNaN && x.cmp y == .lt
  | .vcle .. => some fun x y => !x.isNaN && !y.isNaN && x.cmp y != .gt
  | _ => none

/-- A finite number is a multiple of 2^q. -/
def OnStep (q : Int) : Machine.Num → Prop
  | .fin _ _ e => q ≤ e
  | _ => False

/-- A finite number in units of 2^q. -/
def inSteps (q : Int) : Machine.Num → Int
  | .fin n m e => (if n then -1 else 1) * (m * 2 ^ (e - q).toNat : Nat)
  | _ => 0

/-- A finite number does not exceed the largest finite value of a format under a scale. -/
def Fits (g : Fmt) (sc : Nat) : Machine.Num → Prop
  | .fin _ m e => cmpMag m e g.top.1 (g.top.2 + sc - 127) ≠ .gt
  | _ => True

/-- A finite number other than zero. -/
def Counts : Machine.Num → Prop
  | .fin _ m _ => m ≠ 0
  | _ => False

/-- The scale that auto scale chooses for a block of exact values (07 R127): 127 where none counts, else the smallest under which
all fit, or 254. -/
def AutoScale (g : Fmt) (l : List Machine.Num) (sc : Nat) : Prop :=
  ((∀ x ∈ l, ¬Counts x) ∧ sc = 127) ∨
    ((∃ x ∈ l, Counts x) ∧ sc ≤ 254 ∧ ((∀ x ∈ l, Fits g sc x) ∨ sc = 254) ∧ ∀ t < sc, ∃ x ∈ l, ¬Fits g t x)

/-- The scale of a destination block: fixed, or chosen for its values (07 R126, R127). -/
def ScaleFor (vf : BitVec 19) (g : Fmt) (l : List Machine.Num) (sc : Nat) : Prop :=
  if vfAuto vf then AutoScale g l sc else sc = vfScale vf

/-- The block at k holds exact values, each rounded once into a format (07 R122, R125 to R127); raised tells whether it sets E. -/
def ConvertedAt (s v : State) (k : Nat) (g : Fmt) (code : Nat) (l : List Machine.Num) (raised : Bool) : Prop :=
  ∃ sc, ScaleFor s.cur.vf g l sc ∧
    let lane := fun j => g.convert (vfMode s.cur.vf) sc (l.getD j .nan);
    (sc = 255 ∨ (∃ j < l.length, (lane j).poison = true) → (blockAt v.mem k).scale = 255) ∧
    (sc ≠ 255 → (∀ j < l.length, (lane j).poison = false) →
      (blockAt v.mem k).fmt = BitVec.ofNat 8 code ∧ (blockAt v.mem k).scale = BitVec.ofNat 8 sc ∧
      ∀ j < l.length, elemAt (blockAt v.mem k).data g.width j = (lane j).bits % 2 ^ g.width) ∧
    (raised = true ↔ sc = 255 ∨ ∃ j < l.length, (lane j).poison = true ∨ (lane j).e = true)

/-- E after an instruction: it was set, or is raised. -/
def RaisesE (s v : State) (raised : Bool) : Prop := flagE v.flags = (flagE s.flags || raised)

/-- An exact sum (08 R155, R160): of finite terms the sum itself, of any NaN NaN; a zero sum has the sign that all terms share where
all are zeros, else the sign that the mode gives. -/
def SumOf (down : Bool) (l : List Machine.Num) (r : Machine.Num) : Prop :=
  (.nan ∈ l → r = .nan) ∧
    ∀ q, (∀ x ∈ l, OnStep q x) → OnStep q r ∧ inSteps q r = (l.map (inSteps q)).sum ∧
      (∀ b, (∀ x ∈ l, x.isZero = true ∧ x.sign = b) → r.sign = b) ∧
      (inSteps q r = 0 → (¬∃ b, ∀ x ∈ l, x.isZero = true ∧ x.sign = b) → r.sign = down)

/-- The most of some numbers (08 R156, R160): NaN is absent, and a zero of the sign that is more goes before the other. -/
def MostOf (beyond : Ordering) (sign : Bool) (l : List Machine.Num) (r : Machine.Num) : Prop :=
  ((∀ x ∈ l, x = .nan) ∧ r = .nan) ∨
    (r ∈ l ∧ r ≠ .nan ∧ ∀ x ∈ l, x ≠ .nan → x.cmp r ≠ beyond ∧
      (x.isZero = true → r.isZero = true → x.sign = sign → r.sign = sign))

/-- The exact result of a reduction (08 R160). -/
def ReducesTo (i : Instr) (down : Bool) (l : List (List Machine.Num)) (r : Machine.Num) : Prop :=
  match i, l with
  | .vradd .., [x] => SumOf down x r
  | .vdot .., [x, y] => SumOf down (List.zipWith Machine.Num.mul x y) r
  | .vrmax .., [x] => MostOf .gt false x r
  | .vrmin .., [x] => MostOf .lt true x r
  | _, _ => False

/-- A zero, and one, of a sign. -/
def IsZero (n : Bool) (x : Machine.Num) : Prop := x.isZero = true ∧ x.sign = n
def IsOne (n : Bool) (x : Machine.Num) : Prop := OnStep 0 x ∧ inSteps 0 x = if n then -1 else 1

/-- The special values of the table of 08 R157. -/
def SpecialValues : Prop :=
  (∀ f, special f .nan = .nan) ∧ IsZero false (special .exp2 (.inf true)) ∧ special .exp2 (.inf false) = .inf false ∧
  (∀ n e, special .log2 (.fin n 0 e) = .inf true) ∧ (∀ m e, m ≠ 0 → special .log2 (.fin true m e) = .nan) ∧
  special .log2 (.inf false) = .inf false ∧ special .log2 (.inf true) = .nan ∧
  (∀ n e, special .rcp (.fin n 0 e) = .inf n) ∧ (∀ n, IsZero n (special .rcp (.inf n))) ∧
  (∀ n e, special .rsqrt (.fin n 0 e) = .inf n) ∧ (∀ m e, m ≠ 0 → special .rsqrt (.fin true m e) = .nan) ∧
  IsZero false (special .rsqrt (.inf false)) ∧ special .rsqrt (.inf true) = .nan ∧
  (∀ n, special .sinpi (.inf n) = .nan ∧ special .cospi (.inf n) = .nan) ∧
  (∀ n m e, 0 ≤ e ∨ m % 2 ^ (-e).toNat = 0 → IsZero n (special .sinpi (.fin n m e))) ∧
  (∀ n m, m % 2 = 1 → IsZero false (special .cospi (.fin n m (-1)))) ∧
  (∀ n, IsOne n (special .tanh (.inf n)) ∧ IsOne n (special .erf (.inf n))) ∧
  IsZero false (special .sigm (.inf true)) ∧ IsOne false (special .sigm (.inf false))

/-- vmov copies a poisoned block; every other lane instruction answers poison with poison (08 R153, R159). -/
def copiesPoison : Instr → Bool
  | .vmov .. | .vmovShort .. => true
  | _ => false

/-- The reductions. -/
def reduces : Instr → Bool
  | .vradd .. | .vrmax .. | .vrmin .. | .vdot .. => true
  | _ => false

/-- The bit instructions on w-bit patterns (08 R158). -/
def bitRow : Instr → Option (Nat → Nat → Nat → Nat)
  | .vand .. | .vandShort .. => some fun _ x y => x &&& y
  | .vor .. | .vorShort .. => some fun _ x y => x ||| y
  | .vxor .. | .vxorShort .. => some fun _ x y => x ^^^ y
  | .vandn .. => some fun w x y => x &&& (2 ^ w - 1 - y)
  | .vshl .. | .vshlShort .. => some fun w x y => x * 2 ^ y % 2 ^ w
  | .vshr .. | .vshrShort .. => some fun _ x y => x / 2 ^ y
  | .vsar .. => some fun w x y => ((if x < 2 ^ (w - 1) then (x : Int) else x - 2 ^ w) / 2 ^ y % 2 ^ w).toNat
  | _ => none

/-- An unpoisoned source block of 64 bytes. -/
def Plain (x : Src) : Prop := x.block.data.length = 64 ∧ x.block.scale ≠ 255

/-- How many of the lanes below n vcmpr keeps (08 R161). -/
def keptBelow (s : State) (n : Nat) : Nat := ((List.range n).filter fun j => s.acc.getLsbD j).length

/-- A whole block of a buffer, none of its words in an error that the block does not cover. -/
def PlainBlock (s : State) (k : Nat) : Prop :=
  k % 64 = 0 ∧ k + 64 ≤ descBase ∧ ∀ f ∈ s.flaws, f.2 = true → onFlaw k 64 f = true → coversFlaw k 64 true f = true

/-- A conversion of 07 R134 to R139: its length, whether it is a short word, its source check, whether vf must name an integer
format, its sources, its destination, the check of S2 and the conversion. -/
structure ConvForm where
  len     : Nat
  short   : Bool
  chk     : SrcCheck
  needInt : Bool
  src     : List Spec
  dst     : Spec
  chk2    : State → Nat → Src → Except Stop Unit
  conv    : Option Block → Fmt → Byte → BitVec 19 → List Src → Nat → List (Block × Bool)

def convForm : Instr → Option ConvForm
  | .vcvt d a => some ⟨4, false, checkConv, false, [a], d, checkFree, convPlain⟩
  | .vqnt d a b => some ⟨4, false, checkConv, true, [a, b], d, checkZeroQ, convQuant⟩
  | .vdeq d a b => some ⟨4, false, checkInt, false, [a, b], d, checkZeroD, convDeq⟩
  | .vcvtShort d a => some ⟨2, true, checkConv, false, [ShortSpec.long a], ShortSpec.long d, checkFree, convPlain⟩
  | _ => none

/-- The operands of a conversion: d first in a short word. -/
def convRefs (f : ConvForm) (s : State) : State × List Ref × Ref :=
  if f.short then
    let z := s.operand f.dst 0 64
    let x := evalRefs z.1 f.src
    (x.1, x.2, z.2)
  else
    let x := evalRefs s f.src
    let z := x.1.operand f.dst 0 64
    (z.1, x.2, z.2)

/-- The block at k holds values quantised with their zero points (07 R138): rounded to an integer, the zero point added, held to the
range of the format; NaN poisons, and an infinity stands for the end of the range. -/
def QuantisedAt (s v : State) (k : Nat) (g : Fmt) (l : List (Machine.Num × Int)) (raised : Bool) : Prop :=
  ∃ sc, ScaleFor s.cur.vf g (l.map Prod.fst) sc ∧
    let q := fun j => match (l.getD j (.nan, 0)).1 with
      | .nan => 0
      | .inf neg => if neg then g.intLo else g.intHi
      | .fin neg m e => (if neg then -1 else 1) * (roundTo (vfMode s.cur.vf) neg m (e + 127 - sc) 0 : Int);
    let r := fun j => q j + (l.getD j (.nan, 0)).2;
    (sc = 255 ∨ (∃ x ∈ l, x.1 = .nan) → (blockAt v.mem k).scale = 255) ∧
    (sc ≠ 255 → (∀ x ∈ l, x.1 ≠ .nan) →
      (blockAt v.mem k).fmt = BitVec.ofNat 8 (vfFmt s.cur.vf) ∧ (blockAt v.mem k).scale = BitVec.ofNat 8 sc ∧
      ∀ j < l.length, intAt (blockAt v.mem k) j = max g.intLo (min g.intHi (r j))) ∧
    (raised = true ↔ sc = 255 ∨ (∃ x ∈ l, x.1 = .nan ∨ ∃ n, x.1 = .inf n) ∨
      ∃ j < l.length, r j < g.intLo ∨ g.intHi < r j)

/-- The real values of the blocks of S1 (07 R121, R135); for vdeq (q − z) × 2^(s − 127), exact (07 R139). -/
def valuesOf (i : Instr) (xs : List Src) (z : Option Src) : List Machine.Num :=
  xs.flatMap fun x => match i, z with
    | .vdeq .., some y => (List.range (lanesOf (widthOf x.block.fmt.toNat))).map fun j =>
      let v := intAt x.block j - intAt y.block j;
      .fin (decide (v < 0)) v.natAbs ((x.block.scale.toNat : Int) - 127)
    | _, _ => match fmtOf x.block.fmt.toNat with
      | some g => blockNums g x.block
      | none => []

/-- Destination block j of a conversion: its run of the values, with the zero points of vqnt (07 R136, R138, R139). -/
def ConvertsAt (i : Instr) (s v : State) (k j : Nat) (g : Fmt) (xs : List Src) (z : Option Src) (raised : Bool) : Prop :=
  let n := lanesOf g.width;
  let l := ((valuesOf i xs z).drop (j * n)).take n;
  match i, z with
  | .vqnt .., some y => QuantisedAt s v k g (l.zip ((List.range n).map (intAt y.block))) raised
  | _, _ => ConvertedAt s v k g (vfFmt s.cur.vf) l raised

/-! ## Tiles, the matrix array and the accumulators (13) -/

/-- u stands where s stood after an instruction of 4 bytes whose spacing is delay. -/
def Passed (s u : State) (delay : Nat) : Prop :=
  u.cur.pc = s.cur.pc + 4 ∧ u.cur.readyAt = readyAfter s delay ∧ u.cur.park = none

/-- u stands past an instruction whose slot stays parked for a transfer of n cycles (13 R246, R262). -/
def Moving (s u : State) (n : Nat) : Prop :=
  u.cur.pc = s.cur.pc + 4 ∧ ∃ p, u.cur.park = some p ∧ p.reason = .mtx ∧ p.wake = .till (s.curCoreOf.cycle + max 4 n)

/-- Registers of the slot that tile and matrix instructions leave: the flags but E, lc, vf; and a where said. -/
def SlotKept (s u : State) : Prop :=
  (∀ j < 7, j ≠ 5 → u.flags.getLsbD j = s.flags.getLsbD j) ∧ u.cur.lc = s.cur.lc ∧ u.cur.vf = s.cur.vf ∧
    u.cur.priv = s.cur.priv

/-- Every byte outside the 64 rows of tile x of the core, and their scales, reads as before. -/
def OnlyTile (s u : State) (x : Nat) : Prop :=
  ∀ j, ¬(tileKey s.curCore x ≤ j ∧ j < tileKey s.curCore x + 4096) →
    (∀ r < 64, j ≠ scaleKey (tileRow s.curCore x r) ∧ j ≠ fmtKey (tileRow s.curCore x r)) → SameByte s u j

/-- Cell (i, j) of accumulator tile c of core g (13 R247, R248). -/
def cellOf (s : State) (g c i j : Nat) : Nat := mread s.mem (cellKey g c i + 7 * j) 7

/-- The cells of accumulator tile c of core g: every byte outside them reads as before. -/
def OnlyCells (s u : State) (g c : Nat) : Prop := SameBytesBut s u (cellKey g c 0) 0x7000

/-- A number rounded RNE to an a56 cell (13 R247). -/
def a56Of (x : Machine.Num) : Nat := (fmtCell.convert 0 127 x).bits % 2 ^ 56

/-- The additive operation of a semiring on two cells (13 R253, R264). -/
def AddsCell (sr : Nat) (isInt : Bool) (v w z : Nat) : Prop :=
  (sr = 4 → z = if v ≠ 0 ∨ w ≠ 0 then 1 else 0) ∧
  (isInt = true → (sr = 0 → cellInt z = max (-(2 ^ 55)) (min (2 ^ 55 - 1) (cellInt v + cellInt w))) ∧
    (sr = 1 → cellInt z = min (cellInt v) (cellInt w)) ∧ (sr = 2 ∨ sr = 3 → cellInt z = max (cellInt v) (cellInt w))) ∧
  (isInt = false → (sr = 0 → z = a56Of ((fmtCell.read v).add false (fmtCell.read w))) ∧
    (sr ∈ [1, 2, 3] → (fmtCell.read v = .nan → z = v) ∧
      (fmtCell.read v ≠ .nan → ∃ y, z = a56Of y ∧
        if sr = 1 then MostOf .lt true [fmtCell.read v, fmtCell.read w] y
        else MostOf .gt false [fmtCell.read v, fmtCell.read w] y)))

/-! ## Blocks in global memory, copies, quantisation commands and atomics (07 R147 to R149, 09, 10 R194 to R202) -/

/-- Every uncorrectable error on the 64 bytes from key k lies in them. -/
def WholeErrors (u : State) (k : Nat) : Prop := ∀ f ∈ u.flaws, f.2 = true → onFlaw k 64 f = true → coversFlaw k 64 true f = true

/-- The slot that runs waits for an answer from memory: it has not passed its instruction. -/
def Answering (s u : State) : Prop :=
  u.cur.park.map Park.reason = some .mem ∧ u.cur.pc = s.cur.pc ∧ RestOfSlot s s u

/-- The descriptor of a copy read from L, and the engine that its source names, as cpy and cpyr find them (09 R177, R186). -/
def CopyRead (s v : State) (k : Nat) (sp : Spec) (i : Int) (a : Word) (d : List Byte) : Prop :=
  ∃ t u l, s.address sp i 8 = .ok (t, a) ∧ t.locate a 128 128 .read (fun x => x == 0) false false = .ok (u, l) ∧
    u.descLoads a 0 16 = .ok (v, d) ∧ k < 8

def CopyEngine (v x : State) (k : Nat) (d : List Byte) (e : Nat) : Prop :=
  ∃ w r, v.once (v.tokIdle (tget Tok.idle v.cur.tok k).busy) = .ok w ∧ r.toNat = e ∧
    w.access none (fun x => (x, .num (x.engineFor x.curCore (x.ctxOf x.curCore) (field d 0 8)))) = .ok (x, r)

/-- The scalar atomics (10 R194): funct6, size, operand. -/
def amoForm : Instr → Option (Nat × Nat × Spec × Int)
  | .aadd s i => some (0, 8, s, i.toInt)
  | .aand s i => some (1, 8, s, i.toInt)
  | .aor s i => some (2, 8, s, i.toInt)
  | .axor s i => some (3, 8, s, i.toInt)
  | .amin s i => some (4, 8, s, i.toInt)
  | .amax s i => some (5, 8, s, i.toInt)
  | .aminn s i => some (6, 8, s, i.toInt)
  | .amaxn s i => some (7, 8, s, i.toInt)
  | .aswp s i => some (8, 8, s, i.toInt)
  | .acas s i => some (9, 8, s, i.toInt)
  | .aaddf s i => some (10, 8, s, i.toInt)
  | .aaddW s i => some (0, 4, s, i.toInt)
  | .aandW s i => some (1, 4, s, i.toInt)
  | .aorW s i => some (2, 4, s, i.toInt)
  | .axorW s i => some (3, 4, s, i.toInt)
  | .aminW s i => some (4, 4, s, i.toInt)
  | .amaxW s i => some (5, 4, s, i.toInt)
  | .aminnW s i => some (6, 4, s, i.toInt)
  | .amaxnW s i => some (7, 4, s, i.toInt)
  | .aswpW s i => some (8, 4, s, i.toInt)
  | .acasW s i => some (9, 4, s, i.toInt)
  | .aaddfW s i => some (10, 4, s, i.toInt)
  | _ => none

/-- The word an atomic leaves, from the old word, the low bytes v of a and, for acas, the expected value x (10 R197); the binary
sum of aaddf is the model's floatAdd. -/
def AmoRow (funct size old v x new : Nat) : Prop :=
  let int := fun n : Nat => (BitVec.ofNat (8 * size) n).toInt
  (funct = 0 → new = (old + v) % 2 ^ (8 * size)) ∧ (funct = 1 → new = old &&& v) ∧ (funct = 2 → new = old ||| v) ∧
    (funct = 3 → new = old ^^^ v) ∧ (funct = 4 → (new = old ∨ new = v) ∧ int new = min (int old) (int v)) ∧
    (funct = 5 → (new = old ∨ new = v) ∧ int new = max (int old) (int v)) ∧ (funct = 6 → new = min old v) ∧
    (funct = 7 → new = max old v) ∧ (funct = 8 → new = v) ∧ (funct = 9 → new = if old = x then v else old) ∧
    (funct = 10 → new = floatAdd size old v)

/-- The key of the word that an atomic updates in this package: in a buffer under no watchpoint, or in device memory. -/
def AtomicSpot (u : State) (l : Loc) (k size : Nat) : Prop :=
  k + size ≤ descBase ∧ ((∃ w b g off, l = .buf w b g off ∧ k = bufKey b g off ∧ u.strikes b g off size = false) ∨
    ∃ e va, l = .glob (.here k) e va)

/-- What an atomic has read before it acts (03 R31, 10 R197): its address, and for acas the expected value at p7, after the poison
check of the word itself. -/
def AtomicRead (funct size : Nat) (sp : Spec) (im : Int) (s t u : State) (a : Word) (l : Loc) (x : Nat) : Prop :=
  s.address sp im size = .ok (t, a) ∧ ∃ v, t.atomicLoc a size size = .ok (v, l) ∧ (funct ≠ 9 → u = v ∧ x = 0) ∧
    (funct = 9 → ∃ w, v.targetFirst a size l = .ok w ∧ w.load (w.ptr 7) size = .ok (u, x))

/-- The vector atomics: their number and operands. -/
def vamoForm : Instr → Option (Nat × Spec × Spec)
  | .vaadd d a => some (0, d, a)
  | .vamin d a => some (1, d, a)
  | .vamax d a => some (2, d, a)
  | _ => none

def scatterForm : Instr → Option (Nat × Spec × Spec × Spec)
  | .vaaddS d a b => some (0, d, a, b)
  | .vaminS d a b => some (1, d, a, b)
  | .vamaxS d a b => some (2, d, a, b)
  | _ => none

/-- A block takes a vector atomic of a source: its format is numeric and, unless the source is a, of the source's width (10 R199).
-/
def TakesLanes (u : State) (x : Src) (k : Nat) : Prop :=
  ∃ f, fmtOf (blockAt u.mem k).fmt.toNat = some f ∧ (x.alpha = true ∨ widthOf x.block.fmt.toNat = f.width)

/-- The block that a vector atomic updates in this package, in a buffer under no watchpoint or in device memory, in no error. -/
def VectorSpot (u : State) (x : Src) (l : Loc) (k : Nat) : Prop :=
  k % 64 = 0 ∧ k + 64 ≤ descBase ∧ NoFlaw u k 64 ∧ TakesLanes u x k ∧
    ((∃ w b g off, l = .buf w b g off ∧ k = bufKey b g (off / 64 * 64) ∧ u.strikes b g (off / 64 * 64) 64 = false) ∨
      ∃ pa e va, l = .glob (.here pa) e va ∧ k = pa / 64 * 64)

/-! ## Synchronisation, leases and the fabric (06, 10, 11, 16) -/

/-- Every flag but F. -/
def OnlyF (s u : State) : Prop := ∀ j < 7, j ≠ 4 → u.flags.getLsbD j = s.flags.getLsbD j

/-- What an instruction leaves that changes neither memory nor a register outside its slot, nor a, lc and vf in it. -/
def Quiet (s u : State) : Prop :=
  Kept s u ∧ SameBytes s u ∧ u.acc = s.acc ∧ u.cur.lc = s.cur.lc ∧ u.cur.vf = s.cur.vf ∧ u.cur.priv = s.cur.priv

/-- The operand of a watch names the word at w of the slot's own L (10 R204). -/
def WatchWord (s t : State) (sp : Spec) (i : BitVec 8) (w : Nat) : Prop :=
  ∃ a z l, s.address sp i.toInt 8 = .ok (t, a) ∧ t.locate a 8 8 .read (fun tag => tag == 0) false true = .ok (z, l) ∧ w = offOf a

/-- Nothing outside the slot changes unless lease instructions are traced (21 R355, R356). -/
def LeaseQuiet (s u : State) : Prop := s.curCoreOf.tctl.getLsbD 2 = false → Kept s u ∧ SameBytes s u

/-- What a home's reply leaves: life is E less the time here, 200 ns less for a home on another chip (06 R107). -/
def lifeLeft (s : State) (p : HomeRep) : Word := BitVec.ofNat 64 (p.e - s.dt - (if p.chip = s.chip then 0 else 200))

/-- The slot holds the reply p of the home for an instruction that reads n words (06 R102, R103); t is the state with its operand
stepped. -/
def Answered (s t : State) (sp : Spec) (i : Int) (n : Nat) (p : HomeRep) : Prop :=
  ∃ a u ws, s.address sp i 8 = .ok (t, a) ∧ t.words a n = .ok (u, ws) ∧
    (u.recall = some (.home p) ∨ u.recall = some .done ∧ (u.note .done).recall = some (.home p))

/-- A path that destination slot k may send n bytes along now, aligned (16 R300, R302, 17 R320). -/
def MaySend (s : State) (k flits n align : Nat) (p : PathSrc) : Prop :=
  let d := s.dslot s.curCore k
  d.bound = true ∧ (flits ≤ d.allowance ∨ d.inFl = 0) ∧ s.behind (.ds k) = false ∧ s.pathOf d.path = some p ∧
    d.cursor.toNat % align = 0 ∧ (n = 0 ∨ d.cursor.toNat + n ≤ p.size) ∧ p.gone = false ∧ s.dt + 2000 < p.ed

/-- A message with body b was injected at destination slot k (16 R296, R302): it is kept until it is answered, with the path's
sequence number and the cursor as its offset; the flits in flight, the cursor, the path's next sequence number, nothing else of
the destination slots. -/
def Injected (s u : State) (k flits n : Nat) (b : PathBody) (p : PathSrc) : Prop :=
  let d := s.dslot s.curCore k
  u.dslot s.curCore k = { d with inFl := d.inFl + flits, cursor := d.cursor + BitVec.ofNat 64 n } ∧
    (∀ g j, ¬(g = s.curCore ∧ j = k) → u.dslot g j = s.dslot g j) ∧
    (∃ f : Flight, (u.pathOf p.h).map (fun x => (x.seq, x.unacked)) = some ((p.seq + 1) % 2 ^ 32, p.unacked ++ [f]) ∧
      f.owner = s.curCore ∧ f.msg.path = p.h ∧ f.msg.seq = p.seq ∧ f.msg.chip = s.chip ∧ f.msg.core = s.curCore ∧ f.msg.slot = s.curSlot ∧ f.msg.ds = k ∧
      f.msg.off = d.cursor.toNat ∧ f.msg.body = b ∧ f.msg.tagOk = true) ∧
    (∀ h, h ≠ p.h → u.pathOf h = s.pathOf h) ∧ SameBytes s u

/-- The slot holds the answer p of a dsend at destination slot k: its own checks', or that of its offer; t is the state with its
operand stepped. -/
def OfferAnswered (s t : State) (k : Nat) (sp : Spec) (i : Int) (p : HomeRep) : Prop :=
  ∃ a u ws v, s.address sp i 8 = .ok (t, a) ∧ t.words a 2 = .ok (u, ws) ∧ u.once (u.bound k) = .ok v ∧
    (v.recall = some (.home p) ∨ ∃ r, (r = .done ∨ ∃ h, r = .num h) ∧ v.recall = some r ∧ (v.note r).recall = some (.home p))

/-! ## System registers, exceptions and debug (15, 21) -/

/-- Past an instruction of four bytes with nothing else changed: the slot after it. -/
def past (s : State) (x : Slot) : Slot := x.done s.curCoreOf.cycle 4 4

/-- What a register of the map reads as (15 R271, 05 R83, 06 R90, 13 R268, 21 R342, R344, R355, R358). The stall counters
0x0C0 to 0x0C7 are free values (21 R358). -/
def RegRow (s : State) (n : Nat) (v : Word) : Prop :=
  let x := s.cur
  let c := s.curCoreOf
  let cl := s.cluster (clusterOf s.curCore)
  (n = 0x000 → v = BitVec.ofNat 64 s.dt) ∧ (n = 0x001 → v = s.flags.zeroExtend 64) ∧ (n = 0x002 → v = x.vf.zeroExtend 64) ∧
    (∀ j < 8, n = 0x010 + j → v = (x.stepOf j).zeroExtend 64) ∧ (n = 0x020 → v = c.live.zeroExtend 64) ∧
    (0x040 ≤ n → n < 0x053 → v = tget 0 c.ctr n) ∧
    (∀ j < 6, n = 0x060 + j → v = BitVec.ofNat 64 (s.quotaLeft (s.ctxOf s.curCore) (j + 2))) ∧
    (n = 0x088 → v = c.tbase) ∧ (n = 0x089 → v = c.tctl.zeroExtend 64) ∧ (n = 0x08A → v = c.twr) ∧ (n = 0x08B → v = c.tdrop) ∧
    (0x0D0 ≤ n → n < 0x0D6 → v = tget 0 s.dieCtr (dieOf s.curCore * 256 + n)) ∧
    (n = 0x400 → v = x.a) ∧ (n = 0x401 → v = tget 0 x.p 7) ∧ (n = 0x402 → v = (tget (0 : BitVec 16) x.step 7).zeroExtend 64) ∧
    (n = 0x403 → v = x.f.zeroExtend 64) ∧ (n = 0x404 → v = c.sprot.zeroExtend 64) ∧ (n = 0x410 → v = c.tvec) ∧
    (n = 0x411 → v = x.epc) ∧ (n = 0x412 → v = x.cause) ∧ (n = 0x413 → v = x.faddr) ∧ (n = 0x414 → v = x.rdet) ∧
    (n = 0x415 → v = c.kstk) ∧ (n = 0x420 → v = c.bell) ∧ (n = 0x422 → v = 0) ∧ (n = 0x440 → v = cl.dctl) ∧
    (n = 0x441 → v = 0) ∧ (∀ j < 4, n = 0x448 + j → v = tget 0 cl.wpa j) ∧ (∀ j < 4, n = 0x44C + j → v = tget 0 cl.wpc j)

/-- The registers of the slot that mts writes, with the value it writes: reserved fields keep theirs (00 R4, 15 R271). -/
def slotWrite (x : Slot) (n : Nat) (v : Word) : Option Slot :=
  if n = 0x001 then some (x.setFlags (v.truncate 7))
  else if n = 0x002 then some { x with vf := v.truncate 19 }
  else if 0x010 ≤ n ∧ n < 0x018 then some (x.setStep (n - 0x010) (v.truncate 16))
  else if n = 0x400 then some { x with a := v }
  else if n = 0x401 then some { x with p := tput x.p 7 v }
  else if n = 0x402 then some { x with step := tput x.step 7 (v.truncate 16) }
  else if n = 0x403 then some { x with f := v.truncate 7 }
  else if n = 0x411 then some { x with epc := v }
  else if n = 0x412 then some { x with cause := v &&& 0x1FFFF#64 }
  else if n = 0x413 then some { x with faddr := v }
  else if n = 0x414 then some { x with rdet := v }
  else none

/-- The registers of the core that mts writes. -/
def coreWrite (c : Core) (n : Nat) (v : Word) : Option Core :=
  if n = 0x020 then some { c with live := v.truncate 20 }
  else if n = 0x088 then some { c with tbase := v }
  else if n = 0x089 then some { c with tctl := (v &&& 0xFF1F#64).truncate 16, twr := 0, tdrop := 0, sample := 0 }
  else if n = 0x404 then some { c with sprot := v.truncate 16 }
  else if n = 0x410 then some { c with tvec := v }
  else if n = 0x415 then some { c with kstk := v }
  else if n = 0x420 then some { c with bell := v }
  else none

/-- The debug registers of the cluster that mts writes (21 R342, R344). -/
def clusterWrite (c : Cluster) (n : Nat) (v : Word) : Option Cluster :=
  if n = 0x440 then some { c with dctl := v &&& 0x38#64 }
  else if 0x448 ≤ n ∧ n < 0x44C then some { c with wpa := tput c.wpa (n - 0x448) (v &&& 0x3FFFF0#64) }
  else if 0x44C ≤ n ∧ n < 0x450 then some { c with wpc := tput c.wpc (n - 0x44C) (v &&& 0xFFFF07#64) }
  else none

/-- No slot of a cluster but one has a write accepted that it has still to perform. -/
def OwedOnly (s : State) (c : Nat) (mine : Option (Nat × (Nat × Slot))) : Prop :=
  ∀ g ∈ coresOf c, ∀ e ∈ (s.core g).slots, some (g, e) ≠ mine → e.2.live = true → e.2.owed = none

/-- The gang n of cluster c is over, with an error record of the kind staged for its context's link (15 R276, R289). Memory stays,
but that a write which a slot has had accepted is still performed (15 R286, R289). -/
def GangAborted (s u : State) (c n kind : Nat) (detA detV : Word) : Prop :=
  let l := (s.context (s.ctxOf s.curCore)).link
  (u.gang n).state = .dead ∧ (u.cluster c).gang = none ∧ (OwedOnly s c none → SameBytes s u) ∧
    (∀ g ∈ coresOf c, ∀ e ∈ (s.core g).slots, e.2.live = true → ¬(g = s.curCore ∧ e.1 = s.curSlot) → OwedOnly s c (some (g, e)) →
      ∀ pa p va bs, e.2.owed = some (.bytes (.here pa) p va bs) → pa + bs.length ≤ descBase →
        mgets u.mem pa bs.length = bs ∧ SameBytesBut s u pa bs.length) ∧
    ∃ r : ErrorRecord, r.kind = kind ∧ r.core = s.curCore ∧ r.slot = s.curSlot ∧ r.detA = detA ∧ r.detV = detV ∧
      (u.link l).staged = (s.link l).staged ++ [r.bytes]

/-- A trap vector or a stack top that an entry accepts: even, and in L (15 R276). -/
def GoodVector (v : Word) : Prop := v.getLsbD 0 = false ∧ v.toNat < 0x40000

/-- Trap entry (15 R275): what is saved where, the mode, pc, the privileged copies; the user's registers keep their values; the
slot is parked for 8 cycles. -/
def Entered (s u : State) (code num len : Nat) (faddr epc : Word) (lane : Option Nat) : Prop :=
  let x := u.cur
  x.epc = epc ∧ x.cause.toNat = code + 256 * (num % 256) + (if len = 2 then 65536 else 0) ∧ x.faddr = faddr ∧
    x.rdet.toNat = (match lane with
      | some j => 2 ^ 63 + s.cur.pc.toNat % 2 ^ 18 * 2 ^ 32 + j % 256
      | none => 0) ∧
    x.priv = true ∧ u.acc = x.cause ∧ u.ptr 7 = s.curCoreOf.kstk - BitVec.ofNat 64 (0x200 * s.curSlot) ∧ x.stepOf 7 = 0 ∧
    u.flags = 0 ∧ x.pc = s.curCoreOf.tvec ∧ x.live = s.cur.live ∧ x.a = s.cur.a ∧ x.p = s.cur.p ∧ x.step = s.cur.step ∧ x.f = s.cur.f ∧
    x.lc = s.cur.lc ∧ x.vf = s.cur.vf ∧ x.watch = s.cur.watch ∧ x.tok = s.cur.tok ∧
    ∃ p, x.park = some p ∧ p.reason = .trap ∧ p.wake = .till (s.curCoreOf.cycle + 8)

/-- The running gang n of cluster c is halted for debugging: it is being pre-empted, is held, and its cluster is frozen (21 R345).
-/
def Halted (u : State) (c n : Nat) : Prop :=
  (u.gang n).state = .halting ∧ (u.gang n).reason = 3 ∧ (u.gang n).hold = true ∧ (u.cluster c).halt = true ∧
    (u.cluster c).frozen = true

/-- A gang that can be halted: it runs on the cluster, and its context's save area has room for its image. -/
def CanHalt (s : State) (c n : Nat) : Prop :=
  (s.cluster c).gang = some n ∧ (s.gang n).state = .running ∧ (s.gang n).cluster = c ∧
    (s.imageAt (s.launch (s.gang n).launch).ctx).isSome = true

/-! ## The host interface (20), firmware (20, 21, 23) -/

/-- Messages for another chip have left, or wait at the router for a port that is up (16 R292). -/
def SentAll (s u : State) (ms : List OutMsg) : Prop :=
  u.outbox = s.outbox ++ ms ∧ u.stuck = s.stuck ∨ u.outbox = s.outbox ∧ u.stuck = s.stuck ++ ms

def Sent (s u : State) (m : OutMsg) : Prop := SentAll s u [m]

/-- Packet k has started, of a kind, and may run: the chip is not in recovery, and its context is granted through its link and
live unless it needs none (20 R329, R339). -/
def Runs (s : State) (k kind : Nat) (p : Packet) : Prop :=
  s.started.lookup k = some p ∧ p.kind = kind ∧ s.recovery p = false ∧
    (s.contextFree p = true ∨ s.ctxThrough p.link p.ctx = true)

/-- No request that a home holds, no graph and no copy is packet k's. -/
def OwnPacket (s : State) (k : Nat) : Prop :=
  s.asking k = false ∧ (∀ e ∈ s.graphs, e.2.packet ≠ some k) ∧ ∀ e ∈ s.copies, e.2.packet ≠ some k

/-- Packet k has completed with a status, its entry waiting for its ring (20 R334). -/
def Completed (u : State) (p : Packet) (status : Nat) : Prop :=
  ∃ c ∈ u.finished, c.link = p.link ∧ c.q = p.q ∧ c.tag = p.tag ∧ c.seq = p.seq ∧ c.kind = p.kind ∧ c.status = status

/-- The same, with the result that the kind's rule gives. -/
def Returned (u : State) (p : Packet) (status : Nat) (result : Word) : Prop :=
  ∃ c ∈ u.finished, c.link = p.link ∧ c.q = p.q ∧ c.tag = p.tag ∧ c.seq = p.seq ∧ c.kind = p.kind ∧ c.status = status ∧
    c.result = result

/-! ## Gangs, leases and time (05, 06, 15, 20) -/

/-! ## Stations, engines and records (07, 09, 12, 15, 20) -/

/-- The page of a context that holds va, live, in mode 4, on another chip, and well-formed (09 R168, R173). -/
def MigratablePage (s : State) (ctx va frame : Nat) (e : PageEntry) : Prop :=
  s.entry ctx va = some e ∧ pteMode e.pte = 4 ∧ e.live s = true ∧ s.pteBad e.pte = false ∧
    frame * 4096 % pteSize e.pte = 0 ∧ frame * 4096 + pteSize e.pte ≤ hbmSize

/-- The blocks of the sector at a copy's place: of its source, of its destination. -/
def sectorBlocks (c : Copy) : List Nat × List Nat :=
  let d := copyDesc c.desc
  let us := d.sector (c.sectorAt c.next)
  (blocksOf (d.srcBytes us) [], blocksOf (d.dstBytes us) [])

/-- The sector at a copy's place is judged: t, with what becomes of each block, none where it waits (06 R95, 09 R183). -/
def Judges (s t : State) (c : Copy) (log : Option (List Reply)) : Prop :=
  s.judgeSector c (sectorBlocks c).1 (sectorBlocks c).2 = (t, log)

/-- No block of a sector that is judged anew is refused. -/
def AllAccepted (c : Copy) (log : List Reply) : Prop := c.log = [] → ∀ r ∈ log, ∀ n p z, r ≠ .refused n p z

/-- What an engine finds of a judged sector: the blocks of its source that it has read, and the places of its destination's; k is
the log then (09 R181, R183). -/
def SectorSeen (s u : State) (id : Nat) (c : Copy) (k : Journal) (src : List (Access Block)) (dst : List (Access Target)) : Prop :=
  ∃ t log r j, Judges s t c (some log) ∧ AllAccepted c log ∧
    eachAccess (fun t j a => t.copyTake j id c (copyDesc c.desc) a) t (.start log) (sectorBlocks c).1 = .ok r j src ∧
    eachAccess (fun t j a => t.copyTarget j a) r j (sectorBlocks c).2 = .ok u k dst

/-- The bytes that the sector at a copy's place writes, in stream order, each with its block (09 R180 to R182). -/
def sectorBytes (u : State) (c : Copy) (src : List (Access Block)) : List (Nat × CopyByte) :=
  ((copyDesc c.desc).sector (c.sectorAt c.next)).flatMap (u.unitBytes c (copyDesc c.desc) src)

/-- The byte that stands at offset o of block a after them: the last of the stream (09 R181). -/
def lastByte (bytes : List (Nat × CopyByte)) (a o : Nat) : Option CopyByte :=
  ((bytes.filter fun b => b.1 == a && b.2.off == o).getLast?).map Prod.snd

/-- The key of a destination block in this package. -/
def targetSpot : Target → Option Nat
  | .buf b g off => some (bufKey b g off)
  | .glob (.here pa, _) _ => some pa
  | .glob (.host l a, _) _ => some (hostKey l a)
  | .glob (.chip _ _, _) _ => none

def hostTarget : Target → Bool
  | .glob (.host _ _, _) _ => true
  | _ => false

/-- The blocks of a destination in this package are whole, apart, and in no error. -/
def TargetsApart (u : State) (dst : List (Access Target)) : Prop :=
  (dst.Pairwise fun a b => a.idx ≠ b.idx ∧ ∀ k, a.got.bind targetSpot = some k → b.got.bind targetSpot ≠ some k) ∧
    ∀ a ∈ dst, ∀ k, a.got.bind targetSpot = some k → k % 64 = 0 ∧ k + 64 ≤ descBase ∧ NoFlaw u k 64

/-- A sector's bytes stand in the blocks of its destination in this package, the other bytes of these as before; a block's
descriptor is that of its lowest byte, poisoned if a byte came from a poisoned block; all other memory reads as before (09 R181,
R182). -/
def SectorWritten (s u v : State) (c : Copy) (bytes : List (Nat × CopyByte)) (dst : List (Access Target)) : Prop :=
  (∀ a ∈ dst, ∀ k, a.got.bind targetSpot = some k → ∀ o < 64, mget v.mem (k + o) =
    match lastByte bytes a.idx o with
    | some b => b.val
    | none => mget u.mem (k + o)) ∧
  (∀ a ∈ dst, ∀ g k o b, a.got = some g → targetSpot g = some k → hostTarget g = false →
    (c.blocks.find? fun x => x.addr == a.idx) = none → o < 64 → lastByte bytes a.idx o = some b →
    (∀ p < o, lastByte bytes a.idx p = none) → mget v.mem (fmtKey k) = b.fmt ∧
      mget v.mem (scaleKey k) = if bytes.any (fun x => x.1 == a.idx && x.2.scale == 255) then 255 else b.scale) ∧
  ∀ j, (∀ a ∈ dst, ∀ k, a.got.bind targetSpot = some k → ¬(k ≤ j ∧ j < k + 64) ∧ j ≠ fmtKey k ∧ j ≠ scaleKey k) → SameByte s v j

/-- A copy whose next sector its engine works on. -/
def SectorDue (s : State) (id : Nat) (c : Copy) : Prop :=
  s.copies.lookup id = some c ∧ c.accepted = true ∧ c.suspended = false ∧ c.ended = false ∧ c.status ≠ 2 ∧ c.next < c.count ∧
    s.copyStands c = false

/-- What an engine has to do with the next group of a command that has begun: the reads and the judged writes (07 R144, R146). -/
def GroupSeen (s u : State) (die : Nat) (c : QuantCmd) (ws n m : Nat) (rd : List (Access Block))
    (wr : List (Access (Route × PageEntry))) : Prop :=
  let q := quantDesc c.desc
  let f := q.fmt.getD fmt32
  let gd := max (2 ^ q.group) (dstCount ws f.width)
  let gs := gd * srcCount ws f.width / dstCount ws f.width
  n = min gs (q.nsrc - c.next * gs) ∧ m = min gd (q.ndst ws - c.next * gd) ∧ c.next * gs < q.nsrc ∧ q.nsrc ≤ (c.next + 1) * gs ∧
    ∃ t k l, s.quantReads (.start c.log) die c.ctx (gOff q.src) (c.next * gs) n = .ok t k rd ∧
      t.quantJudges k c.ctx (gOff q.dst) (c.next * gd) m = .ok u l wr

/-! ## Arrivals over the fabric, resets and power (16, 17, 23) -/

/-- A path message that arrives at its destination in sequence, on a path that holds nothing, and is accepted (16 R295). -/
def InSequence (s : State) (m : PathMsg) (x : PathDst) : Prop :=
  msgFits m = true ∧ s.pathAt m.path = some x ∧ x.held = [] ∧ m.seq = x.expect % 2 ^ 32 ∧ s.pathAccepts x m = true ∧
    s.blockersAt (s.pathPlaces x m) = [] ∧ m.tagOk = true

/-- Answered: the acknowledgement leaves for the source, or is the next arrival here (16 R308). -/
def Acked (s u : State) (m : PathMsg) (a : AckMsg) : Prop :=
  (m.chip ≠ s.chip → .ack m.chip a ∈ u.outbox ∨ .ack m.chip a ∈ u.stuck) ∧ (m.chip = s.chip → Turn.due (.ack a) ∈ u.agenda)

/-- Memory with blocks, one after the other, from pa on. -/
def withBlocks (m : List Host.Cell) (pa : Nat) : List Block → List Host.Cell
  | [] => m
  | b :: bs => withBlocks (putBlock m pa b) (pa + 64) bs

/-- The blocks of a tile lie one after the other from pa on in the frames of its backing range, and no error stands there that a
block does not replace whole. -/
def TileSpot (s : State) (x : Stub) (tile pa n : Nat) : Prop :=
  ∀ i < n, (s.backingPage x (4096 * tile + 64 * i)).map (·.2) = some (pa + 64 * i) ∧ WholeErrors s (pa + 64 * i)

/-! ## The machine as a whole (03, 05, 15, 23) -/

/-- An instruction read from bytes as the decoder reads them; bytes that name none stand for the illegal-instruction trap (03
R43). -/
def Reads (bs : List Byte) (i : Instr) : Prop :=
  (decode bs).map (·.1) = some i ∨ decode bs = none ∧ i = .reservedEncodingIssue

end Sys2Proof.Claims

open Sys2Proof Sys2Proof.Machine Sys2Proof.Claims

/-! ## The scalar classes (04 R54 to R64) -/

/-- ALU (04 R54, R55): for every operand that can be read, the instruction completes; a and Z, N, C, V are as the tables say,
cmp and tst leave a; F, E, W, every other register and every byte of memory stay. -/
def Obligations.AluWritesResultAndFlags : Prop :=
  ∀ i op keep m, aluForm i = some (op, keep, m) → ∀ (s t : State) (x : Word), s.cur.live = true →
    s.source m.sp m.imm 8 = .ok (t, x) →
    ∃ u res c v, exec i s = .next u ∧ AluRow op s.acc x (flagC s.flags) res c v ∧
      u.cur = (((stepped s m 8).setFlags (withZNCV s.flags (res == 0) (res.getLsbD 63) c v)).setAcc
        (if keep then s.acc else res)).done s.curCoreOf.cycle m.len m.delay ∧
      Kept s u ∧ SameBytes s u

/-- MULBIT (04 R56 to R58): for every operand that can be read, the instruction completes with a, Z, N, C and V as the tables
say, a divide after 20 cycles; the frame is that of the ALU class. -/
def Obligations.MulbitWritesResultAndFlags : Prop :=
  ∀ i op m, mulForm i = some (op, m) → ∀ (s t : State) (x : Word), s.cur.live = true →
    s.source m.sp m.imm 8 = .ok (t, x) →
    ∃ u res c v, exec i s = .next u ∧ MulRow op s.acc x res c v ∧
      u.cur = (((stepped s m 8).setFlags (withZNCV s.flags (res == 0) (res.getLsbD 63) c v)).setAcc res).done
        s.curCoreOf.cycle m.len m.delay ∧
      Kept s u ∧ SameBytes s u

/-- LD (04 R59): a takes the extended value, Z and N tell of it, C and V and all else stay. The value of a word of memory is that of
the bytes at its address, lowest first (00 R3, 04 R51): of a buffer at once, of a buffer in X through the number that comes back, of
device memory through the block that the station answers with (04 R53). A system register gives what mfs reads of it (15 R271).

That the block of a load from device memory, and the number of one through X, are fixed when the load is asked, and come back
after the park, is the model's choice (log 7). -/
def Obligations.LoadExtendsIntoAccumulator : Prop :=
  (∀ i size signed m, loadForm i = some (size, signed, m) → ∀ (s t : State) (x : Word), s.cur.live = true →
    s.source m.sp m.imm size = .ok (t, x) →
    ∃ u res, exec i s = .next u ∧ Extends size signed x res ∧
      u.cur = (((stepped s m size).setFlags (withZNCV s.flags (res == 0) (res.getLsbD 63) (flagC s.flags) (flagV s.flags))).setAcc
        res).done s.curCoreOf.cycle m.len m.delay ∧
      Kept s u ∧ SameBytes s u) ∧
  ∀ (s z : State) (a : Word) (size : Nat) (l : Loc), s.locate a size size .read tagLoad true false = .ok (z, l) →
    (∀ b g off, l = .buf false b g off → z.recall = none → NoFlaw s (bufKey b g off) size → poisoned s.mem (bufKey b g off) = false →
      ∃ t v, s.load a size = .ok (t, v) ∧ ReadsLow s (bufKey b g off) size v) ∧
    (∀ pa e va, l = .glob (.here pa) e va → pteMode e.pte ≠ 3 → z.recall = none → NoFlaw s (pa / 64 * 64) 64 →
      ∃ w x, s.load a size = .error (.wait w .mem .none x) ∧
        w.trail = z.trail ++ [.block (blockAt s.mem (pa / 64 * 64))]) ∧
    (∀ r e va b, l = .glob r e va → z.recall = some (.block b) → b.scale ≠ 255 →
      ∃ t, s.load a size = .ok (t, leNat ((b.data.drop (va % 64)).take size))) ∧
    (∀ b g off, l = .buf true b g off → z.recall = none → NoFlaw s (bufKey b g off) size → poisoned s.mem (bufKey b g off) = false →
      ∃ w x v, s.load a size = .error (.wait w .mem .none x) ∧ ReadsLow s (bufKey b g off) size v ∧
        w.trail = z.trail ++ [.num v]) ∧
    (∀ b g off v, l = .buf true b g off → z.recall = some (.num v) → ∃ t, s.load a size = .ok (t, v)) ∧
    (∀ n v, l = .sys n → z.recall = none → z.sysRead n = .ok v → ∃ t, s.load a size = .ok (t, v.toNat))

/-- ST to a register or a port (04 R60): the low bytes, zero-extended; no flag, no byte of memory and no other register
changes.

xch (04 R61): the operand's value and a change places, where the place accepts both parts; no flag changes. A word of G is
written when its data has returned, with no wait of its own (04 R53).

That a port push stands with the instruction is the model's order of accesses (log 7). -/
def Obligations.StoreAndExchange : Prop :=
  (∀ i size m, storeForm i = some (size, m) → ∀ s : State, s.cur.live = true →
    (∀ n, m.sp = .ptr n → ∃ u, exec i s = .next u ∧ Kept s u ∧ SameBytes s u ∧
      u.cur = (s.cur.setPtr n.toNat (lowBytes size s.acc)).done s.curCoreOf.cycle m.len m.delay) ∧
    (m.sp = .acc → ∃ u, exec i s = .next u ∧ Kept s u ∧ SameBytes s u ∧
      u.cur = (s.cur.setAcc (lowBytes size s.acc)).done s.curCoreOf.cycle m.len m.delay) ∧
    (∀ k : BitVec 2, m.sp = .queue k → s.behind (.port k.toNat true) = false → (s.queueList s.curCore k.toNat).length < 8 →
      ∃ u, exec i s = .next u ∧ Kept s u ∧ SameBytes s u ∧ u.cur = s.cur.done s.curCoreOf.cycle m.len m.delay ∧
        u.queueList s.curCore k.toNat = s.queueList s.curCore k.toNat ++ [lowBytes size s.acc]) ∧
    (∀ p, m.sp = .nxt ∧ p = 4 ∨ m.sp = .prv ∧ p = 5 → s.behind (.port p true) = false →
      (s.ringList s.curCore (ringOut s.curCore p)).length < 8 →
      ∃ u, exec i s = .next u ∧ Kept s u ∧ SameBytes s u ∧ u.cur = s.cur.done s.curCoreOf.cycle m.len m.delay ∧
        u.ringList s.curCore (ringOut s.curCore p) = s.ringList s.curCore (ringOut s.curCore p) ++ [lowBytes size s.acc])) ∧
  (∀ (s : State) (sp : Spec), s.cur.live = true →
    (∀ i : BitVec 13,
      (∀ y r q t v w, s.operand sp i.toInt 8 = (y, r) → (∀ a, r ≠ .mem a) → y.needPorts (r.uses false 1 ++ r.uses true 1) = .ok q →
        q.readRef r 8 = .ok (t, v) → t.writeRef r 8 s.acc = .ok w →
        ∃ u, exec (.xch sp i) s = .next u ∧ u.acc = v ∧ u.flags = s.flags ∧ Kept s u ∧ SameBytes s u ∧
          (∀ n, r = .ptr n → u.ptr n = s.acc)) ∧
      (∀ y a q l m t v w, s.operand sp i.toInt 8 = (y, .mem a) → y.xchPlace a = .ok (q, l, m) → q.loadLoc a 8 l = .ok (t, v) →
        t.storeAt false a 8 s.acc.toNat m = .ok w →
        ∃ u, exec (.xch sp i) s = .next u ∧ u.acc = BitVec.ofNat 64 v ∧ u.flags = w.flags ∧ u.mem = w.mem ∧ Kept w u ∧
          (∀ k, Loc.spot m = some k → k + 8 ≤ descBase → t.recall = none → mread u.mem k 8 = s.acc.toNat ∧ SameBytesBut s u k 8) ∧
          (t.recall ≠ none → (∀ n, m ≠ .sys n) → SameBytes s u))) ∧
    (∀ i : BitVec 4,
      (∀ y r q t v w, s.operand sp i.toInt 8 = (y, r) → (∀ a, r ≠ .mem a) → y.needPorts (r.uses false 1 ++ r.uses true 1) = .ok q →
        q.readRef r 8 = .ok (t, v) → t.writeRef r 8 s.acc = .ok w →
        ∃ u, exec (.xchShort sp i) s = .next u ∧ u.acc = v ∧ u.flags = s.flags ∧ Kept s u ∧ SameBytes s u ∧
          (∀ n, r = .ptr n → u.ptr n = s.acc)) ∧
      (∀ y a q l m t v w, s.operand sp i.toInt 8 = (y, .mem a) → y.xchPlace a = .ok (q, l, m) → q.loadLoc a 8 l = .ok (t, v) →
        t.storeAt false a 8 s.acc.toNat m = .ok w →
        ∃ u, exec (.xchShort sp i) s = .next u ∧ u.acc = BitVec.ofNat 64 v ∧ u.flags = w.flags ∧ u.mem = w.mem ∧ Kept w u ∧
          (∀ k, Loc.spot m = some k → k + 8 ≤ descBase → t.recall = none → mread u.mem k 8 = s.acc.toNat ∧ SameBytesBut s u k 8) ∧
          (t.recall ≠ none → (∀ n, m ≠ .sys n) → SameBytes s u))))

/-- ST to memory (04 R51 to R53, R60): where the address is accepted, a store to a buffer on which no watchpoint stands completes at
once, and a store in G writes, parks its slot for the station's answer, and completes with nothing more written. The low bytes of a
stand at the address that the operand computes, lowest first; every other byte, every block descriptor among them, and every
register but a stepped pointer stay. In the system space the register takes a as mts would write it (15 R271).

That the bytes stand with the instruction itself is the model's choice (log 7). -/
def Obligations.StoreWritesItsBytes : Prop :=
  ∀ i size m, storeForm i = some (size, m) → ∀ (s y z : State) (a : Word) (l : Loc), s.cur.live = true →
    s.operand m.sp m.imm size = (y, .mem a) → y.locate a size size .write tagStore true false = .ok (z, l) →
    (∀ k, Loc.spot l = some k → k + size ≤ descBase) →
    (∀ w b g off, l = .buf w b g off → z.recall = none → y.strikes b g off size = false →
      ∃ u, exec i s = .next u ∧ HoldsLow u (bufKey b g off) size s.acc ∧ SameBytesBut s u (bufKey b g off) size ∧
        u.curCore = s.curCore ∧ u.curSlot = s.curSlot ∧ RestOfSlot s y u ∧ u.cur.pc = s.cur.pc + BitVec.ofNat 64 m.len) ∧
    (∀ r e va, l = .glob r e va → z.recall = none →
      ∃ u, exec i s = .next u ∧ (∀ k, Loc.spot l = some k → HoldsLow u k size s.acc ∧ SameBytesBut s u k size) ∧
        (Loc.spot l = none → SameBytes s u) ∧ u.cur.park.map Park.reason = some .mem ∧ RestOfSlot s s u ∧
        u.cur.pc = s.cur.pc) ∧
    (∀ r e va, l = .glob r e va → z.recall = some .done →
      ∃ u, exec i s = .next u ∧ SameBytes s u ∧ RestOfSlot s y u ∧ u.cur.park = none ∧
        u.cur.pc = s.cur.pc + BitVec.ofNat 64 m.len) ∧
    (∀ n w, l = .sys n → ({ z with claims := [] }).sysWrite n (lowBytes size s.acc) = .ok w → w.cur.live = true →
      ∃ u, exec i s = .next u ∧ u.cur = w.cur.done w.curCoreOf.cycle m.len m.delay ∧ Kept w u ∧ SameBytes w u)

/-- A scalar load or store that fails its checks takes the trap of the first failing one (04 R51), before any effect, when it is
first made: the operands and results below are those of the trap entry. An uncorrectable word of L that it reads is found: its block
is poisoned and the context gets a record (09 R193).

An operand whose reading stops makes its instruction stop alike, with the state before it: the trap of the failed check is
taken with the pc of the instruction (03 R31). A fetch at pc that lies beyond L enters the trap vector with code 4 and pc as the
address (03 R20, 11 R234, 15 R274, R275).

The short bit of a fetch fault, 0, is read by inference (log 23). That the poison and the record of a word found stay though
the instruction faults is the model's choice (log 92). -/
def Obligations.FailedChecksTakeTheirTrap : Prop :=
  (∀ (s : State) (a : Word) (size : Nat), size ∈ [1, 2, 4, 8] → s.recall = none →
    (tagOf a = 15 → s.cur.priv = false → s.load a size = .error (.trap 2 a) ∧ s.store a size 0 = .error (.trap 2 a)) ∧
    (tagOf a ∈ [1, 3, 5, 6, 7, 9, 10, 11, 12, 13, 14] →
      s.load a size = .error (.trap 4 a) ∧ s.store a size 0 = .error (.trap 4 a)) ∧
    (tagOf a = 2 → s.store a size 0 = .error (.trap 4 a)) ∧
    (tagOf a = 0 → 0x40000 ≤ offOf a → s.load a size = .error (.trap 4 a) ∧ s.store a size 0 = .error (.trap 4 a)) ∧
    (tagOf a = 0 → offOf a < 0x40000 → offOf a % size ≠ 0 → s.load a size = .error (.trap 3 a)) ∧
    (tagOf a = 0 → offOf a < 0x40000 → offOf a % size = 0 → poisoned s.mem (lKey s.curCore (offOf a)) = true →
      NoFlaw s (lKey s.curCore (offOf a)) size → s.load a size = .error (.trap 6 a)) ∧
    (∀ f ∈ s.flaws, f.2 = true → f.1 = lKey s.curCore (offOf a) / 8 * 8 → tagOf a = 0 → offOf a < 0x40000 →
      offOf a % size = 0 → s.ctxOf s.curCore < 1024 → ∃ t, s.load a size = .error (.partway t 6 a none) ∧
        poisoned t.mem (lKey s.curCore (offOf a)) = true ∧ f ∉ t.flaws ∧
        (s.context (s.ctxOf s.curCore)).fq.staged.length < (t.context (s.ctxOf s.curCore)).fq.staged.length) ∧
    (tagOf a = 8 → 2 ^ 57 ≤ offOf a → s.load a size = .error (.trap 4 a) ∧ s.store a size 0 = .error (.trap 4 a)) ∧
    (tagOf a = 8 → offOf a < 2 ^ 57 → offOf a % size ≠ 0 → s.load a size = .error (.trap 3 a) ∧
      s.store a size 0 = .error (.trap 3 a))) ∧
  ((∀ s : State, s.cur.priv = false → GoodVector s.curCoreOf.tvec → GoodVector s.curCoreOf.kstk →
    ∃ u, exec .fetchSpaceFault s = .next u ∧ Entered s u 4 0 4 s.cur.pc s.cur.pc none) ∧
  ∀ (s : State) (code : Nat) (addr : Word),
    (∀ i op keep m, aluForm i = some (op, keep, m) → s.source m.sp m.imm 8 = .error (.trap code addr) →
      exec i s = .next (s.takeTrap code 0 addr s.cur.pc m.len none).clear) ∧
    (∀ i op m, mulForm i = some (op, m) → s.source m.sp m.imm 8 = .error (.trap code addr) →
      exec i s = .next (s.takeTrap code 0 addr s.cur.pc m.len none).clear) ∧
    (∀ i size signed m, loadForm i = some (size, signed, m) → s.source m.sp m.imm size = .error (.trap code addr) →
      exec i s = .next (s.takeTrap code 0 addr s.cur.pc m.len none).clear) ∧
    (∀ i size m, storeForm i = some (size, m) → ∀ y a, s.operand m.sp m.imm size = (y, .mem a) →
      y.locate a size size .write tagStore true false = .error (.trap code addr) →
      exec i s = .next (s.takeTrap code 0 addr s.cur.pc m.len none).clear))

/-- IMM, PTR, lea, fget and isync (04 R62 to R64, 07 R133, 11 R235): they always complete, write the registers that the rules
name, no flag, no byte of memory and nothing of another slot. bfence (11 R224) does so with no pseudo-channel marked; with one
marked it parks with reason memory reply, and completes with none marked when the last echo is there. -/
def Obligations.RegisterInstructionsWriteOnlyTheirs : Prop :=
  (∀ (i : Instr) (s : State) (len : Nat) (x : Slot), s.cur.live = true → registerForm s.cur i = some (len, x) →
    ∃ u, exec i s = .next u ∧ u.cur = x.done s.curCoreOf.cycle len 4 ∧ Kept s u ∧ SameBytes s u) ∧
  ∀ s : State, s.cur.live = true →
    (s.recall = none ∧ s.cur.banks = 0 ∨ s.recall = some .done → ∃ u, exec .bfence s = .next u ∧ Kept s u ∧ SameBytes s u ∧
      u.cur = ({ s.cur with banks := 0 }).done s.curCoreOf.cycle 4 4) ∧
    (s.recall = none → s.cur.banks ≠ 0 → ∃ u, exec .bfence s = .next u ∧ Waiting s u .mem ∧ u.cur.banks = s.cur.banks)

/-! ## Control flow and threads (05 R65 to R81) -/

/-- The 15 branches (05 R66): pc ← pc + sext(disp21) × 2 where the condition holds, else pc + 4; no flag changes.

loop (05 R68): the count goes down modulo 2^32 and decides. bal and bnal (16 R298, R306): the allowance is 0 for a slot that is
unbound or has W flits or more in flight, else W − IF, at most 255; it decides against 2^t, and neither parks, faults or changes a
flag. -/
def Obligations.BranchesFollowTheirConditions : Prop :=
  (∀ i p d, branchForm i = some (p, d) → ∀ s : State, s.cur.live = true →
    ∃ u, exec i s = .next u ∧
      (p (flagZ s.flags) (flagN s.flags) (flagC s.flags) (flagV s.flags) (flagF s.flags) = true →
        Transferred s u (targetOf s d)) ∧
      (p (flagZ s.flags) (flagN s.flags) (flagC s.flags) (flagV s.flags) (flagF s.flags) = false →
        u.cur = s.cur.done s.curCoreOf.cycle 4 4 ∧ Kept s u ∧ SameBytes s u)) ∧
  ((∀ d : DSlot, d.allowance = if d.bound = false ∨ d.win ≤ d.inFl then 0 else min (d.win - d.inFl) 255) ∧
  ∀ s : State, s.cur.live = true →
    (∀ d : BitVec 21, ∃ u, exec (.loop d) s = .next u ∧
      (s.cur.lc ≠ 1 → Transferred (s.setLc (s.cur.lc - 1)) u (targetOf s d.toInt)) ∧
      (s.cur.lc = 1 → u.cur = ({ s.cur with lc := 0 }).done s.curCoreOf.cycle 4 4 ∧ Kept s u ∧ SameBytes s u)) ∧
    (∀ (k : BitVec 4) (t : BitVec 3) (d : BitVec 17), ∃ u, exec (.bal k t d) s = .next u ∧
      (2 ^ t.toNat ≤ (s.dslot s.curCore k.toNat).allowance → Transferred s u (targetOf s d.toInt)) ∧
      ((s.dslot s.curCore k.toNat).allowance < 2 ^ t.toNat →
        u.cur = s.cur.done s.curCoreOf.cycle 4 4 ∧ Kept s u ∧ SameBytes s u)) ∧
    (∀ (k : BitVec 4) (t : BitVec 3) (d : BitVec 17), ∃ u, exec (.bnal k t d) s = .next u ∧
      ((s.dslot s.curCore k.toNat).allowance < 2 ^ t.toNat → Transferred s u (targetOf s d.toInt)) ∧
      (2 ^ t.toNat ≤ (s.dslot s.curCore k.toNat).allowance →
        u.cur = s.cur.done s.curCoreOf.cycle 4 4 ∧ Kept s u ∧ SameBytes s u)))

/-- call and jsr (05 R67, R69): where the stack accepts the push, the return address stands at p7 − 8, p7 is there, and the
transfer is made. A stack in G is written while the slot waits for the station's answer.

That a stack in G is written in the first run, while the slot waits, is the model's choice (log 7). -/
def Obligations.CallPushesTheReturnAddress : Prop :=
  (∀ (d : BitVec 21) (s w : State), s.cur.live = true → w.cur.live = true →
    s.store (stackAt s (-8)) 8 (s.cur.pc + 4).toNat = .ok w →
    ∃ u, exec (.call d) s = .next u ∧ Transferred (w.setPtr 7 (stackAt s (-8))) u (targetOf s d.toInt)) ∧
  (∀ (sp : Spec) (i : BitVec 13) (s t w : State) (x : Word), s.cur.live = true → w.cur.live = true →
    s.source sp i.toInt 8 = .ok (t, x) → x.toNat < 0x40000 → x.getLsbD 0 = false →
    t.store (stackAt t (-8)) 8 (s.cur.pc + 4).toNat = .ok w →
    ∃ u, exec (.jsr sp i) s = .next u ∧ Transferred (w.setPtr 7 (stackAt t (-8))) u x) ∧
  (∀ (s z : State) (a : Word) (v k : Nat) (l : Loc), s.locate a 8 8 .write tagStore true false = .ok (z, l) →
    Loc.spot l = some k → k + 8 ≤ descBase →
    (∀ w, s.store a 8 v = .ok w → (z.recall = none → mread w.mem k 8 = v % 2 ^ 64 ∧ SameBytesBut s w k 8) ∧
      (z.recall ≠ none → SameBytes s w)) ∧
    (∀ r e va, l = .glob r e va → z.recall = none →
      ∃ w x, s.store a 8 v = .error (.wait w .mem .none x) ∧ mread w.mem k 8 = v % 2 ^ 64 ∧ SameBytesBut s w k 8))

/-- jmp, ret and lcset (05 R69): an accepted target is taken; ret reads it at p7 and moves p7 up by 8; lcset sets lc.

An absolute target of 0x4_0000 or above is a space fault with the value as its address, an odd one below a misaligned
access; pc and p7 keep their values (05 R65). -/
def Obligations.JumpsTakeGoodTargetsOnly : Prop :=
  ((∀ (sp : Spec) (i : BitVec 13) (s t : State) (x : Word), s.cur.live = true → s.source sp i.toInt 8 = .ok (t, x) →
    (x.toNat < 0x40000 → x.getLsbD 0 = false → ∃ u, exec (.jmp sp i) s = .next u ∧ Transferred t u x) ∧
    ∃ u, exec (.lcset sp i) s = .next u ∧ Kept s u ∧ SameBytes s u ∧
      u.cur = ({ (s.operand sp i.toInt 8).1.cur with lc := x.truncate 32 }).done s.curCoreOf.cycle 4 4) ∧
  (∀ (s t : State) (v : Nat), s.cur.live = true → s.load (s.ptr 7) 8 = .ok (t, v) → v < 0x40000 → v % 2 = 0 →
    ∃ u, exec .ret s = .next u ∧ Transferred (t.setPtr 7 (stackAt t 8)) u (BitVec.ofNat 64 v))) ∧
  ((∀ (s t : State) (v : Nat), s.load (s.ptr 7) 8 = .ok (t, v) → v < 2 ^ 64 →
    (0x40000 ≤ v → exec .ret s = .next (s.takeTrap 4 0 (BitVec.ofNat 64 v) s.cur.pc 4 none).clear) ∧
    (v < 0x40000 → v % 2 = 1 → exec .ret s = .next (s.takeTrap 3 0 (BitVec.ofNat 64 v) s.cur.pc 4 none).clear)) ∧
  ∀ (sp : Spec) (i : BitVec 13) (s t : State) (x : Word), s.source sp i.toInt 8 = .ok (t, x) →
    (0x40000 ≤ x.toNat → exec (.jmp sp i) s = .next (s.takeTrap 4 0 x s.cur.pc 4 none).clear ∧
      exec (.jsr sp i) s = .next (s.takeTrap 4 0 x s.cur.pc 4 none).clear) ∧
    (x.toNat < 0x40000 → x.getLsbD 0 = true → exec (.jmp sp i) s = .next (s.takeTrap 3 0 x s.cur.pc 4 none).clear ∧
      exec (.jsr sp i) s = .next (s.takeTrap 3 0 x s.cur.pc 4 none).clear))

/-- start (05 R77, 02 R18): the operand is read, then the lowest free slot becomes a helper and F is cleared; with none free, F
is set; the starting slot's a keeps its value. -/
def Obligations.StartTakesTheLowestFreeSlot : Prop :=
  ∀ (sp : Spec) (i : BitVec 13) (s t : State) (x : Word), s.cur.live = true → s.source sp 0 8 = .ok (t, x) →
    (∀ k, LowestFree s k → ∃ u, exec (.start sp i) s = .next u ∧
      Helper (u.slot s.curCore k) k (targetOf s i.toInt) x s.cur.vf ∧ flagF u.flags = false ∧ u.acc = s.acc ∧
      u.cur.pc = s.cur.pc + 4 ∧ SameBytes s u ∧
      ∀ g j, ¬(g = s.curCore ∧ (j = s.curSlot ∨ j = k)) → u.slot g j = s.slot g j) ∧
    ((∀ k, 1 ≤ k → k ≤ 10 → (s.slot s.curCore k).live = true) → ∃ u, exec (.start sp i) s = .next u ∧
      flagF u.flags = true ∧ u.acc = s.acc ∧ u.cur.pc = s.cur.pc + 4 ∧ Kept s u ∧ SameBytes s u)

/-- end (05 R78, R79): while a store of the slot to another chip waits at the router (log 79) it waits with reason memory reply,
then, with a busy token, with reason token; a helper's slot is free; slot 0 waits for the helpers, then its core is done, and with the
other three done the gang has retired and its cluster is released.

What the records of a freed slot hold is the model's reading (log 82). Which stores have left the package is the model's form
of the router (log 79). -/
def Obligations.EndFreesTheSlotOrTheCore : Prop :=
  ∀ s : State, s.cur.live = true →
    (s.storesStuck s.curCore s.curSlot = true → ∃ u, exec .endSlot s = .next u ∧ Waiting s u .mem) ∧
    (s.storesStuck s.curCore s.curSlot = false →
      (s.cur.tokBusy = true → ∃ u, exec .endSlot s = .next u ∧ Waiting s u .tok) ∧
      (s.cur.tokBusy = false → s.curSlot ≠ 0 → ∃ u, exec .endSlot s = .next u ∧ u.cur.live = false ∧ u.cur.watch = [] ∧
        Kept s u ∧ SameBytes s u) ∧
      (s.cur.tokBusy = false → s.curSlot = 0 → s.curCoreOf.othersLive 0 = true →
        ∃ u, exec .endSlot s = .next u ∧ Waiting s u .join) ∧
      (s.cur.tokBusy = false → s.curSlot = 0 → s.curCoreOf.othersLive 0 = false →
        (∃ h ∈ coresOf (clusterOf s.curCore), h ≠ s.curCore ∧ (s.core h).done = false) →
        ∃ u, exec .endSlot s = .next u ∧ u.cur.live = false ∧ (u.core s.curCore).done = true ∧ SameBytes s u ∧
          u.gangs = s.gangs) ∧
      (s.cur.tokBusy = false → s.curSlot = 0 → s.curCoreOf.othersLive 0 = false →
        (∀ h ∈ coresOf (clusterOf s.curCore), h ≠ s.curCore → (s.core h).done = true) →
        ∀ n, (s.cluster (clusterOf s.curCore)).gang = some n →
        ∃ u, exec .endSlot s = .next u ∧ (u.gang n).state = .retired ∧ (u.cluster (clusterOf s.curCore)).gang = none ∧
          SameBytes s u ∧ u.leases.map (fun e => (e.1, e.2.gen, e.2.e)) = s.leases.map (fun e => (e.1, e.2.gen, e.2.e))))

/-- yield, live and idr (05 R76, R80, R81): yield waits for exactly the other slots that are ready when it issues and changes no
other state; live gives the mask of live slots; idr gives the identity register. -/
def Obligations.YieldLiveAndIdentity : Prop :=
  ∀ s : State, s.cur.live = true →
    (∃ u, exec .yield s = .next u ∧ Kept s u ∧ SameBytes s u ∧ (∀ k, k ∈ u.cur.yields ↔ k < 11 ∧ k ≠ s.curSlot ∧ ReadyAt s k) ∧
      ∃ l, u.cur = ({ s.cur with yields := l }).done s.curCoreOf.cycle 4 4) ∧
    (s.curCoreOf.slots.Pairwise (fun a b => a.1 < b.1) → ∃ u v, exec .live s = .next u ∧ Kept s u ∧ SameBytes s u ∧
      (∀ k < 64, v.getLsbD k = (decide (k < 11) && (s.slot s.curCore k).live)) ∧
      u.cur = ((s.cur.setFlags (withZNCV s.flags (v.toNat / 2 == 0) false (flagC s.flags) (flagV s.flags))).setAcc v).done
        s.curCoreOf.cycle 4 4) ∧
    (∀ n : BitVec 13, n.toNat < 19 → ∃ u v, exec (.idr n) s = .next u ∧ Kept s u ∧ SameBytes s u ∧ IdentityRow s n.toNat v ∧
      u.cur = ((s.cur.setFlags (withZNCV s.flags (v == 0) (v.getLsbD 63) (flagC s.flags) (flagV s.flags))).setAcc v).done
        s.curCoreOf.cycle 4 4)

/-! ## Lane instructions, descriptors and conversions (07, 08) -/

/-- Lane instructions (08 R150 to R164): they complete after their delay; the destination block, or the eight entries pushed to a
port, is what the calculation gives; of memory only that block and its descriptor change; of the flags only E, and that only
upwards; a only by the reductions and vcmpr; lc, vf and the pointers stay as the operands left them. With no source poisoned, each
lane of a LANEA or LANES instruction or of vsel is that of its sources rounded once into vf's format, under the fixed scale or the one
that auto scale chooses (08 R154, R157, R159, 07 R125 to R127), a lane that poisons poisons the block, and E tells of saturation; a
comparison's lanes are all ones or zero, its scale 127. A reduction writes its exact result so in lane 0, zeros in the others, and in a
rounded to binary32 (08 R160); vscal rounds a block into its own format (07 R137); the special values are those of the table.

The calculation is the model's own function, which rests on log 11 to 13, 20 and 29; that the block stands with the
instruction is log 7. -/
def Obligations.LaneInstructionWritesOneBlock : Prop :=
  (∀ i f, laneForm i = some f → ∀ (s u : State) (d : Ref) (xs : List Src), s.cur.live = true → LaneReady f s u d xs →
    (∀ k, DestBuffer u d k → ∃ v, exec i s = .next v ∧ v.mem = putBlock u.mem k (f.work u xs).2 ∧ SameBytes s u ∧
      (writesA i = false → v.acc = s.acc) ∧ (∀ j < 7, j ≠ 5 → v.flags.getLsbD j = s.flags.getLsbD j) ∧
      (flagE s.flags = true → flagE v.flags = true) ∧ (∀ n, v.ptr n = (laneRefs f s).1.ptr n) ∧ v.cur.lc = s.cur.lc ∧
      v.cur.vf = s.cur.vf ∧ v.cur.pc = s.cur.pc + BitVec.ofNat 64 f.len ∧ v.cur.readyAt = readyAfter s f.delay) ∧
    (∀ p w, d = .port p → (f.work u xs).1.pushPort p (blockWords (f.work u xs).2.data) = .ok w →
      ∃ v, exec i s = .next v ∧ SameBytes s v ∧ v.portList p true = u.portList p true ++ blockWords (f.work u xs).2.data ∧
        (writesA i = false → v.acc = s.acc) ∧ (∀ j < 7, j ≠ 5 → v.flags.getLsbD j = s.flags.getLsbD j) ∧
        (flagE s.flags = true → flagE v.flags = true) ∧ v.flags = (f.work u xs).1.flags ∧
        (∀ n, v.ptr n = (laneRefs f s).1.ptr n) ∧ v.cur.lc = s.cur.lc ∧ v.cur.vf = s.cur.vf ∧
        v.cur.pc = s.cur.pc + BitVec.ofNat 64 f.len ∧ v.cur.readyAt = readyAfter s f.delay)) ∧
  (∀ i f, laneForm i = some f → ∀ (s u : State) (d : Ref) (xs : List Src) (k : Nat) (g : Fmt), s.cur.live = true →
    LaneReady f s u d xs → DestBuffer u d k → k + 64 ≤ descBase → fmtOf (vfFmt s.cur.vf) = some g →
    (∀ x ∈ xs, x.block.scale ≠ 255) →
    (∀ row, laneRow i = some row → ∃ v e, exec i s = .next v ∧ RaisesE s v e ∧
      ConvertedAt s v k g (vfFmt s.cur.vf) ((List.range (lanesOf g.width)).map fun j =>
        row (vfMode s.cur.vf == 2) s.acc j (xs.map fun x => (x.nums g.width).getD j .nan)) e) ∧
    ((∃ d' a b, i = .vradd d' a ∨ i = .vrmax d' a ∨ i = .vrmin d' a ∨ i = .vdot d' a b) →
      ∃ v e r, exec i s = .next v ∧ RaisesE s v e ∧ ReducesTo i (vfMode s.cur.vf == 2) (xs.map (Src.nums g.width)) r ∧
        ConvertedAt s v k g (vfFmt s.cur.vf) [r] e ∧ v.acc.toNat = (fmt32.convert 0 127 r).bits ∧
        ∀ j < lanesOf g.width, 1 ≤ j → elemAt (blockAt v.mem k).data g.width j = 0) ∧
    (∀ holds x y, cmpRow i = some holds → xs = [x, y] →
      ∃ v, exec i s = .next v ∧ (blockAt v.mem k).fmt = BitVec.ofNat 8 (vfFmt s.cur.vf) ∧ (blockAt v.mem k).scale = 127 ∧
        v.flags = s.flags ∧
        ∀ j < lanesOf g.width, elemAt (blockAt v.mem k).data g.width j =
          if holds ((x.nums g.width).getD j .nan) ((y.nums g.width).getD j .nan) then 2 ^ g.width - 1 else 0)) ∧
  (∀ d' a f, laneForm (.vscal d' a) = some f → ∀ (s u : State) (d : Ref) (x : Src) (k : Nat) (g : Fmt), s.cur.live = true →
    LaneReady f s u d [x] → DestBuffer u d k → k + 64 ≤ descBase → fmtOf x.block.fmt.toNat = some g → x.block.scale ≠ 255 →
    ∃ v e, exec (.vscal d' a) s = .next v ∧ RaisesE s v e ∧ v.acc = s.acc ∧
      ConvertedAt s v k g x.block.fmt.toNat (blockNums g x.block) e) ∧
  SpecialValues

/-- Poison (08 R153, R160, 07 R122): with any source block poisoned, the block written is poisoned, its data zero, and E is set;
a reduction gives a the value 0x7FC0_0000. -/
def Obligations.PoisonPassesThroughLanes : Prop :=
  ∀ i f, laneForm i = some f → copiesPoison i = false → ∀ (s u : State) (d : Ref) (xs : List Src) (k : Nat),
    s.cur.live = true → LaneReady f s u d xs → DestBuffer u d k → (∃ x ∈ xs, x.block.scale = 255) → k + 64 ≤ descBase →
    ∃ v, exec i s = .next v ∧ (blockAt v.mem k).scale = 255 ∧ (∀ b ∈ (blockAt v.mem k).data, b = 0) ∧ flagE v.flags = true ∧
      (reduces i = true → v.acc = 0x7FC00000#64)

/-- The bit instructions (08 R158): lane by lane on the bit patterns, with S1's width, format and scale; S2 = a gives each lane
the low bits of a[31:0] (08 R152). -/
def Obligations.BitInstructionsWorkLanewise : Prop :=
  ∀ i g f, bitRow i = some g → laneForm i = some f → ∀ (s u : State) (d : Ref) (x y : Src) (k : Nat), s.cur.live = true →
    LaneReady f s u d [x, y] → DestBuffer u d k → Plain x → Plain y → k + 64 ≤ descBase →
    ∃ v, exec i s = .next v ∧ (blockAt v.mem k).fmt = x.block.fmt ∧ (blockAt v.mem k).scale = x.block.scale ∧
      ∀ j < lanesOf (widthOf x.block.fmt.toNat),
        elemAt (blockAt v.mem k).data (widthOf x.block.fmt.toNat) j =
          g (widthOf x.block.fmt.toNat) (elemAt x.block.data (widthOf x.block.fmt.toNat) j)
            (if y.alpha then s.acc.toNat % 2 ^ 32 % 2 ^ widthOf x.block.fmt.toNat
             else elemAt y.block.data (widthOf x.block.fmt.toNat) j)

/-- vmsk (08 R159, R153): a's bit j tells whether a lane i with i mod 64 = j has nonzero bits, Z and N tell of a, C and V stay; a
poisoned source gives 0 and E.

vmov copies the whole block with its descriptor, whatever its format; vbcast, vperm and vcmpr move the bits of S1's lanes and
keep its descriptor; vcmpr moves the lanes that a keeps down, the others are zero, and counts them, of a poisoned S1 too (08 R159,
R161).

Z and N of a poisoned source and the block that vmov and vbcast read from a are read by inference (log 13, 28). -/
def Obligations.MasksMovesAndPermutes : Prop :=
  (∀ (a : Spec) (s q u : State) (x : Src), s.cur.live = true →
    (s.operand a 0 64).1.needPorts ((s.operand a 0 64).2.uses false 8) = .ok q →
    q.readSrcs checkWidth [] [(s.operand a 0 64).2] = .ok (u, [x]) →
    ∃ v m, exec (.vmsk a) s = .next v ∧ Kept s v ∧ SameBytes s v ∧ v.acc = m ∧ flagZ v.flags = (m == 0) ∧
      flagN v.flags = m.getLsbD 63 ∧ flagC v.flags = flagC s.flags ∧ flagV v.flags = flagV s.flags ∧
      (x.block.scale = 255 → m = 0 ∧ flagE v.flags = true) ∧
      (x.block.scale ≠ 255 → flagE v.flags = flagE s.flags ∧ ∀ j < 64, (m.getLsbD j = true ↔
        ∃ i < lanesOf (widthOf x.block.fmt.toNat), i % 64 = j ∧ elemAt x.block.data (widthOf x.block.fmt.toNat) i ≠ 0))) ∧
  (∀ i f, laneForm i = some f → ∀ (s u : State) (d : Ref) (k : Nat), s.cur.live = true → DestBuffer u d k →
    k + 64 ≤ descBase →
    (copiesPoison i = true → ∀ x, LaneReady f s u d [x] → x.block.data.length = 64 →
      ∃ v, exec i s = .next v ∧ blockAt v.mem k = x.block ∧ v.flags = s.flags) ∧
    (∀ d' a x, i = .vbcast d' a → LaneReady f s u d [x] → Plain x → ∃ v, exec i s = .next v ∧
      (blockAt v.mem k).fmt = x.block.fmt ∧ (blockAt v.mem k).scale = x.block.scale ∧
      ∀ j < lanesOf (widthOf x.block.fmt.toNat), elemAt (blockAt v.mem k).data (widthOf x.block.fmt.toNat) j =
        elemAt x.block.data (widthOf x.block.fmt.toNat) (s.acc.toNat % lanesOf (widthOf x.block.fmt.toNat))) ∧
    (∀ d' a b x y, i = .vperm d' a b → LaneReady f s u d [x, y] → Plain x → Plain y → ∃ v, exec i s = .next v ∧
      (blockAt v.mem k).fmt = x.block.fmt ∧ (blockAt v.mem k).scale = x.block.scale ∧
      ∀ j < lanesOf (widthOf x.block.fmt.toNat), elemAt (blockAt v.mem k).data (widthOf x.block.fmt.toNat) j =
        elemAt x.block.data (widthOf x.block.fmt.toNat)
          ((y.block.data.getD j 0).toNat % lanesOf (widthOf x.block.fmt.toNat))) ∧
    (∀ d' a x, i = .vcmpr d' a → LaneReady f s u d [x] → Plain x → ∃ v, exec i s = .next v ∧
      (blockAt v.mem k).fmt = x.block.fmt ∧ (blockAt v.mem k).scale = x.block.scale ∧
      v.acc.toNat = keptBelow s (lanesOf (widthOf x.block.fmt.toNat)) ∧
      (∀ j < lanesOf (widthOf x.block.fmt.toNat), s.acc.getLsbD j = true →
        elemAt (blockAt v.mem k).data (widthOf x.block.fmt.toNat) (keptBelow s j) =
          elemAt x.block.data (widthOf x.block.fmt.toNat) j) ∧
      ∀ j < lanesOf (widthOf x.block.fmt.toNat), keptBelow s (lanesOf (widthOf x.block.fmt.toNat)) ≤ j →
        elemAt (blockAt v.mem k).data (widthOf x.block.fmt.toNat) j = 0) ∧
    (∀ d' a x, i = .vcmpr d' a → LaneReady f s u d [x] → x.block.scale = 255 → ∃ v, exec i s = .next v ∧
      (blockAt v.mem k).scale = 255 ∧ flagE v.flags = true ∧ v.acc.toNat = keptBelow s (lanesOf (widthOf x.block.fmt.toNat))))

/-- vgath and vscat (08 R162, R164): with the table, the values and the indices readable and the blocks to write writable, they
complete 4 cycles and one for each distinct table block later; vgath writes its destination block, each lane the indexed element
rounded once into vf's format, vscat the table blocks that the indices name: each takes vf's format and vf.fscale, an element that a lane names takes the last such lane's value rounded, the others
keep their bits; poison in S1, in the indices, in vf.fscale or from a lane's rounding poisons the block. Of memory nothing else
changes.

Which addresses are checked and where poison goes is read by inference (log 26, 27). -/
def Obligations.GatherAndScatterComplete : Prop :=
  ∀ (s t q : State) (d a b : Spec) (base : Word), s.cur.live = true →
    (∀ y z k, evalRefs s [a, b, d] = (t, [.mem base, y, z]) → t.needPorts (blockUses [y] z) = .ok q →
      ∀ (q' u w : State) (l : Loc) (f : Fmt) (i : Src) (tab : List (Nat × Src)),
      q.locate base 64 64 .read tagLaneRead false true = .ok (q', l) → q'.tableFmt = .ok f → q'.laneSource y = .ok (u, i) →
      u.readTable base (touchedBlocks f.width (indices (lanesOf f.width) i)) = .ok (w, tab) → DestBuffer w z k →
      ∃ v, exec (.vgath d a b) s = .next v ∧ v.cur.pc = s.cur.pc + 4 ∧
        v.cur.readyAt = readyAfter s (4 + (touchedBlocks f.width (indices (lanesOf f.width) i)).length) ∧
        ((∃ x ∈ i :: tab.map (·.2), x.block.scale = 255) → k + 64 ≤ descBase → (blockAt v.mem k).scale = 255) ∧
        ((∀ x ∈ i :: tab.map (·.2), x.block.scale ≠ 255) → k + 64 ≤ descBase → ∃ e, RaisesE s v e ∧
          ConvertedAt s v k f (vfFmt s.cur.vf) ((List.range (lanesOf f.width)).map fun j =>
            let x := (i.block.data.getD j 0).toNat;
            ((((tab.lookup (x / lanesOf f.width)).map (Src.nums f.width)).getD []).getD (x % lanesOf f.width) .nan)) e) ∧
        v.acc = s.acc ∧
        ∀ j, ¬(k ≤ j ∧ j < k + 64) → j ≠ fmtKey k → j ≠ scaleKey k → SameByte s v j) ∧
    (∀ x y, evalRefs s [a, b, d] = (t, [x, y, .mem base]) → t.needPorts (blockUses [x, y] (.mem base)) = .ok q →
      ∀ (u w w' r : State) (f : Fmt) (v i : Src) (l : Loc) (olds : List (Nat × Loc × Block)), q.laneSource x = .ok (u, v) →
      u.tableFmt = .ok f → checkNum u [] v = .ok () → u.laneSource y = .ok (w, i) → w.laneLocate base = .ok (w', l) →
      w'.scatterReads base (touchedBlocks f.width (indices (lanesOf f.width) i)) = .ok (r, olds) → r.recall = none →
      (∀ o ∈ olds, ∃ win n g off, o.2.1 = .buf win n g off ∧ r.strikes n g off 64 = false ∧ PlainBlock r (bufKey n g off)) →
      olds.Pairwise (fun o p => Loc.spot o.2.1 ≠ Loc.spot p.2.1) →
      let lane := fun j => f.convert (vfMode s.cur.vf) (vfScale s.cur.vf) ((v.nums f.width).getD j .nan);
      let idx := fun j => (i.block.data.getD j 0).toNat;
      let n := lanesOf f.width;
      ∃ z, exec (.vscat d a b) s = .next z ∧ z.cur.pc = s.cur.pc + 4 ∧ z.acc = s.acc ∧
        z.cur.readyAt = readyAfter s (4 + (touchedBlocks f.width (indices n i)).length) ∧
        (∀ o ∈ olds, ∀ k, Loc.spot o.2.1 = some k →
          (v.block.scale = 255 ∨ i.block.scale = 255 ∨ vfScale s.cur.vf = 255 ∨
              (∃ j < n, idx j / n = o.1 ∧ (lane j).poison = true) →
            (blockAt z.mem k).scale = 255 ∧ flagE z.flags = true) ∧
          (v.block.scale ≠ 255 → i.block.scale ≠ 255 → vfScale s.cur.vf ≠ 255 →
              (∀ j < n, idx j / n = o.1 → (lane j).poison = false) →
            (blockAt z.mem k).fmt = BitVec.ofNat 8 (vfFmt s.cur.vf) ∧
            (blockAt z.mem k).scale = BitVec.ofNat 8 (vfScale s.cur.vf) ∧
            ∀ e < n,
              (∀ j < n, idx j = o.1 * n + e → (∀ m < n, j < m → idx m ≠ o.1 * n + e) →
                elemAt (blockAt z.mem k).data f.width e = (lane j).bits % 2 ^ f.width) ∧
              ((∀ j < n, idx j ≠ o.1 * n + e) →
                elemAt (blockAt z.mem k).data f.width e = elemAt o.2.2.data f.width e))) ∧
        ∀ j, (∀ o ∈ olds, ∀ k, Loc.spot o.2.1 = some k → ¬(k ≤ j ∧ j < k + 64) ∧ j ≠ fmtKey k ∧ j ≠ scaleKey k) →
          SameByte s z j)

/-- The conversions (07 R134 to R139, R142): S1's blocks, and S2 where there is one, readable and of the right formats, a numeric
vf, and every destination block writable: the instruction completes after 4 cycles and 2 for each block beyond the first. Each
destination block in a buffer holds its run of the values rounded once, or is poisoned where a source is; E tells of saturation and
poison, and of memory nothing else changes.

When a port is judged among the operands is read by inference (log 15, 16). -/
def Obligations.ConversionsComplete : Prop :=
  ∀ i f, convForm i = some f → ∀ (s t q q' u v w : State) (s1 d : Ref) (s2 : List Ref) (x0 : Src) (g : Fmt) (xs : List Src),
    s.cur.live = true → convRefs f s = (t, s1 :: s2, d) → t.needPorts (blockUses (s1 :: s2) d) = .ok q →
    checkedFirst f.short q d = .ok q' → q'.readSrcs f.chk [] [s1] = .ok (u, [x0]) →
    u.vfNum = .ok g → (f.needInt = true → g.kind = .integer) →
    u.readSrcs f.chk [x0] (restRefs s1 (srcCount (widthOf x0.block.fmt.toNat) g.width)) = .ok (v, xs) →
    ∀ z : Option Src, (s2 = [] → w = v ∧ z = none) →
    (∀ r ∈ s2, ∃ y, z = some y ∧ v.laneSource r = .ok (w, y) ∧ f.chk2 w (widthOf x0.block.fmt.toNat) y = .ok ()) →
    (∀ j < dstCount (widthOf x0.block.fmt.toNat) g.width, ∃ k, DestBuffer w (d.nth j) k) →
    ∃ r, exec i s = .next r ∧ r.cur.pc = s.cur.pc + BitVec.ofNat 64 f.len ∧
      r.cur.readyAt = readyAfter s (convDelay (widthOf x0.block.fmt.toNat) g.width) ∧ r.acc = s.acc ∧
      (∀ j < 7, j ≠ 5 → r.flags.getLsbD j = s.flags.getLsbD j) ∧
      ∀ k, (∀ j < dstCount (widthOf x0.block.fmt.toNat) g.width, DestBuffer w (d.nth j) (k + 64 * j)) →
        k + 64 * dstCount (widthOf x0.block.fmt.toNat) g.width ≤ descBase → k % 64 = 0 →
        ((∃ x ∈ xs ++ z.toList, x.block.scale = 255) → flagE r.flags = true ∧
          ∀ j < dstCount (widthOf x0.block.fmt.toNat) g.width, (blockAt r.mem (k + 64 * j)).scale = 255) ∧
        ((∀ x ∈ xs ++ z.toList, x.block.scale ≠ 255) → ∃ e : Nat → Bool,
          (∀ j < dstCount (widthOf x0.block.fmt.toNat) g.width, ConvertsAt i s r (k + 64 * j) j g xs z (e j)) ∧
          (flagE r.flags = true ↔ flagE s.flags = true ∨
            ∃ j < dstCount (widthOf x0.block.fmt.toNat) g.width, e j = true)) ∧
        ∀ a, ¬(k ≤ a ∧ a < k + 64 * dstCount (widthOf x0.block.fmt.toNat) g.width) →
          (∀ j < dstCount (widthOf x0.block.fmt.toNat) g.width, a ≠ fmtKey (k + 64 * j) ∧ a ≠ scaleKey (k + 64 * j)) →
          SameByte s r a

/-- vpack and vunpk (07 R140 to R142): 32 descriptors are gathered into one untyped block, or written from one; 20 cycles, and for
blocks behind X or in G once their writes are answered.

Which block a fault of vunpk names, and that its descriptors stand with the instruction, is the model's reading (log 7, 30). -/
def Obligations.PackAndUnpackDescriptors : Prop :=
  ∀ (s t q : State) (d a : Spec) (base : Word), s.cur.live = true →
    (∀ z k u l, evalRefs s [a, d] = (t, [.mem base, z]) → t.needPorts (blockUses [] z) = .ok q →
      q.descsFrom base 0 32 = .ok (u, l) → DestBuffer u z k →
      ∃ v, exec (.vpack d a) s = .next v ∧ v.mem = putBlock u.mem k { data := l, fmt := 0, scale := 127 } ∧ SameBytes s u ∧
        v.cur.readyAt = readyAfter s 20 ∧ v.acc = s.acc ∧ v.flags = s.flags) ∧
    (∀ x u (v : Src) (r : State) ls, evalRefs s [a, d] = (t, [x, .mem base]) → t.needPorts (x.uses false 8) = .ok q →
      q.laneSource x = .ok (u, v) → v.block.scale ≠ 255 → fmtReserved v.block.fmt.toNat = false →
      reservedIn v.block.data = none → u.descTargets base 0 32 = .ok (r, ls) → (∀ p ∈ ls, r.strikesLoc p.2 = false) →
      (∀ w z, r.descsOut base v.block.data false ls = .ok w → w.descsDone (ls.map Prod.snd) = .ok z →
        ∃ y, exec (.vunpk d a) s = .next y ∧ y.cur.readyAt = readyAfter s 20 ∧ y.acc = s.acc ∧ y.flags = s.flags) ∧
      (∀ k, r.recall = none → k % 64 = 0 → k + 2048 ≤ descBase →
        (∀ j < 32, ∃ b g off, ls[j]? = some (j, .buf false b g off) ∧ bufKey b g off = k + 64 * j) →
        ∃ w, exec (.vunpk d a) s = .next w ∧ w.cur.readyAt = readyAfter s 20 ∧ w.acc = s.acc ∧ w.flags = s.flags ∧
          (∀ j < 32, mget w.mem (fmtKey (k + 64 * j)) = v.block.data.getD (2 * j) 0 ∧
            mget w.mem (scaleKey (k + 64 * j)) = v.block.data.getD (2 * j + 1) 0) ∧
          ∀ j < descBase, mget w.mem j = mget s.mem j))

/-- The value an exact number m × 2^e becomes on the step 2^q (07 R125): the multiple n of the step is the largest not above it
under RTZ, and under RNE a nearest one, at a tie the even one; RDN and RUP move away from zero only in their own direction. Sums,
products, comparisons, least and greatest of finite numbers are exact before they are rounded (08 R154, R156, R159).

The descriptor instructions (07 R129 to R133): dget reads format and scale, dset writes both and no data, dchk tells of them in
Z, N, C and V, fset sets vf; a reserved code is a format mismatch in dset and fset.

A tie of a format without mantissa bits, taken to the even multiple, is read by inference (log 12). -/
def Obligations.RoundingAndDescriptorInstructions : Prop :=
  ((∀ (x y : Machine.Num) (q : Int) (down : Bool), OnStep q x → OnStep q y →
    (OnStep q (x.add down y) ∧ inSteps q (x.add down y) = inSteps q x + inSteps q y) ∧
    (OnStep (q + q) (x.mul y) ∧ inSteps (q + q) (x.mul y) = inSteps q x * inSteps q y) ∧
    x.cmp y = compare (inSteps q x) (inSteps q y) ∧ inSteps q (x.least y) = min (inSteps q x) (inSteps q y) ∧
    inSteps q (x.greatest y) = max (inSteps q x) (inSteps q y) ∧ inSteps q x.negate = -inSteps q x ∧
    inSteps q x.absolute = (inSteps q x).natAbs) ∧
  ∀ (neg : Bool) (m : Nat) (e q : Int), e < q →
    (let w := 2 ^ (q - e).toNat
     let z := roundTo 1 neg m e q
     z * w ≤ m ∧ m < (z + 1) * w ∧
     (let n := roundTo 0 neg m e q
      (n = z ∨ n = z + 1) ∧ 2 * (max (n * w) m - min (n * w) m) ≤ w ∧ (2 * (max (n * w) m - min (n * w) m) = w → n % 2 = 0)) ∧
     roundTo 2 neg m e q = (if neg = true ∧ z * w ≠ m then z + 1 else z) ∧
     roundTo 3 neg m e q = (if neg = false ∧ z * w ≠ m then z + 1 else z))) ∧
  (∀ (s t : State) (sp : Spec) (i : BitVec 13), s.cur.live = true →
    (∀ a u b, s.address sp i.toInt 64 = .ok (t, a) → t.descRead a = .ok (u, b) →
      (∃ v, exec (.dget sp i) s = .next v ∧ v.acc.toNat = b.scale.toNat * 256 + b.fmt.toNat ∧ v.flags = s.flags ∧ Kept s v ∧
        SameBytes s v) ∧
      ∃ v, exec (.dchk sp i) s = .next v ∧ v.acc = s.acc ∧ Kept s v ∧ SameBytes s v ∧
        v.flags = withZNCV s.flags (b.fmt.toNat == s.acc.toNat % 256 && b.scale != 255) (b.scale == 255)
          (fmtReserved b.fmt.toNat) false) ∧
    (∀ a r l, s.address sp i.toInt 64 = .ok (t, a) → t.locate a 64 64 .write tagDescWrite false false = .ok (r, l) →
      (fmtReserved (s.acc.toNat % 256) = true → exec (.dset sp i) s = .next (s.takeTrap 5 0 a s.cur.pc 4 none).clear) ∧
      (fmtReserved (s.acc.toNat % 256) = false → ∀ w z,
        r.descLoc a (some (BitVec.ofNat 8 s.acc.toNat)) (BitVec.ofNat 8 (s.acc.toNat / 256)) l = .ok w → w.descsDone [l] = .ok z →
        ∃ v, exec (.dset sp i) s = .next v ∧ v.cur.pc = s.cur.pc + 4 ∧ v.acc = s.acc ∧ v.flags = s.flags ∧ v.mem = w.mem) ∧
      (fmtReserved (s.acc.toNat % 256) = false → ∀ b g off, l = .buf false b g off → r.recall = none → r.strikes b g off 64 = false →
        ∃ v, exec (.dset sp i) s = .next v ∧ mget v.mem (fmtKey (bufKey b g off)) = BitVec.ofNat 8 s.acc.toNat ∧
          mget v.mem (scaleKey (bufKey b g off)) = BitVec.ofNat 8 (s.acc.toNat / 256) ∧ v.acc = s.acc ∧ v.flags = s.flags ∧
          ∀ j, j ≠ fmtKey (bufKey b g off) → j ≠ scaleKey (bufKey b g off) → mget v.mem j = mget s.mem j)) ∧
    (∀ x, s.source sp i.toInt 8 = .ok (t, x) →
      (fmtReserved (x.toNat % 256) = false → ∃ v, exec (.fset sp i) s = .next v ∧ v.cur.vf = x.truncate 19 ∧
        v.acc = s.acc ∧ v.flags = s.flags ∧ Kept s v ∧ SameBytes s v) ∧
      (fmtReserved (x.toNat % 256) = true → exec (.fset sp i) s = .next (s.takeTrap 5 0 0 s.cur.pc 4 none).clear)))

/-! ## Tiles, the matrix array and the accumulators (13) -/

/-- tcfg, tcfr, tzero and tmov with their tiles free (13 R245, R246): the shape is set, read, the rows become zero with scale
127, the tile is copied; a bad shape is a format mismatch.

tld and tst (13 R243, R244, R246): with a valid shape, the tile free and every row address accepted, the rows and their scales
move between A or W and the tile; the pointer steps once per row in the post form; the slot stays parked for the transfer; an
invalid shape is a format mismatch, and so is a row of another format, at its address.

That the rows move with the instruction, not during the transfer, is the model's choice (log 7). -/
def Obligations.TileShapesMovesLoadsAndStores : Prop :=
  (∀ (s q : State) (x y : BitVec 3), s.cur.live = true → s.curCore < 1024 →
    (s.tilesFree [] [x.toNat] = .ok q →
      (shapeValid (s.acc.truncate 23) = true → ∃ u, exec (.tcfg x) s = .next u ∧ u.shapeOf x.toNat = s.acc.truncate 23 ∧
        (∀ t, t ≠ x.toNat → u.shapeOf t = s.shapeOf t) ∧ SameBytes s u ∧ u.acc = s.acc ∧ SlotKept s u ∧ Passed s u 4) ∧
      (shapeValid (s.acc.truncate 23) = false → exec (.tcfg x) s = .next (s.takeTrap 5 0 0 s.cur.pc 4 none).clear) ∧
      ∃ u, exec (.tzero x) s = .next u ∧ (∀ j < 4096, mget u.mem (tileKey s.curCore x.toNat + j) = 0) ∧
        (∀ r < 64, mget u.mem (scaleKey (tileRow s.curCore x.toNat r)) = 127) ∧ OnlyTile s u x.toNat ∧ u.acc = s.acc ∧
        SlotKept s u ∧ Passed s u 4) ∧
    (s.tilesFree [x.toNat] [] = .ok q →
      ∃ u, exec (.tcfr x) s = .next u ∧ u.acc = (s.shapeOf x.toNat).zeroExtend 64 ∧ Kept s u ∧ SameBytes s u ∧
        SlotKept s u ∧ Passed s u 4) ∧
    (s.tilesFree [y.toNat] [x.toNat] = .ok q →
      ∃ u, exec (.tmov x y) s = .next u ∧ u.shapeOf x.toNat = s.shapeOf y.toNat ∧
        (∀ j < 4096, mget u.mem (tileKey s.curCore x.toNat + j) = mget s.mem (tileKey s.curCore y.toNat + j)) ∧
        (∀ r < 64, mget u.mem (scaleKey (tileRow s.curCore x.toNat r)) = mget s.mem (scaleKey (tileRow s.curCore y.toNat r))) ∧
        OnlyTile s u x.toNat ∧ u.acc = s.acc ∧ SlotKept s u ∧ Passed s u 36)) ∧
  (∀ (s q : State) (x n : BitVec 3) (p : Bool) (t : State) (ls : List (Word × Loc)), s.cur.live = true → s.curCore < 1024 →
    s.recall = none →
    (s.tilesFree [] [x.toNat] = .ok q →
      (shapeValid (s.shapeOf x.toNat) = false → exec (.tld x p n) s = .next (s.takeTrap 5 0 0 s.cur.pc 4 none).clear) ∧
      (shapeValid (s.shapeOf x.toNat) = true →
        q.rowLocs .read tagAW (s.rowAddr n.toNat) 0 (shapeRows (s.shapeOf x.toNat)) = .ok (t, ls) →
        (∀ a, t.rowsFmt (shapeFmt (s.shapeOf x.toNat)) ls = .error (.trap 5 a) →
          exec (.tld x p n) s = .next (s.takeTrap 5 0 a s.cur.pc 4 none).clear) ∧
        (t.rowsFmt (shapeFmt (s.shapeOf x.toNat)) ls = .ok () →
          ∃ u, exec (.tld x p n) s = .next u ∧ Moving s u ((shapeRows (s.shapeOf x.toNat) + 1) / 2) ∧ OnlyTile s u x.toNat ∧
            SlotKept s u ∧ u.acc = s.acc ∧
            (u.ptr n.toNat = if p then pointerPlus (s.ptr n.toNat) (shapeRows (s.shapeOf x.toNat) * s.stepInt n.toNat)
              else s.ptr n.toNat) ∧
            ∀ r < shapeRows (s.shapeOf x.toNat), ∃ a l, ls[r]? = some (a, l) ∧
              mgets u.mem (tileRow s.curCore x.toNat r) 64 = (s.rowBlock l).data ∧
              mget u.mem (scaleKey (tileRow s.curCore x.toNat r)) = ((t.senseRows (ls.map Prod.snd)).rowBlock l).scale))) ∧
    (s.tilesFree [x.toNat] [] = .ok q →
      (shapeValid (s.shapeOf x.toNat) = false → exec (.tstTile x p n) s = .next (s.takeTrap 5 0 0 s.cur.pc 4 none).clear) ∧
      (shapeValid (s.shapeOf x.toNat) = true →
        q.rowLocs .write tagA (s.rowAddr n.toNat) 0 (shapeRows (s.shapeOf x.toNat)) = .ok (t, ls) →
        (∀ l ∈ ls, s.strikesLoc l.2 = false) →
        ∃ u, exec (.tstTile x p n) s = .next u ∧ Moving s u ((shapeRows (s.shapeOf x.toNat) + 1) / 2) ∧ SlotKept s u ∧
          u.acc = s.acc ∧ u.flags = s.flags ∧
          (u.ptr n.toNat = if p then pointerPlus (s.ptr n.toNat) (shapeRows (s.shapeOf x.toNat) * s.stepInt n.toNat)
            else s.ptr n.toNat) ∧
          (ls.Pairwise (fun k l => Loc.spot k.2 ≠ Loc.spot l.2) → ∀ r a w b g off, ls[r]? = some (a, .buf w b g off) →
            PlainBlock s (bufKey b g off) →
            blockAt u.mem (bufKey b g off) = { data := mgets s.mem (tileRow s.curCore x.toNat r) 64,
                                               fmt := BitVec.ofNat 8 (shapeFmt (s.shapeOf x.toNat)),
                                               scale := mget s.mem (scaleKey (tileRow s.curCore x.toNat r)) }) ∧
          ∀ j, (∀ a w b g off, (a, Loc.buf w b g off) ∈ ls → ¬(bufKey b g off ≤ j ∧ j < bufKey b g off + 64) ∧
            j ≠ fmtKey (bufKey b g off) ∧ j ≠ scaleKey (bufKey b g off)) → SameByte s u j)))

/-- cclr, cadd, cscl and cstat with their accumulator tiles free (13 R260, R261, R264 to R266): cclr fills the cells and clears
status and masks; cadd joins the masks and combines the cells by the additive operation; cscl scales, an i56 cell shifted left with
saturation or right with rounding, an a56 cell rounded, NaN and infinities kept; cstat, cstat.r and cstat.c read the status word and
the masks.

crd and cwr (13 R260, R262, R263): with the tile free, a numeric vf or a tile of floating cells, and every block address
accepted, they complete and stay parked for the transfer; crd writes its blocks only, each with its cells converted, poisoned where a
cell is; cwr the cells of its rows only, from images under scale 127 or in a poisoned block as they stand, and a poisoned block marks
its row.

That the blocks move with the instruction, not during the transfer, is the model's choice (log 7). -/
def Obligations.AccumulatorInstructionsAndTransfers : Prop :=
  (∀ (s q : State) (c : BitVec 3), s.cur.live = true → s.curCore < 1024 → s.tilesFree [] [8 + c.toNat] = .ok q →
    (∀ f : BitVec 2, ∃ u, exec (.cclr c f) s = .next u ∧ OnlyCells s u s.curCore c.toNat ∧ SlotKept s u ∧ u.acc = s.acc ∧
      Passed s u 4 ∧ (u.accOf s.curCore c.toNat).status = (if f = 3 then 1 else 0) ∧
      (u.accOf s.curCore c.toNat).rmask = 0 ∧ (u.accOf s.curCore c.toNat).cmask = 0 ∧
      ((f = 0 ∨ f = 3) → ∀ j < 0x7000, mget u.mem (cellKey s.curCore c.toNat 0 + j) = 0) ∧
      (f = 1 → ∀ i < 64, ∀ j < 64, cellOf u s.curCore c.toNat i j = 0x7FF * 2 ^ 44) ∧
      (f = 2 → ∀ i < 64, ∀ j < 64, cellOf u s.curCore c.toNat i j = 0xFFF * 2 ^ 44)) ∧
    (∀ e : BitVec 10, ∃ u, exec (.cscl c e) s = .next u ∧ OnlyCells s u s.curCore c.toNat ∧ SlotKept s u ∧ u.acc = s.acc ∧
      Passed s u 20 ∧ (u.accOf s.curCore c.toNat).rmask = (s.accOf s.curCore c.toNat).rmask ∧
      (u.accOf s.curCore c.toNat).cmask = (s.accOf s.curCore c.toNat).cmask ∧
      ((s.accOf s.curCore c.toNat).isInt = true → ∀ i < 64, ∀ j < 64,
        let v := cellInt (cellOf s s.curCore c.toNat i j);
        cellInt (cellOf u s.curCore c.toNat i j) =
          if 0 ≤ e.toInt then max (-(2 ^ 55)) (min (2 ^ 55 - 1) (v * 2 ^ e.toInt.toNat))
          else (if v < 0 then -1 else 1) * (roundTo 0 (decide (v < 0)) v.natAbs e.toInt 0 : Int)) ∧
      ((s.accOf s.curCore c.toNat).isInt = false → ∀ i < 64, ∀ j < 64,
        (∀ n m d, fmtCell.read (cellOf s s.curCore c.toNat i j) = .fin n m d →
          cellOf u s.curCore c.toNat i j = a56Of (.fin n m (d + e.toInt))) ∧
        ((∀ n m d, fmtCell.read (cellOf s s.curCore c.toNat i j) ≠ .fin n m d) →
          cellOf u s.curCore c.toNat i j = cellOf s s.curCore c.toNat i j))) ∧
    (∃ u, exec (.cstat c) s = .next u ∧ u.acc = (s.accOf s.curCore c.toNat).word ∧ Kept s u ∧ SameBytes s u ∧ SlotKept s u ∧
      Passed s u 4) ∧
    (∃ u, exec (.cstatR c) s = .next u ∧ u.acc = (s.accOf s.curCore c.toNat).rmask ∧ Kept s u ∧ SameBytes s u ∧
      SlotKept s u ∧ Passed s u 4) ∧
    (∃ u, exec (.cstatC c) s = .next u ∧ u.acc = (s.accOf s.curCore c.toNat).cmask ∧ Kept s u ∧ SameBytes s u ∧
      SlotKept s u ∧ Passed s u 4) ∧
    (∀ (x r : BitVec 3) (q' : State), s.tilesFree [] [8 + c.toNat, 8 + x.toNat] = .ok q' →
      (s.accOf s.curCore c.toNat).isInt = (s.accOf s.curCore x.toNat).isInt →
      (r = 4 → (s.accOf s.curCore c.toNat).isInt = true) →
      ∃ u, exec (.cadd c x r) s = .next u ∧ OnlyCells s u s.curCore c.toNat ∧ SlotKept s u ∧ u.acc = s.acc ∧ Passed s u 20 ∧
        (u.accOf s.curCore c.toNat).rmask = (s.accOf s.curCore c.toNat).rmask ||| (s.accOf s.curCore x.toNat).rmask ∧
        (u.accOf s.curCore c.toNat).cmask = (s.accOf s.curCore c.toNat).cmask ||| (s.accOf s.curCore x.toNat).cmask ∧
        (r.toNat ≤ 4 → ∀ i < 64, ∀ j < 64, AddsCell r.toNat (s.accOf s.curCore c.toNat).isInt (cellOf s s.curCore c.toNat i j)
          (cellOf s s.curCore x.toNat i j) (cellOf u s.curCore c.toNat i j)))) ∧
  (∀ (s r t : State) (c q : BitVec 3) (p : Bool) (n : BitVec 6) (ls : List (Nat × Nat × Word × Loc)), s.cur.live = true →
    s.curCore < 1024 → s.recall = none → s.tilesFree [] [8 + c.toNat] = .ok r →
    (∀ f, s.vfNum = .ok f → r.checkBlocks .write tagLA (s.blockAddrs q.toNat (n.toNat + 1) (rowBlocks f.width)) = .ok (t, ls) →
      (∀ l ∈ ls, s.strikesLoc l.2.2.2 = false) →
      ∃ u, exec (.crd c p q n) s = .next u ∧ Moving s u (((n.toNat + 1) * rowBlocks f.width + 1) / 2) ∧ SlotKept s u ∧
        u.acc = s.acc ∧
        (ls.Pairwise (fun k l => Loc.spot k.2.2.2 ≠ Loc.spot l.2.2.2) → ∀ i b a w k g off, (i, b, a, Loc.buf w k g off) ∈ ls →
          PlainBlock s (bufKey k g off) →
          blockAt u.mem (bufKey k g off) = (s.readBlock s.curCore c.toNat i b f (BitVec.ofNat 8 (vfFmt s.cur.vf))).1 ∧
          ((∃ l < min 64 (lanesOf f.width), (s.accOf s.curCore c.toNat).bad i (b * min 64 (lanesOf f.width) + l) = true) →
            (blockAt u.mem (bufKey k g off)).scale = 255 ∧ flagE u.flags = true)) ∧
        ∀ j, (∀ i b a w k g off, (i, b, a, Loc.buf w k g off) ∈ ls → ¬(bufKey k g off ≤ j ∧ j < bufKey k g off + 64) ∧
          j ≠ fmtKey (bufKey k g off) ∧ j ≠ scaleKey (bufKey k g off)) → SameByte s u j) ∧
    ((s.accOf s.curCore c.toNat).isInt = false →
      r.checkBlocks .read tagLAW (s.blockAddrs q.toNat (n.toNat + 1) 8) = .ok (t, ls) → t.imagesFmt ls = .ok () →
      ∃ u, exec (.cwr c p q n) s = .next u ∧ Moving s u (((n.toNat + 1) * 8 + 1) / 2) ∧ SlotKept s u ∧ u.acc = s.acc ∧
        u.flags = s.flags ∧ OnlyCells s u s.curCore c.toNat ∧
        (∀ i b a l, (i, b, a, l) ∈ ls → let x := (t.senseRows (ls.map fun k => k.2.2.2)).rowBlock l;
          (x.scale = 127 ∨ x.scale = 255 → ∀ m < 8, cellOf u s.curCore c.toNat i (8 * b + m) = elemAt x.data 64 m / 256) ∧
          (x.scale = 255 → (u.accOf s.curCore c.toNat).rmask.getLsbD i = true)) ∧
        ∀ i < 64, n.toNat < i → ∀ j < 64, cellOf u s.curCore c.toNat i j = cellOf s s.curCore c.toNat i j))

/-- mm (13 R250, R255): with the array and the tiles free and the shapes and kinds right, the step occupies the array and the slot
is ready again 36 cycles later, 68 on a half array; no cell changes before the step's end. -/
def Obligations.MatrixStepStarts : Prop :=
  ∀ (s q : State) (c x y r : BitVec 3), s.cur.live = true → s.takeTiles true [x.toNat, y.toNat] [8 + c.toNat] = .ok q →
    s.stepCheck c.toNat x.toNat y.toNat r.toNat = .ok () →
    ∃ u a, exec (.mm c x y r) s = .next u ∧ u.curCoreOf.array = some a ∧ a.slot = s.curSlot ∧ a.c = c.toNat ∧ a.x = x.toNat ∧
      a.y = y.toNat ∧ a.sr = r.toNat ∧ a.till = s.curCoreOf.cycle + (if s.half.contains s.curCore then 64 else 32) ∧
      Passed s u (if s.half.contains s.curCore then 68 else 36) ∧ SameBytes s u ∧ SlotKept s u ∧ u.acc = s.acc

/-- What the array and the tile ports do at their time (13 R246, R250, R254 to R256, R267): the step in flight ends and leaves the
array free, having written no byte but cells of its accumulator tile, of which those within both shapes are updated and the others
stay; a poisoned row of an input marks the row or the column; a macro-operation's step lowers lc by one and steps both pointers; the
first residue mismatch replays the step, 32 cycles; a second one writes no cell and takes the island out of service; a transfer that is
over is no use of its tile any more.

mmx (13 R256, R258): its checks as mm's; with lc 0 it completes without a step, the stage tiles taking their partners' shapes;
else the macro-operation is in flight and its slot parked; x and y of one pair are illegal.

When the array and the ports act, and that a residue mismatch is an event, are the model's choices (log 8, 36). -/
def Obligations.ArrayTileAndMacroSteps : Prop :=
  (∀ (s : State) (g k : Nat), g < 1024 → k < 11 →
    (∀ a, (s.core g).array = some a → a.till ≤ (s.core g).cycle → shapeValid ((s.core g).shapeOf a.x) = true →
      ∃ u, exec (.chunkStepComplete g) s = .next u ∧ (u.core g).array = none ∧ OnlyCells s u g a.c ∧
        tget 0 (u.core g).ctr 0x050 = tget 0 (s.core g).ctr 0x050 + 1 ∧
        (a.c < 8 → a.x < 8 → a.y < 8 →
          let w := (s.core g).shapeOf a.x;
          let z := (s.core g).shapeOf a.y;
          (∀ i < 64, ∀ j < 64, cellOf u g a.c i j =
            if i < shapeRows w ∧ j < shapeRows z then
              (cellStep a.sr (s.accOf g a.c).isInt (windowed a.sr w z) (windowed a.sr w z && s.shortWindow g) (cellOf s g a.c i j)
                (s.tileNums g a.x w i) (s.tileNums g a.y z j)).1 % 2 ^ 56
            else cellOf s g a.c i j) ∧
          (∀ i < 64, (u.accOf g a.c).rmask.getLsbD i = ((s.accOf g a.c).rmask.getLsbD i ||
            decide (i < shapeRows w ∧ mget s.mem (scaleKey (tileRow g a.x i)) = 255))) ∧
          ∀ j < 64, (u.accOf g a.c).cmask.getLsbD j = ((s.accOf g a.c).cmask.getLsbD j ||
            decide (j < shapeRows z ∧ mget s.mem (scaleKey (tileRow g a.y j)) = 255)))) ∧
    (∀ d : Damask, (s.core g).damask = some d → d.till ≤ (s.core g).cycle → d.slot = k → d.c < 8 → d.x < 8 → d.y < 8 →
      d.sr < 8 → d.a < 8 → d.b < 8 → d.a ≠ d.b → (s.slot g k).live = true → (s.cluster (clusterOf g)).halt = false →
      (∃ t, ({ s with curCore := g, curSlot := k } : State).loadImages d = .ok t) →
      ∃ u, exec (.damaskStep g k d.n (BitVec.ofNat 3 d.c) (BitVec.ofNat 3 d.x) (BitVec.ofNat 3 d.y) (BitVec.ofNat 3 d.sr)
          (BitVec.ofNat 3 d.a) (BitVec.ofNat 3 d.b)) s = .next u ∧
        (u.slot g k).lc = (s.slot g k).lc - 1 ∧
        (u.slot g k).ptr d.a = pointerPlus ((s.slot g k).ptr d.a) ((s.slot g k).stepOf d.a).toInt ∧
        (u.slot g k).ptr d.b = pointerPlus ((s.slot g k).ptr d.b) ((s.slot g k).stepOf d.b).toInt ∧
        ((s.slot g k).lc = 1 → (u.core g).damask = none ∧ (u.slot g k).pc = (s.slot g k).pc + 4)) ∧
    (∀ a, (s.core g).array = some a → a.slot = k → a.replayed = false → (s.core g).checkedStep a.x a.y a.sr = true →
      ∃ u b, exec (.residueReplay g k false) s = .next u ∧ (u.core g).array = some b ∧ b.till = a.till + 32 ∧
        b.replayed = true ∧ SameBytes s u ∧ tget 0 (u.core g).ctr 0x051 = tget 0 (s.core g).ctr 0x051 + 1) ∧
    (∀ a, (s.core g).array = some a → a.slot = k → a.replayed = true → (s.core g).checkedStep a.x a.y a.sr = true →
      ∃ u, exec (.residueReplay g k true) s = .next u ∧ (u.core g).array = none ∧ g ∈ u.outOf ∧ SameBytes s u) ∧
    ∃ u, exec (.tileTransferComplete g k) s = .next u ∧ SameBytes s u ∧
      ∀ x ∈ (u.core g).uses, ¬(x.slot = k ∧ x.till ≤ (s.core g).cycle)) ∧
  (∀ (s : State) (c x y r a b : BitVec 3), s.cur.live = true →
    (x.toNat / 2 = y.toNat / 2 → exec (.mmx c x y r a b) s = .next (s.takeTrap 1 0 0 s.cur.pc 4 none).clear) ∧
    (x.toNat / 2 ≠ y.toNat / 2 →
      ∀ q, s.takeTiles true [] [x.toNat, partner x.toNat, y.toNat, partner y.toNat, 8 + c.toNat] = .ok q →
      s.stepCheck c.toNat x.toNat y.toNat r.toNat = .ok () →
      (s.cur.lc = 0 → ∃ u, exec (.mmx c x y r a b) s = .next u ∧ Passed s u 4 ∧ SameBytes s u ∧ SlotKept s u ∧
        u.shapeOf (partner x.toNat) = s.shapeOf x.toNat ∧ u.shapeOf (partner y.toNat) = s.shapeOf y.toNat) ∧
      (s.cur.lc ≠ 0 → ∃ u d, exec (.mmx c x y r a b) s = .next u ∧ u.curCoreOf.damask = some d ∧ d.slot = s.curSlot ∧ d.n = 0 ∧
        d.c = c.toNat ∧ d.x = x.toNat ∧ d.y = y.toNat ∧ d.a = a.toNat ∧ d.b = b.toNat ∧ u.cur.pc = s.cur.pc ∧
        (∃ p, u.cur.park = some p ∧ p.reason = .mtx) ∧ SameBytes s u)))

/-! ## Blocks in global memory, copies, quantisation commands and atomics (07 R147 to R149, 09, 10 R194 to R202) -/

/-- gldv and gstv (09 R174, R175): the G address is checked, then the block at p6; the block moves with its descriptor and both
pointers step; a block stored in G is written while the slot waits for the answer. gpref changes no register but its pointer and no
byte (09 R176).

That a block of this chip moves at once is the model's choice (log 7). -/
def Obligations.BlocksMoveThroughGlobalMemory : Prop :=
  ∀ (s t u : State) (sp : Spec) (i : BitVec 13) (a : Word), s.cur.live = true →
    s.address sp i.toInt 64 = .ok (t, a) → u = t.stepPtr 6 (t.stepInt 6) →
    (∀ (q r w : State) (l d : Loc) b, u.locate a 64 64 .read tagG false false = .ok (q, l) →
      q.locate (t.ptr 6) 64 64 .write tagLaneWrite false false = .ok (r, d) → r.blockLoc l = .ok (w, b) →
      (∀ z, w.putLoc (t.ptr 6) b false d = .ok z → ∃ v, exec (.gldv sp i) s = .next v ∧ v.mem = z.mem ∧ v.acc = s.acc ∧
        v.flags = s.flags ∧ (∀ n, v.ptr n = u.ptr n) ∧ Passed s v 4) ∧
      (∀ x b' g off, d = .buf x b' g off → w.recall = none → w.strikes b' g off 64 = false → WholeErrors w (bufKey b' g off) →
        ∃ v, exec (.gldv sp i) s = .next v ∧ v.mem = putBlock w.mem (bufKey b' g off) b ∧ SameBytes s w ∧ Passed s v 4)) ∧
    (∀ (q r w : State) (l d : Loc) b, u.locate a 64 64 .write tagG false false = .ok (q, l) →
      q.locate (t.ptr 6) 64 64 .read tagLaneRead false false = .ok (r, d) → r.blockLoc d = .ok (w, b) →
      (∀ z, w.putLoc a b true l = .ok z → ∃ v, exec (.gstv sp i) s = .next v ∧ v.mem = z.mem ∧ v.acc = s.acc ∧
        v.flags = s.flags ∧ (∀ n, v.ptr n = u.ptr n) ∧ Passed s v 4) ∧
      (∀ x e va, l = .glob x e va → w.recall = none → ∃ v, exec (.gstv sp i) s = .next v ∧ Answering s v ∧
        (∀ pa, x = .here pa → WholeErrors w pa → v.mem = putBlock w.mem pa b ∧ SameBytes s w) ∧
        (∀ c pa, x = .chip c pa → SameBytes s v))) ∧
    (∃ v, exec (.gpref sp i) s = .next v ∧ v.cur = t.cur.done s.curCoreOf.cycle 4 4 ∧ SameBytes s v)

/-- cpy and cpyr (09 R186, R187), wtok, ttok and tokr (09 R188): a copy is handed to an engine of this chip with room, its token busy
and the answer waited for, or is turned away; F tells which; a busy token makes cpy, wtok and tokr wait; ttok tells of the token in Z,
N and C.

Which copies count against an engine's room is read by inference (log 85). -/
def Obligations.CopiesAndTokens : Prop :=
  ∀ (s : State), s.cur.live = true →
    (∀ (k : BitVec 3) (sp : Spec) (i : BitVec 8) (v : State) (a : Word) (d : List Byte) (replay : Bool),
      CopyRead s v k.toNat sp i.toInt a d →
      ((tget Tok.idle v.cur.tok k.toNat).busy = true → v.recall = none →
        ∃ u, exec (if replay then .cpyr k sp i else .cpy k sp i) s = .next u ∧ Waiting s u .tok) ∧
      (∀ x e, CopyEngine v x k.toNat d e →
        (∀ z, x.copyAsked k.toNat e d (offOf a) replay = .ok z →
          ∃ u, exec (if replay then .cpyr k sp i else .cpy k sp i) s = .next u ∧ u.copies = z.copies ∧ u.acc = s.acc ∧
            flagF u.flags = flagF z.flags ∧ Passed s u 4) ∧
        (∀ n, engChip e = s.chip → x.recall = some (.num n) →
          ∃ u, exec (if replay then .cpyr k sp i else .cpy k sp i) s = .next u ∧ u.copies = s.copies ∧
            flagF u.flags = (n != 0) ∧ SameBytes s u ∧ Passed s u 4) ∧
        (engChip e = s.chip → x.recall = none → x.engineRoom e = true →
          ∃ u c, exec (if replay then .cpyr k sp i else .cpy k sp i) s = .next u ∧ Answering s u ∧ SameBytes s u ∧
            (tget Tok.idle u.cur.tok k.toNat).busy = true ∧ u.nextId = s.nextId + 1 ∧ u.copies = tput s.copies s.nextId c ∧
            c.desc = d ∧ c.engine = e ∧ c.replay = replay ∧ c.core = s.curCore ∧ c.slot = s.curSlot ∧ c.tok = k.toNat ∧
            u.cur.replies[x.trail.length]? = some (.num 0)) ∧
        (engChip e = s.chip → x.recall = none → x.engineRoom e = false →
          ∃ u, exec (if replay then .cpyr k sp i else .cpy k sp i) s = .next u ∧ Answering s u ∧ SameBytes s u ∧
            u.copies = s.copies ∧ u.cur.tok = s.cur.tok ∧ u.cur.replies[x.trail.length]? = some (.num 1)))) ∧
    (∀ m : BitVec 8, (∀ k < 8, m.getLsbD k = true → (tget Tok.idle s.cur.tok k).busy = false) →
      ∃ u, exec (.wtok m) s = .next u ∧ u.cur = s.cur.done s.curCoreOf.cycle 4 4 ∧ Kept s u ∧ SameBytes s u) ∧
    (∀ (m : BitVec 8) (k : Nat), k < 8 → m.getLsbD k = true → (tget Tok.idle s.cur.tok k).busy = true →
      ∃ u, exec (.wtok m) s = .next u ∧ Waiting s u .tok) ∧
    (∀ k : BitVec 3, ∃ u, exec (.ttok k) s = .next u ∧ Kept s u ∧ SameBytes s u ∧
      u.cur = (s.cur.setFlags (withZNCV s.flags (!(tget Tok.idle s.cur.tok k.toNat).busy)
        (!(tget Tok.idle s.cur.tok k.toNat).busy && (tget Tok.idle s.cur.tok k.toNat).status != 0)
        (!(tget Tok.idle s.cur.tok k.toNat).busy && (tget Tok.idle s.cur.tok k.toNat).status == 2) false)).done
        s.curCoreOf.cycle 4 4) ∧
    (∀ k : BitVec 3, (tget Tok.idle s.cur.tok k.toNat).busy = false → ∃ u, exec (.tokr k) s = .next u ∧ Kept s u ∧
      SameBytes s u ∧ u.acc = (tget Tok.idle s.cur.tok k.toNat).moved ∧ flagN u.flags = false ∧
      flagZ u.flags = ((tget Tok.idle s.cur.tok k.toNat).moved == 0) ∧ flagC u.flags = flagC s.flags ∧
      flagV u.flags = flagV s.flags) ∧
    (∀ k : BitVec 3, (tget Tok.idle s.cur.tok k.toNat).busy = true → ∃ u, exec (.tokr k) s = .next u ∧ Waiting s u .tok)

/-- qsub and qstat (07 R147, R149): a command joins the queue of its engine, or is turned away by one that holds 128, and the slot
waits for the engine's answer, the ticket or 0; then a takes it, and F tells that there is none. qstat waits likewise for the free
entries, the last bad status and its ticket.

That the 128 commands of a queue count the one that runs is the model's choice (log 98), and so is that room, ticket and the
qstat value are decided when they are asked (log 7). -/
def Obligations.QuantisationCommandsQueue : Prop :=
  ∀ (s : State) (k : BitVec 2), s.cur.live = true →
    (∀ (sp : Spec) (i : BitVec 8) (t u v : State) (a : Word) (l : Loc) (b : Block), s.address sp i.toInt 8 = .ok (t, a) →
      t.locate a 64 64 .read (fun tag => tag == 0) false false = .ok (u, l) → u.blockLoc l = .ok (v, b) → b.scale ≠ 255 →
      (v.recall = none → (s.engine k.toNat).queue.length < 128 → ∃ w c, exec (.qsub k sp i) s = .next w ∧ Answering s w ∧
        (w.engine k.toNat).queue = (s.engine k.toNat).queue ++ [c] ∧ c.desc = b.data ∧
        c.ticket = tget 0 (s.engine k.toNat).tickets (s.ctxOf s.curCore) + 1 ∧
        w.cur.replies[v.trail.length]? = some (.num c.ticket) ∧ SameBytes s w) ∧
      (v.recall = none → 128 ≤ (s.engine k.toNat).queue.length → ∃ w, exec (.qsub k sp i) s = .next w ∧ Answering s w ∧
        (w.engine k.toNat).queue = (s.engine k.toNat).queue ∧ w.cur.replies[v.trail.length]? = some (.num 0) ∧ SameBytes s w) ∧
      (∀ n, v.recall = some (.num n) → ∃ w, exec (.qsub k sp i) s = .next w ∧ w.acc = BitVec.ofNat 64 n ∧
        flagF w.flags = (n == 0) ∧ w.quant = s.quant ∧ SameBytes s w ∧ Passed s w 4)) ∧
    (s.recall = none → ∃ v, exec (.qstat k) s = .next v ∧ Waiting s v .mem ∧
      v.cur.replies[s.trail.length]? = some (.num ((tget (0, 0) (s.engine k.toNat).bad (s.ctxOf s.curCore)).1 * 65536 +
        (tget (0, 0) (s.engine k.toNat).bad (s.ctxOf s.curCore)).2 * 256 + (128 - (s.engine k.toNat).queue.length)))) ∧
    (∀ n, s.recall = some (.num n) → ∃ v, exec (.qstat k) s = .next v ∧ v.flags = s.flags ∧ Kept s v ∧ SameBytes s v ∧
      v.acc = BitVec.ofNat 64 n ∧ Passed s v 4)

/-- The scalar atomics (10 R195 to R198): a takes the old word, zero-extended, Z and N tell of it; F says of acas whether the old
differs from the expected value at p7; no other flag or pointer but the operand's changes. At a word of this chip that is no poisoned
block and under no watchpoint, the word takes the new value, acas only when the old equals the expected; no other byte changes; in the
core's own L the instruction then completes, elsewhere it waits for the answer.

The order of acas's checks is read by inference (log 37); that the atomic is performed with the instruction is log 7. -/
def Obligations.AtomicReturnsOldAndWritesNew : Prop :=
  ∀ i funct size sp im, amoForm i = some (funct, size, sp, im) → ∀ (s t u : State) (a : Word) (l : Loc) (x : Nat),
    s.cur.live = true → AtomicRead funct size sp im s t u a l x →
    (∀ w old, u.amoAt a funct size (s.acc.toNat % 2 ^ (8 * size)) x l = .ok (w, old) →
      ∃ r, exec i s = .next r ∧ r.mem = w.mem ∧ r.acc = BitVec.ofNat 64 old ∧
        flagZ r.flags = (BitVec.ofNat 64 old == 0#64) ∧ flagN r.flags = (BitVec.ofNat 64 old).getLsbD 63 ∧
        flagC r.flags = flagC s.flags ∧ flagV r.flags = flagV s.flags ∧ flagE r.flags = flagE s.flags ∧
        (if funct = 9 then flagF r.flags = (old != x) else flagF r.flags = flagF s.flags) ∧
        (∀ n, r.ptr n = t.ptr n) ∧ Passed s r 4) ∧
    (∀ k, AtomicSpot u l k size → u.recall = none → poisoned u.mem k = false → NoFlaw u k size →
      ∃ r new, exec i s = .next r ∧ AmoRow funct size (mread u.mem k size) (s.acc.toNat % 2 ^ (8 * size)) x new ∧
        mread r.mem k size = new % 2 ^ (8 * size) ∧ SameBytesBut s r k size ∧
        ((∃ b g off, l = .buf false b g off) → r.acc = BitVec.ofNat 64 (mread u.mem k size) ∧ Passed s r 4) ∧
        ((¬∃ b g off, l = .buf false b g off) → Answering s r))

/-- vaadd, vamin and vamax (10 R199, R200): with the source read and a target block that takes it, all lanes are applied as one
update of that block, whose format never changes; a poisoned target is kept, a poisoned source poisons it, and E is set; no register
but E and the pointers changes. In the core's own L the instruction completes at once, elsewhere when the answer has come.

vaadd.s, vamin.s and vamax.s (10 R201): with the source and the indices read, no index block poisoned, and every lane performed,
the instruction completes, with no register changed but E and the pointers, which step once; lanes in blocks of the core's own L that
take the source are performed at once; a first lane in a block there that does not take it, a block of a 4-bit format among them, is a
format mismatch that notes the lane (15 R275).

With a as S1 a scatter takes elements of 32 bits, and refuses a target block of 4 bits, by inference (log 32). That the lanes
are performed with the instruction is the model's choice (log 7). -/
def Obligations.VectorAndScatterAtomics : Prop :=
  (∀ i funct d a, vamoForm i = some (funct, d, a) → ∀ (s t q u w : State) (x : Ref) (base : Word) (y : Src) (l : Loc),
    s.cur.live = true → evalRefs s [a, d] = (t, [x, .mem base]) → t.needPorts (x.uses false 8) = .ok q →
    q.readSrcs checkVamo [] [x] = .ok (u, [y]) → u.atomicLoc base 64 64 = .ok (w, l) →
    (∀ z, w.vamoAt base funct y [] l = .ok z → ∃ v, exec i s = .next v ∧ v.mem = z.mem ∧ v.acc = s.acc ∧ v.flags = z.flags ∧
      (∀ j < 7, j ≠ 5 → v.flags.getLsbD j = s.flags.getLsbD j) ∧ Passed s v 4) ∧
    (∀ k, VectorSpot w y l k → w.recall = none → ∃ v, exec i s = .next v ∧ v.acc = s.acc ∧
      (∀ j < 7, j ≠ 5 → v.flags.getLsbD j = s.flags.getLsbD j) ∧ (blockAt v.mem k).fmt = (blockAt w.mem k).fmt ∧
      (y.block.scale = 255 → (blockAt v.mem k).scale = 255) ∧
      (y.block.scale ≠ 255 → (blockAt w.mem k).scale = 255 → SameBytes s v) ∧
      ((∃ b g off, l = .buf false b g off) → Passed s v 4 ∧
        (y.block.scale = 255 ∨ (blockAt w.mem k).scale = 255 → flagE v.flags = true)) ∧
      ((¬∃ b g off, l = .buf false b g off) → Answering s v) ∧
      ∀ j, ¬(k ≤ j ∧ j < k + 64) → j ≠ fmtKey k → j ≠ scaleKey k → SameByte s v j)) ∧
  (∀ i funct d a b, scatterForm i = some (funct, d, a, b) → ∀ (s t q u w : State) (x : Ref) (idx base : Word) (y : Src)
    (is : List Block), s.cur.live = true → s.cur.restart = none → evalRefs s [a, b, d] = (t, [x, .mem idx, .mem base]) →
    t.needPorts (x.uses false 8) = .ok q → q.readSrcs checkVamo [] [x] = .ok (u, [y]) → widthOf y.block.fmt.toNat ≠ 4 →
    u.readRun idx 0 (ceilDiv (lanesOf (widthOf y.block.fmt.toNat) * 4) 64) = .ok (w, is) → (∀ k ∈ is, k.scale ≠ 255) →
    let addr := fun j => ptrAdd base (laneIndex (is.flatMap fun k => k.data) j * (widthOf y.block.fmt.toNat / 8 : Nat))
    (∀ z, w.scatterLanes funct y (widthOf y.block.fmt.toNat) addr 0 (lanesOf (widthOf y.block.fmt.toNat)) = .ok z →
      ∃ v, exec i s = .next v ∧ v.mem = z.mem ∧ v.acc = s.acc ∧ (∀ j < 7, j ≠ 5 → v.flags.getLsbD j = s.flags.getLsbD j) ∧
        Passed s v 4 ∧ ∀ n, v.ptr n = t.ptr n) ∧
    (w.recall = none → (w.cluster (clusterOf w.curCore)).halt = false →
      (∀ j < lanesOf (widthOf y.block.fmt.toNat), ∃ z k g off,
        w.atomicLoc (addr j) (widthOf y.block.fmt.toNat / 8) (widthOf y.block.fmt.toNat / 8) = .ok (z, .buf false k g off) ∧
        VectorSpot w y (.buf false k g off) (bufKey k g (off / 64 * 64)) ∧
        widthOf (blockAt w.mem (bufKey k g (off / 64 * 64))).fmt.toNat ≠ 4) →
      ∃ v, exec i s = .next v ∧ Passed s v 4) ∧
    (w.recall = none → (w.cluster (clusterOf w.curCore)).halt = false → s.cur.priv = false → GoodVector s.curCoreOf.tvec →
      GoodVector s.curCoreOf.kstk → ∀ z k g off,
      w.atomicLoc (addr 0) (widthOf y.block.fmt.toNat / 8) (widthOf y.block.fmt.toNat / 8) = .ok (z, .buf false k g off) →
      NoFlaw w (bufKey k g (off / 64 * 64)) 64 →
      (let f := (blockAt w.mem (bufKey k g (off / 64 * 64))).fmt.toNat;
       fmtOf f = none ∨ widthOf f = 4 ∨ (y.alpha = false ∧ widthOf f ≠ widthOf y.block.fmt.toNat)) →
      ∃ v, exec i s = .next v ∧ Entered s v 5 0 4 (addr 0) s.cur.pc (some 0)))

/-! ## Synchronisation, leases and the fabric (06, 10, 11, 16) -/

/-- watch, watch.rm, watch.clr and sleep (10 R204, R205): the watch set of at most four words, F, and what a sleep finds, in its
order: a restored slot, a fired one, an empty set; else it parks. -/
def Obligations.WatchSetAndSleep : Prop :=
  ∀ s : State, s.cur.live = true →
    (∀ (sp : Spec) (i : BitVec 8) (t : State) (w : Nat), WatchWord s t sp i w →
      (∃ u, exec (.watch sp i) s = .next u ∧ Quiet s u ∧ OnlyF s u ∧ Passed s u 4 ∧ (∀ n, u.ptr n = t.ptr n) ∧
        (w ∈ s.cur.watch → flagF u.flags = false ∧ u.cur.watch = s.cur.watch) ∧
        (w ∉ s.cur.watch → s.cur.watch.length < 4 → flagF u.flags = false ∧ u.cur.watch = s.cur.watch ++ [w]) ∧
        (w ∉ s.cur.watch → 4 ≤ s.cur.watch.length → flagF u.flags = true ∧ u.cur.watch = s.cur.watch)) ∧
      (∃ u, exec (.watchRm sp i) s = .next u ∧ Quiet s u ∧ OnlyF s u ∧ Passed s u 4 ∧ (∀ n, u.ptr n = t.ptr n) ∧
        (∀ v, v ∈ u.cur.watch ↔ v ∈ s.cur.watch ∧ v ≠ w) ∧ (flagF u.flags = true ↔ w ∉ s.cur.watch))) ∧
    (∃ u, exec .watchClr s = .next u ∧ Quiet s u ∧ OnlyF s u ∧ Passed s u 4 ∧ u.cur.watch = [] ∧ u.cur.fired = false ∧
      flagF u.flags = false) ∧
    (s.cur.restored = true ∨ s.cur.fired = true → ∃ u, exec .sleep s = .next u ∧ Quiet s u ∧ Passed s u 4 ∧
      (∀ j < 7, j ≠ 4 → j ≠ 6 → u.flags.getLsbD j = s.flags.getLsbD j) ∧ flagF u.flags = false ∧
      u.flags.getLsbD 6 = s.cur.restored ∧ u.cur.fired = false ∧ u.cur.restored = false ∧ u.cur.watch = s.cur.watch) ∧
    (s.cur.restored = false → s.cur.fired = false → s.cur.watch = [] → ∃ u, exec .sleep s = .next u ∧ Quiet s u ∧
      OnlyF s u ∧ Passed s u 4 ∧ flagF u.flags = true) ∧
    (s.cur.restored = false → s.cur.fired = false → s.cur.watch ≠ [] →
      ∃ u, exec .sleep s = .next u ∧ Waiting s u .sleep)

/-- cbar (10 R212): the arrival that fills the round completes and starts the next; any other waits, its bit set; twait and tread
read timeline k, twait once it has reached a, tread when its answer has come (10 R215); fence completes unless it releases at domain
scope and the slot still has something on its way to another chip, or the chip a write sent there before the fence issued, and an acquire at domain scope drops the context's cached lines of this die (11 R220 to R223).

That tread's counter is read when it is asked, and comes back after the park, is the model's choice (log 7). Which messages a
domain fence awaits, the unanswered ones of a path among them, is read by inference (log 42). -/
def Obligations.BarrierTimelineAndFence : Prop :=
  ∀ s : State, s.cur.live = true →
    (∀ k : BitVec 2, s.cur.cbar = none → s.behind (.cbar k.toNat) = false →
      ((s.cluster (clusterOf s.curCore)).bar k.toNat).getLsbD (s.curCore % 4) = false →
      ((∀ j < 4, j ≠ s.curCore % 4 → ((s.cluster (clusterOf s.curCore)).bar k.toNat).getLsbD j = true) →
        ∃ u, exec (.cbar k) s = .next u ∧ Passed s u 4 ∧ SameBytes s u ∧ u.acc = s.acc ∧ u.flags = s.flags ∧
          (u.cluster (clusterOf s.curCore)).bar k.toNat = 0 ∧
          ∀ g ∈ coresOf (clusterOf s.curCore), ∀ j, (s.slot g j).cbar = some (k.toNat, true) →
            ¬(g = s.curCore ∧ j = s.curSlot) → (u.slot g j).cbar = some (k.toNat, false)) ∧
      ((∃ j < 4, j ≠ s.curCore % 4 ∧ ((s.cluster (clusterOf s.curCore)).bar k.toNat).getLsbD j = false) →
        ∃ u p, exec (.cbar k) s = .next u ∧ u.cur.park = some p ∧ p.reason = .bar ∧ u.cur.pc = s.cur.pc ∧ SameBytes s u ∧
          ∀ j < 4, ((u.cluster (clusterOf s.curCore)).bar k.toNat).getLsbD j =
            (decide (j = s.curCore % 4) || ((s.cluster (clusterOf s.curCore)).bar k.toNat).getLsbD j))) ∧
    (∀ k : BitVec 2, ∀ n, s.cur.cbar = some (n, false) → ∃ u, exec (.cbar k) s = .next u ∧ Passed s u 4 ∧ Quiet s u) ∧
    (∀ k : BitVec 5, (s.acc.toNat ≤ s.timeline k.toNat → ∃ u, exec (.twait k) s = .next u ∧ Kept s u ∧ SameBytes s u ∧
        u.flags = s.flags ∧ u.acc = BitVec.ofNat 64 (s.timeline k.toNat) ∧ Passed s u 4) ∧
      (s.timeline k.toNat < s.acc.toNat → ∃ u, exec (.twait k) s = .next u ∧ Waiting s u .tline) ∧
      (s.recall = none → ∃ u, exec (.tread k) s = .next u ∧ Waiting s u .mem ∧
        u.cur.replies[s.trail.length]? = some (.num (s.timeline k.toNat))) ∧
      (∀ n, s.recall = some (.num n) → ∃ u, exec (.tread k) s = .next u ∧ Kept s u ∧ SameBytes s u ∧ u.flags = s.flags ∧
        u.acc = BitVec.ofNat 64 n ∧ Passed s u 4)) ∧
    (∀ (o : BitVec 2) (sc : BitVec 3), (sc = 4 → o ≠ 1 →
        s.offChip s.curCore s.curSlot = false ∧ s.writesOut (s.cur.mark.getD s.nextId) = false) →
      ∃ u, exec (.fence o sc) s = .next u ∧ Quiet s u ∧ u.flags = s.flags ∧ Passed s u 4 ∧
        (sc ≠ 4 ∨ o = 2 → u.cached = s.cached) ∧
        (sc = 4 → o ≠ 2 → ∀ c, c ∈ u.cached ↔ c ∈ s.cached ∧ ¬(c.die = dieOf s.curCore ∧ c.ctx = s.ctxOf s.curCore))) ∧
    (∀ (o : BitVec 2), o ≠ 1 → s.offChip s.curCore s.curSlot = true ∨ s.writesOut (s.cur.mark.getD s.nextId) = true →
      ∃ u, exec (.fence o 4) s = .next u ∧ Waiting s u .mem)

/-- The instructions that ask a home, once the slot holds the reply (06 R103 to R110, 10 R208 to R213, 16 R312): they complete
with a and F as the reply says; a reply that reports a fault raises it. hgen waits for its home, on this chip, and then gives the
class 1 handle (06 R103, R108).

That a fault in a reply is raised by the instruction when it runs again is the model's form of waiting (log 1). -/
def Obligations.HomeReplyCompletes : Prop :=
  (∀ s : State, s.cur.live = true →
    (s.recall = none → ∃ u, exec .hgen s = .next u ∧ Waiting s u .mem ∧
      u.cur.replies[s.trail.length]? = some (.num (s.ctxHandle (s.ctxOf s.curCore)).toNat)) ∧
    ∀ n, s.recall = some (.num n) → ∃ u, exec .hgen s = .next u ∧ LeaseQuiet s u ∧ u.acc = BitVec.ofNat 64 n ∧
      u.flags = s.flags ∧ Passed s u 4) ∧
  ∀ (s t : State) (sp : Spec) (i : BitVec 8) (p : HomeRep), s.cur.live = true →
    (Answered s t sp i.toInt 2 p → ∀ k : BitVec 5, ∃ u, exec (.grant k sp i) s = .next u ∧ LeaseQuiet s u ∧ u.acc = p.a ∧
      flagF u.flags = p.f ∧ OnlyF s u ∧ (∀ n, u.ptr n = t.ptr n) ∧ Passed s u 4) ∧
    (Answered s t sp i.toInt 1 p →
      (∃ u, exec (.renew sp i) s = .next u ∧ LeaseQuiet s u ∧ u.acc = (if p.f then 0 else lifeLeft s p) ∧
        flagF u.flags = p.f ∧ OnlyF s u ∧ (∀ n, u.ptr n = t.ptr n) ∧ Passed s u 4) ∧
      (∃ u, exec (.life sp i) s = .next u ∧ LeaseQuiet s u ∧ u.acc = lifeLeft s p ∧ u.flags = s.flags ∧
        (∀ n, u.ptr n = t.ptr n) ∧ Passed s u 4) ∧
      (∃ u, exec (.hinfo sp i) s = .next u ∧ LeaseQuiet s u ∧
        u.acc = BitVec.ofNat 64 ((lifeLeft s p).toNat / 1000 * 2 ^ 24 + p.a.toNat) ∧ u.flags = s.flags ∧
        (∀ n, u.ptr n = t.ptr n) ∧ Passed s u 4) ∧
      (p.fault = none →
        (∃ u, exec (.anchor sp i) s = .next u ∧ LeaseQuiet s u ∧ u.acc = (if p.f then 0 else lifeLeft s p) ∧
          flagF u.flags = p.f ∧ OnlyF s u ∧ (∀ n, u.ptr n = t.ptr n) ∧ Passed s u 4) ∧
        (∀ j ∈ [Instr.barr sp i, .barw sp i, .sig sp i, .sigw sp i], ∃ u, exec j s = .next u ∧ Kept s u ∧ SameBytes s u ∧
          u.acc = p.a ∧ u.flags = s.flags ∧ (∀ n, u.ptr n = t.ptr n) ∧ Passed s u 4) ∧
        (∃ u, exec (.sigm sp i) s = .next u ∧ Kept s u ∧ SameBytes s u ∧ u.acc = s.acc ∧ flagF u.flags = p.f ∧ OnlyF s u ∧
          (∀ n, u.ptr n = t.ptr n) ∧ Passed s u 4)) ∧
      (∀ code h, p.fault = some (code, h) → ∀ j ∈ [Instr.anchor sp i, .barr sp i, .barw sp i, .sig sp i, .sigw sp i,
        .sigm sp i], exec j s = .next (s.takeTrap code 0 h s.cur.pc 4 none).clear)) ∧
    (Answered s t sp i.toInt 3 p →
      (p.fault = none → ∃ u, exec (.dmap sp i) s = .next u ∧ Kept s u ∧ SameBytes s u ∧
        u.acc = (if p.f then p.a else lifeLeft s p) ∧ flagF u.flags = p.f ∧ OnlyF s u ∧ (∀ n, u.ptr n = t.ptr n) ∧
        Passed s u 4) ∧
      ∀ code h, p.fault = some (code, h) → exec (.dmap sp i) s = .next (s.takeTrap code 0 h s.cur.pc 4 none).clear) ∧
    (∀ a u l c, s.address sp i.toInt 8 = .ok (t, a) → t.locate a 8 8 .atomic tagG false false = .ok (u, l) →
      lockHome s.chip l = some c → u.recall = some (.home p) ∨ u.recall = some .done ∧ (u.note .done).recall = some (.home p) →
      ∀ k : BitVec 1, ∃ u, exec (.lk k sp i) s = .next u ∧ Kept s u ∧ SameBytes s u ∧
        u.acc = (if p.f then lifeLeft s p else p.a) ∧ flagF u.flags = p.f ∧ OnlyF s u ∧ (∀ n, u.ptr n = t.ptr n) ∧ Passed s u 4)

/-- The homes of this chip (06 R94, R106, R107, R109, R110, 10 R208, R210, R211): what one operation leaves of the record it names,
and what it answers. The class that decides for anchor is the record's, the model's choice (log 94).

That class 1 leases stand apart from the other classes is read by inference (log 9). -/
def Obligations.HomesFollowTheirRules : Prop :=
  ∀ (s : State) (r : HomeReq) (h : Word),
    (∀ cls die idx owner e data, cls ≤ 7 → die < 4 → s.chip < 3072 → idx < 262144 →
      (s.lease (unitOf cls die) idx).gen < 0xFFFF →
      let c := s.create cls die idx owner e data;
      (c.1.lease (unitOf cls die) idx).gen = (s.lease (unitOf cls die) idx).gen + 1 ∧
        (c.1.lease (unitOf cls die) idx).owner = owner ∧ (c.1.lease (unitOf cls die) idx).e = e ∧
        (c.1.lease (unitOf cls die) idx).anchored = false ∧ hGen c.2 = (s.lease (unitOf cls die) idx).gen + 1 ∧
        ∀ k, k ≠ leaseKey (unitOf cls die) idx → tget Lease.unused c.1.leases k = tget Lease.unused s.leases k) ∧
    (∀ d, let c := s.renewHome r h d;
      (s.staleHere h = true ∨ s.leaseLive (s.record h) = false ∨ hClass h = 1 ∨
          (s.record h).owner ≠ s.ownerKey r.chip r.ctx ∨ s.pathRangeOk (s.record h) = false → c.1 = s ∧ c.2.f = true) ∧
      (s.staleHere h = false → s.leaseLive (s.record h) = true → hClass h ≠ 1 →
        (s.record h).owner = s.ownerKey r.chip r.ctx → s.pathRangeOk (s.record h) = true →
        c.2.f = false ∧ c.2.fault = none ∧ c.2.a = h ∧
          ((s.record h).anchored = true → c.1 = s ∧ c.2.e = s.leaseEnd (s.record h)) ∧
          ((s.record h).anchored = false → c.2.e = max (s.record h).e (s.dt + min d.toNat (maxLease (hClass h))) ∧
            c.1.record h = { s.record h with e := c.2.e }))) ∧
    (s.staleHere h = true → (s.lifeHome r h).e = 0 ∧ (s.hinfoHome r h).a = 0x800000#64 ∧ (s.hinfoHome r h).e = 0) ∧
    (s.staleHere h = false → (s.lifeHome r h).e = s.leaseEnd (s.record h) ∧ (s.hinfoHome r h).e = s.leaseEnd (s.record h) ∧
      (s.hinfoHome r h).a = BitVec.ofNat 64
        ((if s.leaseLive (s.record h) then (if (s.record h).anchored then 3 else 0) else 1) * 2 ^ 22 +
          (s.record h).cls * 2 ^ 16 + (s.record h).owner % 1024)) ∧
    (let c := s.anchorHome r h;
      (s.staleHere h = true ∨ s.leaseLive (s.record h) = false → c.1 = s ∧ c.2.fault = some (7, h)) ∧
      (s.staleHere h = false → s.leaseLive (s.record h) = true →
        ((s.record h).cls = 2 ∨ (s.record h).cls = 3) ∧ (s.record h).owner = s.ownerKey r.chip r.ctx →
        c.2.fault = none ∧ c.2.f = false ∧ c.1.record h = { s.record h with anchored := true } ∧
          c.2.e = s.leaseEnd { s.record h with anchored := true }) ∧
      (s.staleHere h = false → s.leaseLive (s.record h) = true →
        ((s.record h).cls ≠ 2 ∧ (s.record h).cls ≠ 3) ∨ (s.record h).owner ≠ s.ownerKey r.chip r.ctx →
        c.1 = s ∧ c.2.fault = none ∧ c.2.f = true)) ∧
    (∀ v x l ms, s.syncRecord 3 h = some l → l.data = .svar x ms →
      ∃ t, s.sigAdd h v = some (t, x + v) ∧ t.record h = { l with data := .svar (x + v) ms }) ∧
    (∀ v, s.syncRecord 3 h = none → s.sigAdd h v = none) ∧
    (∀ n k ph l, s.syncRecord 5 h = some l → l.data = .barrier n k ph →
      (s.barrHome r h).2.a = ph ∧ (s.barrHome r h).2.fault = none ∧
        (k + 1 ≠ n → (s.barrHome r h).1.record h = { l with data := .barrier n (k + 1) ph }) ∧
        (k + 1 = n → (s.barrHome r h).1.record h = { l with data := .barrier n 0 (ph + 1) }))

/-- fsend, fsendv, fsig, fseek and allw (16 R298 to R305): a message that may go is injected; one that may not waits; an unbound
slot is a lapsed resource; fseek sets the cursor, allw reads the window.

That a message leaves with the instruction is the model's choice (log 1). -/
def Obligations.SendsGoByTheAllowance : Prop :=
  ∀ (s : State) (k : BitVec 4), s.cur.live = true →
    (∀ p, MaySend s k.toNat 1 8 8 p → ∃ u, exec (.fsend k) s = .next u ∧ Injected s u k.toNat 1 8 (.word s.acc) p ∧ u.acc = s.acc ∧
      u.flags = s.flags ∧ Passed s u 4) ∧
    ((s.dslot s.curCore k.toNat).bound = false → s.recall = none →
      exec (.fsend k) s = .next (s.takeTrap 7 0 0 s.cur.pc 4 none).clear) ∧
    ((s.dslot s.curCore k.toNat).bound = true → (s.dslot s.curCore k.toNat).allowance = 0 →
      (s.dslot s.curCore k.toNat).inFl ≠ 0 → ∃ u, exec (.fsend k) s = .next u ∧ Waiting s u .allw) ∧
    (∀ (sp : Spec) (n : BitVec 6) (t w : State) (a : Word) (bs : List Block) (p : PathSrc), s.address sp 0 64 = .ok (t, a) →
      t.sendBlocks a 0 (n.toNat + 1) = .ok (w, bs) →
      MaySend s k.toNat (n.toNat + 1) (64 * (n.toNat + 1)) 64 p →
      ∃ u, exec (.fsendv k sp n) s = .next u ∧ Injected s u k.toNat (n.toNat + 1) (64 * (n.toNat + 1)) (.blocks bs) p ∧ u.acc = s.acc ∧
        u.flags = s.flags ∧ (∀ m, u.ptr m = t.ptr m) ∧ Passed s u (4 + (n.toNat + 2) / 2)) ∧
    (∀ (sp : Spec) (i : BitVec 8) (t w : State) (a : Word) (v : Nat) (p : PathSrc), s.address sp i.toInt 8 = .ok (t, a) →
      t.load a 8 = .ok (w, v) → s.staleShape (BitVec.ofNat 64 v) = false → hClass (BitVec.ofNat 64 v) = 3 →
      hChip (BitVec.ofNat 64 v) = hChip (s.dslot s.curCore k.toNat).path → MaySend s k.toNat 1 0 1 p →
      ∃ u, exec (.fsig k sp i) s = .next u ∧ Injected s u k.toNat 1 0 (.signal (BitVec.ofNat 64 v) s.acc) p ∧ u.acc = s.acc ∧ u.flags = s.flags ∧
        (∀ m, u.ptr m = t.ptr m) ∧ Passed s u 4) ∧
    (∃ u, exec (.fseek k) s = .next u ∧ u.dslot s.curCore k.toNat = { s.dslot s.curCore k.toNat with cursor := s.acc } ∧
      SameBytes s u ∧ u.acc = s.acc ∧ u.flags = s.flags ∧ Passed s u 4) ∧
    (∃ u, exec (.allw k) s = .next u ∧ Kept s u ∧ SameBytes s u ∧ Passed s u 4 ∧
      u.acc = BitVec.ofNat 64 ((s.dslot s.curCore k.toNat).inFl % 512 * 2 ^ 17 + (s.dslot s.curCore k.toNat).win % 512 * 256 +
        (s.dslot s.curCore k.toNat).allowance) ∧
      flagZ u.flags = ((s.dslot s.curCore k.toNat).allowance == 0) ∧ flagN u.flags = false ∧
      flagC u.flags = flagC s.flags ∧ flagV u.flags = flagV s.flags)

/-- dsbind, dsend and spull (16 R303, R311, R314): dsbind waits for Calico's check and binds a slot with nothing in flight to an open
path of the context; dsend takes the answer to its offer, refusal 2 for bad parameters; spull waits for its station, F tells that the
address lies outside a live view, and on a live one the pulls are started.

That the Calico check of dsbind and the answer to spull are decided when they are asked is the model's choice (log 7). spull
at an address outside G sets F by inference (log 43). -/
def Obligations.BindOfferAndPull : Prop :=
  ∀ (s t : State) (k : BitVec 4) (sp : Spec) (i : BitVec 8) (a : Word), s.cur.live = true →
    s.address sp i.toInt 8 = .ok (t, a) →
    (∀ w v, t.load a 8 = .ok (w, v) →
      (∀ p, w.recall = none → w.pathOf (BitVec.ofNat 64 v) = some p → w.staleShape (BitVec.ofNat 64 v) = false →
        p.owner = s.ctxOf s.curCore → p.gone = false → s.dt + 2000 < p.ed →
        ∃ u, exec (.dsbind k sp i) s = .next u ∧ Waiting s u .mem ∧ u.cur.replies[w.trail.length]? = some .done) ∧
      (w.recall = none → w.pathOf (BitVec.ofNat 64 v) = none →
        ∃ u, exec (.dsbind k sp i) s = .next u ∧ Waiting s u .mem ∧
          u.cur.replies[w.trail.length]? = some (.fault 7 (BitVec.ofNat 64 v))) ∧
      (∀ h, w.recall = some (.fault 7 h) → exec (.dsbind k sp i) s = .next (s.takeTrap 7 0 h s.cur.pc 4 none).clear) ∧
      (w.recall = some .done → (s.dslot s.curCore k.toNat).inFl = 0 → ∃ u, exec (.dsbind k sp i) s = .next u ∧ SameBytes s u ∧
        u.acc = s.acc ∧ u.flags = s.flags ∧ Passed s u 4 ∧ (u.dslot s.curCore k.toNat).path = BitVec.ofNat 64 v ∧
        (u.dslot s.curCore k.toNat).bound = true ∧ (u.dslot s.curCore k.toNat).cursor = 0 ∧
        (u.dslot s.curCore k.toNat).win = 16 ∧ (u.dslot s.curCore k.toNat).inFl = 0)) ∧
    (∀ p, OfferAnswered s t k.toNat sp i.toInt p → ∃ u, exec (.dsend k sp i) s = .next u ∧ Kept s u ∧ SameBytes s u ∧
      u.acc = p.a ∧ flagF u.flags = p.f ∧ OnlyF s u ∧ (∀ n, u.ptr n = t.ptr n) ∧ Passed s u 4) ∧
    (∀ w x y, t.words a 2 = .ok (w, [x, y]) → w.recall = none → (w.dslot w.curCore k.toNat).bound = true →
      (s.acc = 0 ∨ tagOf x ≠ 8 ∨ offOf x % 4096 ≠ 0 ∨ y.toNat % 4096 ≠ 0 ∨ y.toNat < 4096 ∨ 2 ^ 26 < y.toNat) →
      ∃ u p, exec (.dsend k sp i) s = .next u ∧ Waiting s u .mem ∧
        u.cur.replies[w.trail.length + 1]? = some (.home p) ∧ p.a = 2 ∧ p.f = true) ∧
    (tagOf a = 8 → offOf a < 2 ^ 57 → offOf a % 8 = 0 →
      (t.recall = none → s.entry (s.ctxOf s.curCore) (offOf a) = none → ∃ u, exec (.spull sp i) s = .next u ∧ Waiting s u .mem ∧
        u.cur.replies[s.trail.length]? = some (.num 1)) ∧
      (∀ e x, t.recall = none → s.entry (s.ctxOf s.curCore) (offOf a) = some e →
        (tget Lease.unused s.leases e.lease).data = .stub x → pteMode e.pte = 5 → e.live s = true →
        ∃ u y, exec (.spull sp i) s = .next u ∧ Answering s u ∧ SameBytes s u ∧ u.cur.replies[s.trail.length]? = some (.num 0) ∧
          (tget Lease.unused u.leases e.lease).data = .stub y ∧ y.pulled = x.pulled ∧ y.dead = x.dead ∧
          let first := (offOf a - x.view.getD 0) / 4096;
          (∀ j, first ≤ j → j < first + s.acc.toNat % 65536 → j < x.size / 4096 → j ∉ x.pulled → j ∉ x.dead →
            (y.pulling.lookup j).isSome = true) ∧
          ∀ j m, (j, m) ∈ y.pulling → (j, m) ∈ x.pulling ∨
            m = 0 ∧ first ≤ j ∧ j < first + s.acc.toNat % 65536 ∧ j < x.size / 4096) ∧
      (∀ n, t.recall = some (.num n) → ∃ u, exec (.spull sp i) s = .next u ∧ flagF u.flags = (n == 1) ∧ OnlyF s u ∧
        u.acc = s.acc ∧ Kept s u ∧ SameBytes s u ∧ (∀ n, u.ptr n = t.ptr n) ∧ Passed s u 4))

/-! ## System registers, exceptions and debug (15, 21) -/

/-- mfs (15 R277, R278): a takes the value of the register, no flag and no byte changes; a register from 0x400 on needs the
privileged mode, else the privilege trap with the number as the fault address.

Registers 0x0C0 to 0x0C7 read free values (log 80), and the issue and park counters count the model's cycles (log 83). -/
def Obligations.MfsReadsEveryRegister : Prop :=
  ∀ (s : State) (n : BitVec 12), s.cur.live = true → sysregAssigned n.toNat = true →
    ((0x400 ≤ n.toNat → s.cur.priv = true) → (n = 0x08A → s.traceOut s.curCore s.curSlot = false) →
      ∃ u v, exec (.mfs n) s = .next u ∧ RegRow s n.toNat v ∧ u.cur = past s (s.cur.setAcc v) ∧ Kept s u ∧ SameBytes s u) ∧
    (0x400 ≤ n.toNat → s.cur.priv = false →
      exec (.mfs n) s = .next (s.takeTrap 2 0 (n.zeroExtend 64) s.cur.pc 4 none).clear ∧
      exec (.mts n) s = .next (s.takeTrap 2 0 (n.zeroExtend 64) s.cur.pc 4 none).clear)

/-- mts (15 R278, R289): the register of the map takes a, and nothing else changes; a reserved format for vf is a format
mismatch; a write to abort ends the gang with a record of kind 7; a read-only register keeps its value.

That a read-only register below 0x400 keeps its value without a trap is read by inference (log 14). That a gang's end
performs an accepted write in the same step is the model's choice (log 105). -/
def Obligations.MtsWritesEveryRegister : Prop :=
  ∀ (s : State) (n : BitVec 12), s.cur.live = true → sysregAssigned n.toNat = true → (0x400 ≤ n.toNat → s.cur.priv = true) →
    (∀ x, slotWrite s.cur n.toNat s.acc = some x → (n = 0x002 → fmtReserved (s.acc.toNat % 256) = false) →
      ∃ u, exec (.mts n) s = .next u ∧ u.cur = past s x ∧ Kept s u ∧ SameBytes s u) ∧
    (n = 0x002 → fmtReserved (s.acc.toNat % 256) = true → exec (.mts n) s = .next (s.takeTrap 5 0 0 s.cur.pc 4 none).clear) ∧
    (∀ c, coreWrite s.curCoreOf n.toNat s.acc = some c → ∃ u, exec (.mts n) s = .next u ∧ SameBytes s u ∧ u.cur = past s s.cur ∧
      { u.core s.curCore with slots := [] } = { c with slots := [] } ∧ u.clusters = s.clusters ∧
      ∀ g, g ≠ s.curCore → u.core g = s.core g) ∧
    (∀ c, clusterWrite (s.cluster (clusterOf s.curCore)) n.toNat s.acc = some c → ∃ u, exec (.mts n) s = .next u ∧
      SameBytes s u ∧ u.cur = past s s.cur ∧ u.cluster (clusterOf s.curCore) = c ∧
      (∀ m, m ≠ clusterOf s.curCore → u.cluster m = s.cluster m) ∧ ∀ g, g ≠ s.curCore → u.core g = s.core g) ∧
    (slotWrite s.cur n.toNat s.acc = none → coreWrite s.curCoreOf n.toNat s.acc = none →
      clusterWrite (s.cluster (clusterOf s.curCore)) n.toNat s.acc = none → n ≠ 0x422 → n ≠ 0x441 →
      ∃ u, exec (.mts n) s = .next u ∧ u.cur = past s s.cur ∧ Kept s u ∧ SameBytes s u) ∧
    (∀ m, n = 0x422 → (s.cluster (clusterOf s.curCore)).gang = some m →
      ∃ u, exec (.mts n) s = .next u ∧ GangAborted s u (clusterOf s.curCore) m 7 0 s.acc)

/-- trap and brk (15 R275, R278; 21 R348): trap n enters with code 11, its number and epc past the word; brk without dctl.brk
enters with code 12 and its own pc; a word that names no instruction enters with code 1 (03 R43).

Taking an exception (15 R274 to R276): from the user mode with good vectors the entry, and nothing else unless traps are
traced; in the privileged mode, or with a bad vector, a double fault: no entry, a record of kind 6, and the gang ends.

That a gang's end performs an accepted write in the same step is the model's choice (log 105). -/
def Obligations.ExceptionEntryAndDoubleFaults : Prop :=
  (∀ s : State, s.cur.priv = false → GoodVector s.curCoreOf.tvec → GoodVector s.curCoreOf.kstk →
    (∀ n : BitVec 7, ∃ u, exec (.trap n) s = .next u ∧ Entered s u 11 n.toNat 4 0 (s.cur.pc + 4) none) ∧
    ((s.cluster (clusterOf s.curCore)).dctl.getLsbD 3 = false →
      ∃ u, exec .brk s = .next u ∧ Entered s u 12 0 2 0 s.cur.pc none) ∧
    ∃ u, exec .reservedEncodingIssue s = .next u ∧ Entered s u 1 0 s.cur.wordLen 0 s.cur.pc none) ∧
  (∀ (s : State) (code num len : Nat) (faddr epc : Word) (lane : Option Nat), code < 256 →
    (s.cur.priv = false → GoodVector s.curCoreOf.tvec → GoodVector s.curCoreOf.kstk →
      Entered s (s.takeTrap code num faddr epc len lane) code num len faddr epc lane ∧
        (s.curCoreOf.tctl.getLsbD 3 = false →
          Kept s (s.takeTrap code num faddr epc len lane) ∧ SameBytes s (s.takeTrap code num faddr epc len lane))) ∧
    (s.cur.priv = true ∨ ¬GoodVector s.curCoreOf.tvec ∨ ¬GoodVector s.curCoreOf.kstk → ∀ n,
      (s.cluster (clusterOf s.curCore)).gang = some n →
      GangAborted s (s.takeTrap code num faddr epc len lane) (clusterOf s.curCore) n 6 faddr 0))

/-- rti, wfi, ssave, srest (15 R278 to R281): rti leaves the privileged mode at epc with the restart lane of rdet, a bad epc is a
double fault; wfi takes and clears the bell, or waits; ssave writes the slot's record of 512 bytes to L, srest reads one, pc into
epc; a bad address is a double fault; in the user mode all four take the privilege trap.

The fault address 0 of these instructions and that ssave and srest check no poison are read by inference (log 41, 48). That a
gang's end performs an accepted write in the same step is the model's choice (log 105). -/
def Obligations.PrivilegedInstructionsRun : Prop :=
  (∀ s : State, s.cur.priv = false →
    ∀ j ∈ [Instr.rti, .wfi, .ssave, .srest], exec j s = .next (s.takeTrap 2 0 0 s.cur.pc 4 none).clear) ∧
  ∀ s : State, s.cur.live = true → s.cur.priv = true →
    (GoodVector s.cur.epc → ∃ u, exec .rti s = .next u ∧ u.cur.priv = false ∧ u.cur.pc = s.cur.epc ∧ u.cur.rdet = 0 ∧
      u.cur.park = none ∧ u.cur.a = s.cur.a ∧ u.cur.p = s.cur.p ∧ u.cur.step = s.cur.step ∧ u.cur.f = s.cur.f ∧
      u.cur.restart = (if s.cur.rdet.getLsbD 63 = true ∧ s.cur.epc.toNat = s.cur.rdet.toNat / 2 ^ 32 % 2 ^ 18 then
        some (s.cur.rdet.toNat % 256) else none) ∧ (tracesBranches s = false → Kept s u ∧ SameBytes s u)) ∧
    (∀ n, ¬GoodVector s.cur.epc → (s.cluster (clusterOf s.curCore)).gang = some n →
      ∃ u, exec .rti s = .next u ∧ GangAborted s u (clusterOf s.curCore) n 6 s.cur.epc 0) ∧
    (s.curCoreOf.bell ≠ 0 → s.behind .bell = false → ∃ u, exec .wfi s = .next u ∧
      u.cur = past s (s.cur.setAcc s.curCoreOf.bell) ∧ u.curCoreOf.bell = 0 ∧ SameBytes s u ∧ u.clusters = s.clusters) ∧
    (s.curCoreOf.bell = 0 → ∃ u, exec .wfi s = .next u ∧ Waiting s u .trap) ∧
    (∀ o, s.acc.toNat = o → o % 512 = 0 → o < 0x40000 →
      (∃ u, exec .ssave s = .next u ∧ mgets u.mem (lKey s.curCore o) 512 = s.cur.record 1 s.cur.epc ∧
        SameBytesBut s u (lKey s.curCore o) 512 ∧ u.acc = s.acc ∧ u.flags = s.flags ∧ u.cur.pc = s.cur.pc + 4 ∧
        u.cur.readyAt = readyAfter s 32) ∧
      (∃ u, exec .srest s = .next u ∧ Kept s u ∧ SameBytes s u ∧ u.cur.priv = true ∧ u.cur.pc = s.cur.pc + 4 ∧
        u.cur.readyAt = readyAfter s 32 ∧ u.cur.a = BitVec.ofNat 64 (mread s.mem (lKey s.curCore o) 8) ∧
        (∀ n < 8, tget 0 u.cur.p n = BitVec.ofNat 64 (mread s.mem (lKey s.curCore o + 8 + 8 * n) 8)) ∧
        u.cur.lc = BitVec.ofNat 32 (mread s.mem (lKey s.curCore o + 0x58) 4) ∧
        u.cur.f = BitVec.ofNat 7 (mread s.mem (lKey s.curCore o + 0x5C) 4) ∧
        (∀ n < 8, tget 0 u.cur.step n = BitVec.ofNat 16 (mread s.mem (lKey s.curCore o + 0x48 + 2 * n) 2)) ∧
        (let v := mread s.mem (lKey s.curCore o + 0x68) 8;
          u.cur.vf = BitVec.ofNat 19 (if fmtReserved (v % 256) then v / 256 * 256 else v)) ∧
        u.cur.rdet = BitVec.ofNat 64 (mread s.mem (lKey s.curCore o + 0x78) 8) ∧
        (∀ i < 4, mread s.mem (lKey s.curCore o + 0xE0) 8 / 2 ^ i % 2 = 1 →
          mread s.mem (lKey s.curCore o + 0xC0 + 8 * i) 8 ∈ u.cur.watch) ∧
        u.cur.epc = BitVec.ofNat 64 (mread s.mem (lKey s.curCore o + 0x60) 8) ∧ u.cur.fired = false)) ∧
    (∀ n, s.acc.toNat % 512 ≠ 0 ∨ 0x40000 ≤ s.acc.toNat → (s.cluster (clusterOf s.curCore)).gang = some n →
      (∃ u, exec .ssave s = .next u ∧ GangAborted s u (clusterOf s.curCore) n 6 s.acc 0) ∧
      ∃ u, exec .srest s = .next u ∧ GangAborted s u (clusterOf s.curCore) n 6 s.acc 0)

/-- Debug and trace (15 R279, R280; 21 R342 to R356): smpl reads a slot's sample, trc and dbgh complete, the latter halting under
dctl.dbgh; icinv empties the cluster's instruction cache and waits for the answer, icinv.all too, and sends the invalidation to
every other cluster and waits until it has reached them; brk under dctl.brk, a write to the request register, a strike of an armed
watchpoint by a remote agent or an engine and a reached step count halt the gang. A remote agent's or engine's write is performed
(21 R352); one of a remote agent into the supervisor range is dropped and counted (15 R272, 21 R358). -/
def Obligations.DebugAndTrace : Prop :=
  ∀ s : State, s.cur.live = true →
    (∀ n : BitVec 7, ∃ u v, exec (.smpl n) s = .next u ∧ u.cur = past s (s.cur.setAcc v) ∧ Kept s u ∧ SameBytes s u ∧
      ((s.slot s.curCore n.toNat).live = false → v = 0) ∧
      ((s.slot s.curCore n.toNat).live = true → v.getLsbD 63 = true ∧
        v.getLsbD 62 = (s.slot s.curCore n.toNat).park.any (fun p => !p.woken) ∧
        v.toNat % 2 ^ 18 = (s.slot s.curCore n.toNat).standsAt.toNat % 2 ^ 18)) ∧
    (∀ n : BitVec 7, ∃ u, exec (.trc n) s = .next u ∧ u.cur = past s s.cur ∧
      (s.curCoreOf.tctl.getLsbD 1 = false → Kept s u ∧ SameBytes s u)) ∧
    (∀ n : BitVec 7, (s.cluster (clusterOf s.curCore)).dctl.getLsbD 4 = false →
      ∃ u, exec (.dbgh n) s = .next u ∧ u.cur = past s s.cur ∧ Kept s u ∧ SameBytes s u) ∧
    (∀ j ∈ [Instr.icinv, .icinvAll],
      (s.recall = none → ∃ u, exec j s = .next u ∧ Answering s u ∧ (u.cluster (clusterOf s.curCore)).icache = [] ∧ SameBytes s u ∧
        (j = .icinvAll → ∀ c < 256, c ≠ clusterOf s.curCore → Turn.due (.icacheArrival c) ∈ u.agenda)) ∧
      (s.recall = some .done → (j = .icinvAll → s.invalidating = false) →
        ∃ u, exec j s = .next u ∧ u.cur = past s s.cur ∧ SameBytes s u ∧ ∀ c, u.cluster c = s.cluster c)) ∧
    (s.recall = some .done → s.invalidating = true → ∃ u, exec .icinvAll s = .next u ∧ Waiting s u .mem) ∧
    (∀ n, CanHalt s (clusterOf s.curCore) n →
      (∀ m : BitVec 7, (s.cluster (clusterOf s.curCore)).dctl.getLsbD 4 = true →
        ∃ u, exec (.dbgh m) s = .next u ∧ Halted u (clusterOf s.curCore) n) ∧
      ((s.cluster (clusterOf s.curCore)).dctl.getLsbD 3 = true → ∃ u, exec .brk s = .next u ∧ Halted u (clusterOf s.curCore) n) ∧
      (∃ u, exec .debugRequestWrite s = .next u ∧ Halted u (clusterOf s.curCore) n)) ∧
    (∀ (w : WatchHit) n, w.cluster < 256 → s.armed w = true → CanHalt s w.cluster n →
      ∃ u, exec (.watchpointRemoteHalt w) s = .next u ∧ Halted u w.cluster n) ∧
    (∀ (w : WatchHit) b g o, w.cluster < 256 → hitPlace w = some (b, g, o) → s.hitGuarded w = false →
      bufKey b g o + w.bytes.length ≤ descBase → ∃ u, exec (.watchpointRemoteHalt w) s = .next u ∧
        mgets u.mem (bufKey b g o) w.bytes.length = w.bytes ∧ SameBytesBut s u (bufKey b g o) w.bytes.length) ∧
    (∀ w : WatchHit, w.cluster < 256 → w.remote = true → s.hitGuarded w = true →
      ∃ u, exec (.watchpointRemoteHalt w) s = .next u ∧ SameBytes s u ∧
        tget 0 u.dieCtr (w.cluster / 64 * 256 + 0x0D0) = tget 0 s.dieCtr (w.cluster / 64 * 256 + 0x0D0) + 1) ∧
    (∀ c n, c < 256 → CanHalt s c n → (∃ g ∈ coresOf c, (s.core g).stepDue = true) →
      ∃ u, exec (.stepCountHalt c) s = .next u ∧ Halted u c n)

/-- Steps that registers set off (15 R279, R280, R289; 21 R355, R356; 11 R387): a write to abort, to the bell, to trace control, a
read of the trace count, a sample, a line filled into a cluster's instruction cache, and one cluster's cache emptied.

That a gang's end performs an accepted write in the same step is the model's choice (log 105). -/
def Obligations.RegisterStepsHaveTheirEffect : Prop :=
  ∀ s : State,
    (∀ (v : Word) n, (s.cluster (clusterOf s.curCore)).gang = some n →
      ∃ u, exec (.abortWrite v) s = .next u ∧ GangAborted s u (clusterOf s.curCore) n 7 0 v) ∧
    (∀ v : Word, ∃ u, exec (.bellWrite v) s = .next u ∧ u.curCoreOf = { s.curCoreOf with bell := v } ∧ SameBytes s u) ∧
    (∀ v : Word, ∃ u, exec (.traceControlWrite v) s = .next u ∧ SameBytes s u ∧ u.curCoreOf.twr = 0 ∧ u.curCoreOf.tdrop = 0 ∧
      u.curCoreOf.tctl = (v &&& 0xFF1F#64).truncate 16 ∧ u.cur = s.cur) ∧
    (s.cur.live = true → s.traceOut s.curCore s.curSlot = false →
      ∃ u, exec .traceCountRead s = .next u ∧ u.acc = s.curCoreOf.twr ∧ Kept s u ∧ SameBytes s u) ∧
    (∀ g < 1024, ∃ u, exec (.traceSample g) s = .next u ∧ (u.core g).sample = ((s.core g).sample % 11 + 1) % 11 ∧
      ((s.core g).tctl.getLsbD 4 = false → SameBytes s u)) ∧
    (∀ core addr, core < 1024 → addr < 0x40000 → ∃ u, exec (.icacheFill core addr) s = .next u ∧ SameBytes s u ∧
      ∃ l ∈ (u.cluster (clusterOf core)).icache, l.core = core ∧ l.addr = addr / 64 * 64 ∧
        l.bytes = mgets s.mem (lKey core (addr / 64 * 64)) 64) ∧
    (∀ c < 256, ∃ u, exec (.icacheInvalidateArrival c) s = .next u ∧ (u.cluster c).icache = [] ∧ SameBytes s u ∧
      ∀ d, d ≠ c → u.cluster d = s.cluster d) ∧
    (∀ c, 256 ≤ c → exec (.icacheInvalidateArrival c) s = .fault .noSuchUnit ∧ exec (.stepCountHalt c) s = .fault .noSuchUnit)

/-! ## The host interface (20), firmware (20, 21, 23) -/

/-- BAR0, the queues and the rings (20 R326 to R328, R334, R341): a register takes what is written to it, a header that fails its checks
leaves the queue, a packet with a bad CRC sets the error, a whole one is taken; a completion entry stands in the ring's next place; an
MSI-X message leaves once its time is over; BAR2 reads and writes data bytes of device memory.

Addresses are kept as written, and what host memory a page does not have reads as ones, by inference (log 60). -/
def Obligations.QueuesFollowTheirRegisters : Prop :=
  ∀ (s : State) (link q : Nat), link < 2 → q < 64 →
    (∀ v : Word,
      (∃ u, exec (.bar0RegisterWrite link 0x40 v) s = .next u ∧ u.link link = { s.link link with ebase := v } ∧ SameBytes s u) ∧
      (∃ u, exec (.bar0RegisterWrite link 0x48 v) s = .next u ∧ u.link link = { s.link link with ectl := v &&& 0xFFFFF#64 } ∧
        SameBytes s u) ∧
      (∃ u, exec (.bar0RegisterWrite link 0x58 v) s = .next u ∧ u.link link = { s.link link with erd := v.toNat } ∧
        SameBytes s u) ∧
      (∃ u, exec (.bar0RegisterWrite link 0x80 v) s = .next u ∧ u.link link = { s.link link with bar2win := v } ∧
        SameBytes s u) ∧
      (∃ u, exec (.bar0RegisterWrite link (0x100000 + 0x100 * q) v) s = .next u ∧
        u.hq link q = { s.hq link q with qbase := v } ∧ SameBytes s u) ∧
      (∀ off ∈ [0x00, 0x08, 0x50, 0x60], exec (.bar0RegisterWrite link off v) s = .next s) ∧
      (∃ u, exec (.completionHeadWrite link q v) s = .next u ∧ (u.hq link q).chead = v.toNat % 2 ^ 32 ∧ SameBytes s u) ∧
      (let x := { s.hq link q with qctl := (v ||| 16#64) &&& 0xFFFF0F3F#64, qread := 0, expect := v.toNat / 2 ^ 16 % 2 ^ 16,
                                   ctail := 0, crcBad := false, polled := s.dt };
        (s.hq link q).enabled = false → (s.hq link q).accepted = [] →
        x.headerOk (s.queueBytes link x 0 16) = false →
        ∃ u, exec (.queueEnable link q v) s = .next u ∧ u.hq link q = x ∧ SameBytes s u)) ∧
    ((s.hq link q).enabled = true → ∃ u, exec (.queueDisable link q) s = .next u ∧ SameBytes s u ∧
      u.hq link q = { s.hq link q with qctl := (s.hq link q).qctl &&& ~~~16#64 }) ∧
    (∀ j ∈ [Instr.queueKick link q, .queuePoll link q], (j = .queuePoll link q → s.pollDue link q = true) →
      (s.hq link q).enabled = true →
      let x := s.hq link q;
      let h := s.queueBytes link x (64 * (x.qread % x.units)) 16;
      let bs := (x.span (field h 2 2)).flatMap fun u => s.queueBytes link x (64 * u) 64;
      (x.headerOk h = false → ∃ u, exec j s = .next u ∧ u.hq link q = { x with polled := s.dt } ∧ SameBytes s u) ∧
      (x.headerOk h = true → packetCrc bs = false →
        ∃ u, exec j s = .next u ∧ u.hq link q = { x with polled := s.dt, crcBad := true } ∧ SameBytes s u) ∧
      (x.headerOk h = true → packetCrc bs = true → ∃ u, exec j s = .next u ∧
        ((∃ p ∈ (u.hq link q).accepted, p.body = bs) ∨ ∃ e ∈ u.started, e.2.body = bs))) ∧
    (s.pollDue link q = false → exec (.queuePoll link q) s = .next s) ∧
    (∀ c, (s.finished.find? fun c => c.link == link && c.q == q) = some c → (s.hq link q).full = false →
      let x := s.hq link q;
      ∃ u, exec (.completionEntryWrite link q) s = .next u ∧ u.finished = s.finished.erase c ∧
        mgets u.mem (hostKey link (x.cbase.toNat + 32 * (x.ctail % x.ring))) 32 = entryBytes c (1 - x.ctail / x.ring % 2) ∧
        SameBytesBut s u (hostKey link (x.cbase.toNat + 32 * (x.ctail % x.ring))) 32 ∧
        (u.hq link q).ctail = (x.ctail + 1) % 2 ^ 32) ∧
    ((s.hq link q).pending ≠ 0 → (s.hq link q).since + (s.hq link q).cap ≤ s.dt →
      ∃ u, exec (.msixCoalesceTimeout link q) s = .next u ∧ (u.hq link q).pending = 0 ∧ SameBytes s u ∧
        u.outbox = s.outbox ++ [.msix link ((s.hq link q).msix.toNat % 2048)]) ∧
    (∀ off n, ∃ u, exec (.bar2Read link off n) s = .next u ∧ SameBytes s u ∧ u.hostRead.1.length = n ∧
      ∀ j < n, u.hostRead.1.getD j 0 = if (s.link link).bar2win.toNat + off + j < hbmSize then
        mget s.mem ((s.link link).bar2win.toNat + off + j) else 255) ∧
    (∀ off bs, (s.link link).bar2win.toNat + off + bs.length ≤ hbmSize → ∃ u, exec (.bar2Write link off bs) s = .next u ∧
      mgets u.mem ((s.link link).bar2win.toNat + off) bs.length = bs ∧
      SameBytesBut s u ((s.link link).bar2win.toNat + off) bs.length)

/-- The contexts' packets (20 R329, R332, R333): a grant makes the lowest free identifier, one
that no record bears, a live context with the packet's level,
link and save area, and returns its handle; a renewal moves the expiry; an end makes the context end; a packet without its context
completes with status 3. -/
def Obligations.ContextPackets : Prop :=
  ∀ (s : State) (k : Nat) (p : Packet), OwnPacket s k →
    (∀ c, Runs s k 1 p → grantBodyOk p.body = true → s.lowestIdent p.link = some c → (∀ e ∈ s.leases, e.2.owner ≠ c) →
      ∃ u, exec (.contextGrant k) s = .next u ∧ (u.context c).live = true ∧ (u.context c).level = field p.body 0x18 1 ∧
        (u.context c).link = p.link ∧ (u.context c).saveBase = field p.body 0x50 8 ∧
        (u.context c).saveSize = field p.body 0x58 8 ∧ (u.lease (ctxUnit p.link) c).e = s.dt + field p.body 0x10 8 ∧
        (u.lease (ctxUnit p.link) c).cls = 1 ∧ (u.lease (ctxUnit p.link) c).inUse = true ∧
        Returned u p 0 (mkHandle (u.lease (ctxUnit p.link) c).gen 1 (linkDie p.link) s.chip c)) ∧
    (Runs s k 1 p → grantBodyOk p.body = false → ∃ u, exec (.contextGrant k) s = .next u ∧ Completed u p 2) ∧
    (Runs s k 2 p → zeroFrom p.body 0x20 = true → s.namesCtx p = true →
      let e := max (s.ctxLease p.ctx).e (s.dt + min (field p.body 0x18 8) 16000000000);
      ∃ u, exec (.contextRenew k) s = .next u ∧ (u.lease (ctxUnit p.link) p.ctx).e = e ∧
        Returned u p 0 (BitVec.ofNat 64 (e - s.dt))) ∧
    (Runs s k 3 p → zeroFrom p.body 0x18 = true → s.namesCtx p = true →
      ∃ u, exec (.contextEnd k) s = .next u ∧ (u.context p.ctx).live = false ∧ Completed u p 0) ∧
    (∀ j ∈ [(2, Instr.contextRenew k), (3, .contextEnd k), (5, .launchGraph k), (6, .copyPacket k), (7, .signalAdd k),
        (8, .signalWait k)], s.started.lookup k = some p → p.kind = j.1 → s.bootBad = false →
      s.ctxThrough p.link p.ctx = false → ∃ u, exec j.2 s = .next u ∧ Completed u p 3)

/-- The memory grants (20 R333, 06 R104): a new range takes the lowest free index of its die, with its pages' entries; a change
rewrites the entries of the pages it names.

The frames of a range are the model's choice, the lowest free ones (log 17), its striping a reading (log 21). -/
def Obligations.MemoryGrantPackets : Prop :=
  ∀ (s : State) (k : Nat) (p : Packet), OwnPacket s k → Runs s k 4 p → s.chip < 3072 →
    (let d := field p.body 0x18 8;
      let w0 : Word := BitVec.ofNat 64 (field p.body 0x20 8);
      let w1 : Word := BitVec.ofNat 64 (field p.body 0x28 8);
      let tpl : Word := BitVec.ofNat 64 (field p.body 0x30 8);
      let die := w1.toNat / 2 ^ 42 % 4;
      let code := w1.toNat / 2 ^ 40 % 4;
      let size := w1.toNat % 2 ^ 40;
      ∀ i ptes, field p.body 0x10 1 = 0 → field p.body 0x11 1 < 2 → zeroFrom p.body 0x38 = true →
        zeroSpan p.body 0x12 0x18 = true → d ≠ 0 → grantBad 2 w0 w1 = false →
        s.templateBad tpl code (if pteMode tpl = 1 then 1 else size / sizeOfCode code) (pteMode tpl != 1) = false →
        grantUnits 2 w1 ≤ s.quotaLeft p.ctx 2 → s.vaTaken p.ctx (offOf w0) size = false →
        s.lowestFree (unitOf 2 die) = some i → s.rangePtes tpl die code (size / sizeOfCode code) (w1.toNat / 2 ^ 44 % 2 == 1) =
          some ptes →
        ∃ u, exec (.memoryGrantNew k) s = .next u ∧
          Returned u p 0 (mkHandle ((s.lease die i).gen + 1) 2 die s.chip i) ∧
          (u.lease die i).data = .range (offOf w0) size code (w1.toNat / 2 ^ 44 % 2 == 1) ∧ (u.lease die i).owner = p.ctx ∧
          (u.lease die i).e = s.dt + min d 4000000000 ∧ (u.lease die i).inUse = true ∧
          (u.lease die i).anchored = (field p.body 0x11 1 == 1) ∧
          u.entries.drop ptes.length = s.entries ∧
          ∀ j < ptes.length, ∃ e ∈ u.entries, e.ctx = p.ctx ∧ e.va = offOf w0 + j * sizeOfCode code ∧ e.pte = ptes.getD j 0) ∧
    (let h : Word := BitVec.ofNat 64 (field p.body 0x20 8);
      let w1 := field p.body 0x28 8;
      let tpl : Word := BitVec.ofNat 64 (field p.body 0x30 8);
      ∀ va size code striped, field p.body 0x10 1 = 1 → zeroFrom p.body 0x38 = true → zeroSpan p.body 0x11 0x20 = true →
        hChip h = s.chip → s.rangeLive h = true → (s.record h).owner = p.ctx →
        (s.record h).data = .range va size code striped → w1 % 2 ^ 32 + w1 / 2 ^ 32 ≤ size / sizeOfCode code →
        s.templateBad tpl code (w1 / 2 ^ 32) true = false →
        ∃ u, exec (.memoryGrantChange k) s = .next u ∧ Returned u p 0 h ∧ u.entries.length = s.entries.length ∧
          (∀ e ∈ s.entries, ¬(e.ctx = p.ctx ∧ e.lease = leaseKey (unitOf 2 (hDie h)) (hIndex h) ∧ e.gen = hGen h) →
            e ∈ u.entries) ∧
          ∀ j < w1 / 2 ^ 32, ∀ e ∈ s.entries, e.ctx = p.ctx → e.lease = leaseKey (unitOf 2 (hDie h)) (hIndex h) →
            e.gen = hGen h → e.va = va + (w1 % 2 ^ 32 + j) * sizeOfCode code → ptePinned e.pte = false →
            { e with pte := templatePte tpl (pteFrame tpl + j * (sizeOfCode code / 4096)) code striped } ∈ u.entries)

/-- The packets that give work (20 R332, R335): a graph's last packet makes its first nodes ready, an earlier one completes; a copy is
queued; a signal is added at its home here, waited for, or its limit reached; a saved gang is held at once and released, a running one once its image is written.

That an earlier packet of a graph completes at once is read by inference (log 66). That a copy whose engine stands on another
chip is worked by this chip is the model's choice (log 35). -/
def Obligations.WorkPackets : Prop :=
  ∀ (s : State) (k : Nat) (p : Packet), OwnPacket s k →
    (let b := p.body;
      let first := field b 0x14 2;
      let n := field b 0x16 1;
      ∀ ns, Runs s k 5 p → s.openGraph p (field b 0x10 4) = none → first = 0 → 1 ≤ n → n ≤ 16 → field b 0x18 2 ≤ 256 →
        n ≤ field b 0x18 2 → zeroSpan b 0x1A 0x20 = true → zeroFrom b (0x20 + 32 * n) = true →
        field b 0x17 1 = (if n = field b 0x18 2 then 1 else 0) → nodesOf b 0x20 0 n = some ns →
        ∃ u, exec (.launchGraph k) s = .next u ∧ (u.graph s.nextId).total = field b 0x18 2 ∧
          (u.graph s.nextId).nodes = ns ∧ ((u.graph s.nextId).whole = true ↔ n = field b 0x18 2) ∧
          (n < field b 0x18 2 → Completed u p 0) ∧
          (n = field b 0x18 2 → ∀ m < n, (∀ e ∈ ns, e.1 = m → e.2.preds = []) → Turn.due (.nodeReady s.nextId m) ∈ u.agenda)) ∧
    (Runs s k 6 p → zeroFrom p.body 0x90 = true → (copyDesc ((p.body.drop 0x10).take 128)).crec = 0 →
      (copyDesc ((p.body.drop 0x10).take 128)).mapped = false → (copyDesc ((p.body.drop 0x10).take 128)).src / 2 ^ 60 = 8 →
      (copyDesc ((p.body.drop 0x10).take 128)).dst / 2 ^ 60 = 8 →
      let e := s.packetEngine p.link p.ctx (copyDesc ((p.body.drop 0x10).take 128)).src;
      (∀ r ∈ s.remote, r.core ≠ queueOwner k) →
      (engChip e = s.chip → s.engineRoom e = true → ∃ u c, exec (.copyPacket k) s = .next u ∧ u.copies = tput s.copies s.nextId c ∧ c.packet = some k ∧ c.ctx = p.ctx ∧
        c.desc = (p.body.drop 0x10).take 128 ∧ c.accepted = false ∧ c.engine = e ∧ c.guest = none ∧
        u.nextId = s.nextId + 1) ∧
      (engChip e = s.chip → s.engineRoom e = false → exec (.copyPacket k) s = .next s) ∧
      (engChip e ≠ s.chip → ∃ u r, exec (.copyPacket k) s = .next u ∧ u.copies = s.copies ∧ u.remote = s.remote ++ [r] ∧
        r.core = queueOwner k ∧ r.chip = engChip e ∧ r.op = .copy (e % 65536) ((p.body.drop 0x10).take 128) ∧
        Sent s u (.request (engChip e) { chip := s.chip, id := r.id, ctx := p.ctx, pa := e % 65536, op := r.op, tagOk := true }))) ∧
    (let h : Word := BitVec.ofNat 64 (field p.body 0x10 8);
      let v : Word := BitVec.ofNat 64 (field p.body 0x18 8);
      (Runs s k 7 p → zeroFrom p.body 0x20 = true → s.writesOut k = false → s.staleShape h = false → hChip h ≠ s.chip →
        ∃ u, exec (.signalAdd k) s = .next u ∧ u.started = s.started ∧ u.asking k = true ∧
          Sent s u (.home (hChip h) (s.packetReq k p (.sig h v)))) ∧
      (Runs s k 7 p → zeroFrom p.body 0x20 = true → s.writesOut k = true → exec (.signalAdd k) s = .next s) ∧
      (∀ l x ms, Runs s k 7 p → zeroFrom p.body 0x20 = true → s.writesOut k = false → s.staleShape h = false → hChip h = s.chip →
        s.lapsedLock = none → s.waiting = [] → s.syncRecord 3 h = some l → l.data = .svar x ms →
        ∃ u, exec (.signalAdd k) s = .next u ∧ Returned u p 0 (x + v) ∧ (u.record h).data = .svar (x + v) ms) ∧
      (∀ l x ms, Runs s k 8 p → zeroFrom p.body 0x28 = true → s.staleShape h = false → hChip h = s.chip →
        s.lapsedLock = none → s.waiting = [] → s.syncRecord 3 h = some l → l.data = .svar x ms →
        (v.toNat ≤ x.toNat → ∃ u, exec (.signalWait k) s = .next u ∧ Returned u p 0 x) ∧
        (x.toNat < v.toNat → ∃ u, exec (.signalWait k) s = .next u ∧ u.started = s.started ∧ u.asking k = true)) ∧
      (Runs s k 8 p → field p.body 0x20 8 ≠ 0 → p.at_ + field p.body 0x20 8 ≤ s.dt →
        ∃ u, exec (.signalWaitTimeout k) s = .next u ∧ Completed u p 8 ∧ u.asking k = false)) ∧
    (∀ n, Runs s k 10 p → zeroFrom p.body 0x20 = true → s.namedGang p = some n →
      (field p.body 0x10 4 = 0 → (s.gang n).isHeld = false → (s.gang n).state = .saved →
        ∃ u, exec (.debugHold k) s = .next u ∧ (u.gang n).state = .held ∧ Completed u p 0) ∧
      (field p.body 0x10 4 = 0 → (s.gang n).isHeld = false → (s.gang n).state = .running →
        (s.imageAt (s.launch (s.gang n).launch).ctx).isSome = true →
        ∃ u, exec (.debugHold k) s = .next u ∧ (u.gang n).state = .halting ∧ (u.gang n).hold = true ∧
          k ∈ (u.gang n).packets ∧ u.started = s.started) ∧
      (field p.body 0x10 4 = 1 → (s.gang n).state = .held →
        ∃ u, exec (.debugRelease k) s = .next u ∧ (u.gang n).state = .saved ∧ (u.gang n).hold = false ∧ Completed u p 0))

/-- The firmware calls (20 R338 to R340, 21 R359, 23 R380 to R385) with their parameters in range, and a latch of Gingham: what each
writes to host memory or sets, and their completion with status 0; parameters out of range, and a first load of route tables after a
context has been granted, give status 2. A latch writes 0 at offset 0 of its slot, then every other field, then its number.

The bytes of attestation, certificate and status are the model's free values and readings (log 68, 71 to 75), and which
images are accepted is opaque (log 68). -/
def Obligations.FirmwareCalls : Prop :=
  ∀ (s : State) (k : Nat) (p : Packet), Runs s k 9 p →
    (p.fn = 1 → zeroFrom p.body 0x40 = true → ∃ u, exec (.fwAttest k) s = .next u ∧ Completed u p 0 ∧
      mgets u.mem (hostKey p.link (field p.body 0x38 8)) 256 = s.attestation ((p.body.drop 0x18).take 32) ∧
      SameBytesBut s u (hostKey p.link (field p.body 0x38 8)) 256) ∧
    (p.fn = 0 ∨ 8 < p.fn → ∃ u, exec (.fwAttest k) s = .next u ∧ Completed u p 2 ∧ SameBytes s u) ∧
    (p.fn = 2 → zeroFrom p.body 0x20 = true →
      (100000 ≤ field p.body 0x18 8 → field p.body 0x18 8 ≤ 100000000 → ∃ u, exec (.fwTimeSlice k) s = .next u ∧
        Completed u p 0 ∧ u.sliceLen = field p.body 0x18 8) ∧
      (field p.body 0x18 8 < 100000 ∨ 100000000 < field p.body 0x18 8 → ∃ u, exec (.fwTimeSlice k) s = .next u ∧
        Completed u p 2 ∧ u.sliceLen = s.sliceLen)) ∧
    (p.fn = 3 → field p.body 0x18 1 = 0 → policyBad p.body = false → ∃ u, exec (.fwPowerPolicySet k) s = .next u ∧
      Returned u p 0 (BitVec.ofNat 64 (s.power.next.getD s.power.now).limit) ∧ u.power.now = s.power.now ∧
      u.power.next = some (policyOf p.body)) ∧
    (p.fn = 3 → field p.body 0x18 1 = 1 → zeroFrom p.body 0x30 = true → field p.body 0x28 8 % 64 = 0 →
      ∃ u, exec (.fwPowerStatus k) s = .next u ∧ Completed u p 0 ∧
        mgets u.mem (hostKey p.link (field p.body 0x28 8)) 64 = s.powerRecord ∧
        SameBytesBut s u (hostKey p.link (field p.body 0x28 8)) 64) ∧
    (p.fn = 4 → zeroFrom p.body 0x28 = true → (s.joined = true ∨ s.everCtx = false) →
      ∃ u, exec (.fwRouteTable k) s = .next u ∧ Completed u p 0 ∧ u.joined = true ∧
        u.routeBytes = mgets s.mem (hostKey p.link (field p.body 0x18 8)) (field p.body 0x20 8) ∧
        (s.joined = true → u.chip = s.chip ∧ u.dt = s.dt)) ∧
    (p.fn = 4 → s.joined = false → s.everCtx = true → ∃ u, exec (.fwRouteTable k) s = .next u ∧ Completed u p 2 ∧
      u.joined = false ∧ u.routes = s.routes) ∧
    (p.fn = 5 → zeroFrom p.body 0x20 = true → field p.body 0x18 8 < 1088 → ∃ u, exec (.fwIslandService k) s = .next u ∧
      Completed u p 0 ∧ ∀ j, j ∈ u.outOf ↔ j ∈ s.outOf ∧ j ≠ field p.body 0x18 8) ∧
    (p.fn = 6 → zeroFrom p.body 0x28 = true → Config.certChain.length ≤ field p.body 0x20 8 →
      ∃ u, exec (.fwIdentity k) s = .next u ∧ Completed u p 0 ∧
        mgets u.mem (hostKey p.link (field p.body 0x18 8)) Config.certChain.length = Config.certChain) ∧
    (p.fn = 7 → zeroFrom p.body 0x28 = true →
      let img := mgets s.mem (hostKey p.link (field p.body 0x18 8)) (field p.body 0x20 8);
      (s.accepts img = true → ∃ u, exec (.fwFirmwareUpdate k) s = .next u ∧ Completed u p 0 ∧ u.storedFw = some img) ∧
      (s.accepts img = false → ∃ u, exec (.fwFirmwareUpdate k) s = .next u ∧ Completed u p 2 ∧ u.storedFw = s.storedFw)) ∧
    (p.fn = 8 → zeroFrom p.body 0x30 = true → field p.body 0x18 8 % 16384 = 0 → 10000 ≤ field p.body 0x20 8 →
      field p.body 0x20 8 ≤ 1000000 → 1 ≤ field p.body 0x28 8 → field p.body 0x28 8 ≤ 4096 →
      ∃ u, exec (.fwGingham k) s = .next u ∧ Completed u p 0 ∧ u.gingham.base = field p.body 0x18 8 ∧
        u.gingham.interval = field p.body 0x20 8 ∧ u.gingham.n = field p.body 0x28 8 ∧ u.gingham.k = 0) ∧
    (let g := s.gingham;
      let a := hostKey g.link (g.base + 16384 * (g.k % g.n));
      (g.phase = 0 → g.base ≠ 0 → g.at_ + g.interval ≤ s.dt → ∃ u, exec .ginghamLatch s = .next u ∧
        u.gingham = { g with k := g.k + 1, at_ := g.at_ + g.interval, phase := 1, image := s.grid (g.k + 1) } ∧
        (s.grid (g.k + 1)).length = 12352 ∧
        let b := hostKey g.link (g.base + 16384 * ((g.k + 1) % g.n));
        mgets u.mem b 8 = List.replicate 8 0 ∧ SameBytesBut s u b 8) ∧
      (g.phase = 1 → g.image.length = 12352 → ∃ u, exec .ginghamLatch s = .next u ∧ u.gingham = { g with phase := 2 } ∧
        mgets u.mem (a + 8) 12344 = g.image.drop 8 ∧ SameBytesBut s u (a + 8) 12344) ∧
      (g.phase = 2 → g.image.length = 12352 → ∃ u, exec .ginghamLatch s = .next u ∧
        u.gingham = { g with phase := 0, image := [] } ∧ mgets u.mem a 8 = g.image.take 8 ∧ SameBytesBut s u a 8))

/-! ## Gangs, leases and time (05, 06, 15, 20) -/

/-- The dispatcher and the life of a gang (05 R86 to R89; 15 R282, R283, R285; 20 R335): a ready gang takes the lowest free cluster of
its die, its cores at kernel entry; a request stops a running gang; once drained its image is written; the saved gang frees its
cluster, or is held; a saved gang whose image checks runs again; a slice that ends starts again when no context waits.

Ties and the choice of clusters are read by inference (log 65), the place of an image is the model's choice (log 18). -/
def Obligations.GangsLiveByTheDispatcher : Prop :=
  ∀ s : State,
    (∀ die n c cs, die < 4 → s.firstOn die = some n → s.freeClusters die = c :: cs → (s.gang n).state = .waiting →
      ∃ u, exec (.gangPlace die) s = .next u ∧ (u.gang n).state = .running ∧ (u.gang n).cluster = c ∧ (u.gang n).placed = s.dt ∧
        (u.cluster c).gang = some n ∧ (u.cluster c).icache = [] ∧
        ∀ g ∈ coresOf c, (u.slot g 0).live = true ∧ (u.slot g 0).priv = false ∧ (u.slot g 0).f = 0 ∧
          (u.slot g 0).pc = BitVec.ofNat 64 (field (s.launch (s.gang n).launch).record 0 8) ∧ (u.slot g 0).a = 0 ∧
          (u.slot g 0).ptr 0 = 0x3F000 ∧ (u.slot g 0).ptr 7 = 0x35000 ∧ (∀ k, 1 ≤ k → (u.slot g k).live = false) ∧
          (u.core g).live = 0xFFFFF ∧ (u.core g).done = false) ∧
    (∀ n r, r < 4 → (s.gang n).state = .running → (s.imageAt (s.launch (s.gang n).launch).ctx).isSome = true →
      ∃ u, exec (.preemptRequest n r) s = .next u ∧ (u.gang n).state = .halting ∧ (u.gang n).reason = r ∧
        (u.gang n).hold = (r == 2 || r == 3) ∧ (u.gang n).reqDt = s.dt ∧ (u.cluster (s.gang n).cluster).halt = true ∧
        SameBytes s u) ∧
    (∀ n r, 4 ≤ r → exec (.preemptRequest n r) s = .fault .noSuchUnit) ∧
    (∀ n t, (s.gang n).state = .halting → s.drained (s.gang n).cluster = true → (s.gang n).image + 4 ≤ 2 ^ 68 →
      t = s.finishArrays (coresOf (s.gang n).cluster) → (t.gang n).state = .halting → t.drained (s.gang n).cluster = true →
      t.sectorsDone n = true →
      ∃ u, exec (.preemptDrainEnd n) s = .next u ∧ (u.gang n).state = .saving ∧ Turn.due (.saveImage n) ∈ u.agenda ∧
        mread u.mem (s.gang n).image 4 = 0x474D495A) ∧
    (∀ n, (s.gang n).state = .saving → (s.gang n).image + 4096 ≤ 2 ^ 68 → ∃ u, exec (.saveImageComplete n) s = .next u ∧
      (u.gang n).state = (if (s.gang n).hold then .held else .saved) ∧ (u.cluster (s.gang n).cluster).gang = none ∧
      mread u.mem ((s.gang n).image + 0x20) 8 = s.dt % 2 ^ 64) ∧
    (∀ n c cs, (s.gang n).state = .saved → s.freeClusters (s.gang n).die = c :: cs →
      imageCrc s.mem (s.gang n).image (imageSpan (mgets s.mem (s.gang n).image 4096)) =
        field (mgets s.mem (s.gang n).image 4096) 0xFFC 4 → s.copies = [] → NoFlaw s (s.gang n).image 4096 →
      NoFlaw s (s.gang n).image (imageSpan (mgets s.mem (s.gang n).image 4096)) →
      ∃ u, exec (.gangRestore n) s = .next u ∧ (u.gang n).state = .running ∧ (u.gang n).cluster = c ∧
        (u.cluster c).gang = some n ∧ (u.cluster c).frozen = false ∧ (u.cluster c).halt = false) ∧
    (∀ die ctx t, die < 4 → ctx < 1024 → s.slices.lookup (sliceKey die ctx) = some t → t + s.sliceLen ≤ s.dt →
      s.runningOf die ctx ≠ [] → s.firstRival die ctx = none →
      ∃ u, exec (.timeSliceExpiry die ctx) s = .next u ∧ tget 0 u.slices (sliceKey die ctx) = s.dt ∧ SameBytes s u ∧
        u.gangs = s.gangs) ∧
    (∀ g n t j bs, (s.graph g).nodeDue n = true → (s.context (s.graph g).ctx).live = true → s.ctxLive (s.graph g).ctx = true →
      (if ((s.graph g).node n).log = [] then s.dropLines (linkDie (s.graph g).link) (s.graph g).ctx else s).imageBlocks (.start ((s.graph g).node n).log) (s.graph g).ctx (linkDie (s.graph g).link)
        (((s.graph g).node n).image % 2 ^ 60) 0 64 = .ok t j bs → (∀ b ∈ bs, b.got.isSome = true) →
      let r := recordOf (blockBytes bs) (s.graph g).ctx ((s.graph g).node n).ident;
      launchBad r = false →
      ∃ u, exec (.nodeReady g n) s = .next u ∧ ((u.graph g).node n).state = 1 ∧
        (u.launch t.nextId).ident = ((s.graph g).node n).ident ∧ (u.launch t.nextId).ctx = (s.graph g).ctx ∧
        ∀ i < field r 8 4, ∃ e ∈ u.gangs, e.2.launch = t.nextId ∧ e.2.index = i ∧ e.2.state = .waiting)

/-- Leases and time (01 R12, 06 R97, R100, R101, R103, 17 R320): a lapse takes the record out of use, that of a context
ends the context, a revocation ends the leases of its
context, a scrub clears the pages of a lapsed range and frees its index, a reply wakes the slot that asked, a home answers a request once and again when it is resent, or holds it with a notice, a beacon corrects the
rate by at most 100 parts per million, a path's record at its source ends 200 ns after its expiry.

Which frames a scrub clears, those of its entries and those that a change of pages took from the range, is read by inference
(log 46). That a home decides a request once and answers a resend from its record, and holds a wait with a notice that names
the request, is read by inference (log 88, 91). -/
def Obligations.LeasesFollowTime : Prop :=
  ∀ s : State,
    (∀ unit idx, unit < 8 → idx < 262144 → (s.lease unit idx).inUse = true → s.leaseLive (s.lease unit idx) = false →
      (∀ pa, (s.lease unit idx).data ≠ .lock pa) → s.lapsedLock = none → s.waiting = [] → (s.lease unit idx).cls ≠ 1 →
      ∃ u, exec (.leaseLapse unit idx) s = .next u ∧ (u.lease unit idx).inUse = false ∧ (u.lease unit idx).anchored = false ∧
        (u.lease unit idx).gen = (s.lease unit idx).gen ∧ SameBytes s u) ∧
    (∀ unit idx, unit < 12 → idx < 262144 → (s.lease unit idx).inUse = true → s.leaseLive (s.lease unit idx) = false →
      (∀ pa, (s.lease unit idx).data ≠ .lock pa) → (s.lease unit idx).cls = 1 → ∃ u, exec (.leaseLapse unit idx) s = .next u ∧
        (u.context (s.lease unit idx).owner).live = false) ∧
    (∀ unit idx, unit < 12 → idx < 262144 → s.leaseLive (s.lease unit idx) = true →
      exec (.leaseLapse unit idx) s = .next s) ∧
    (∀ unit idx, ¬(unit < 12 ∧ idx < 262144) → exec (.leaseLapse unit idx) s = .fault .noSuchUnit) ∧
    (∀ unit ctx idx, unit < 12 → idx < 2 ^ 20 → ∃ u, exec (.revocationApply unit ctx) s = .next u ∧ SameBytes s u ∧
      ((s.lease unit idx).owner = ctx → (s.lease unit idx).inUse = true → u.leaseLive (u.lease unit idx) = false) ∧
      ((s.lease unit idx).owner ≠ ctx → u.lease unit idx = s.lease unit idx)) ∧
    (∀ unit idx va size page str, unit < 12 → idx < 262144 → (s.lease unit idx).data = .range va size page str →
      (s.lease unit idx).inUse = false → s.leaseLive (s.lease unit idx) = false →
      s.scrubWaits unit idx (s.lease unit idx).gen = false →
      ∃ u, exec (.rangeScrubDone unit idx) s = .next u ∧ (u.lease unit idx).data = .none ∧
        (∀ e ∈ s.rangeEntries unit idx (s.lease unit idx).gen, ∀ j < pteSize e.pte,
          mget u.mem (pteFrame e.pte * 4096 + j) = 0 ∧
          mget u.mem (fmtKey (pteFrame e.pte * 4096 + j)) = 0 ∧ mget u.mem (scaleKey (pteFrame e.pte * 4096 + j)) = 127)) ∧
    (∀ core slot (p : HomeRep) k, core < 1024 → slot < 11 → (s.slot core slot).live = true →
      (s.slot core slot).park = some k → k.wake = .reply → (s.slot core slot).asked = p.id → p.queued = false →
      ∃ u, exec (.homeReply core slot p) s = .next u ∧ SameBytes s u ∧
        (u.slot core slot).park = some { k with wake := .till 0, woken := true } ∧
        (u.slot core slot).replies = (s.slot core slot).replies ++ [.home p]) ∧
    (∀ (r : HomeReq) h, r.op = .life h → r.chip ≠ s.chip → s.lapsedLock = none → s.waiting = [] →
      s.homeDone.lookup (r.chip, r.id) = none →
      ∃ u, exec (.homeRequest r) s = .next u ∧ SameBytes s u ∧ Sent s u (.homeReply r.chip r.core r.slot (s.lifeHome r h))) ∧
    (∀ (r : HomeReq) p, r.chip ≠ s.chip → s.homeDone.lookup (r.chip, r.id) = some p →
      ∃ u, exec (.homeRequest r) s = .next u ∧ SameBytes s u ∧ u.leases = s.leases ∧
        Sent s u (.homeReply r.chip r.core r.slot p)) ∧
    (∀ (r : HomeReq) h v x ms l, r.op = .sigw h v → r.chip ≠ s.chip → s.lapsedLock = none → s.waiting = [] →
      s.homeDone.lookup (r.chip, r.id) = none → s.syncRecord 3 h = some l → l.data = .svar x ms → x.toNat < v.toNat →
      ∃ u, exec (.homeRequest r) s = .next u ∧ u.waiting = [r] ∧ Sent s u (.holdNotice r.chip (BitVec.ofNat 64 r.id))) ∧
    (∀ adj, ∃ u, exec (.dtBeacon adj) s = .next u ∧ u.dtSlew ≤ 200 ∧ (adj ≤ 200 → u.dtSlew = adj) ∧ u.dt = s.dt ∧ SameBytes s u) ∧
    (∀ h, ∃ u, exec (.pathSourceDiscard h) s = .next u ∧ SameBytes s u ∧
      (∀ x ∈ s.paths, x.h = h → hChip h ≠ s.chip → x.ed + 200 ≤ s.dt → { x with gone := true } ∈ u.paths) ∧
      (∀ x ∈ s.paths, x.h ≠ h → x ∈ u.paths))

/-! ## Stations, engines and records (07, 09, 12, 15, 20) -/

/-- Stations, the migration agent and the memory controllers (09 R169 to R173, R191; 16 R292): an accepted access of a counted page counts,
a migration sets WB, switches the entry once no write accepted before is still to be performed and the lines are at hand, and is given
up after 2 ms, an uncorrectable line is poisoned and reported, a reply frees its request and wakes the slot that waits for it.

The steps of a migration and the fields of the record are readings (log 54, 61), their time the model's choice (log 8). -/
def Obligations.StationsAndControllers : Prop :=
  ∀ s : State,
    (∀ (r : StationReq) route e, r.die < 4 → s.verdict r.ctx r.va false r.kind = .go route e → pteMode e.pte = 4 →
      countOf s.counted e.ctx e.va + 1 < (if pteThr e.pte = 0 then 256 else 2 ^ pteThr e.pte) →
      ∃ u, exec (.stationAccess r) s = .next u ∧ countOf u.counted e.ctx e.va = countOf s.counted e.ctx e.va + 1 ∧
        SameBytes s u ∧ u.contexts = s.contexts) ∧
    (∀ (r : StationReq) c, r.die < 4 → s.verdict r.ctx r.va false r.kind = .refuse c →
      exec (.stationAccess r) s = .next s) ∧
    (∀ ctx va frame e, MigratablePage s ctx va frame e → pteWb e.pte = false →
      ∃ u, exec (.pageMigration ctx va frame) s = .next u ∧ SameBytes s u ∧ (ctx, e.va, s.dt) ∈ u.migrations ∧
        { e with pte := e.pte ||| (1#64 <<< 47) } ∈ u.entries) ∧
    (∀ ctx va frame e bs, MigratablePage s ctx va frame e → pteWb e.pte = true →
      (∃ m ∈ s.migrations, m.1 = ctx ∧ m.2.1 = e.va ∧ s.dt < m.2.2 + 2000000) →
      (∀ r ∈ s.remote, ¬(r.chip = ptePeer e.pte ∧ opWrites r.op = true)) → s.writePlaced (inRange ctx e.va (e.va + pteSize e.pte)) = false →
      s.pageLines (ptePeer e.pte) (pteFrame e.pte * 4096) (pteSize e.pte / 64) = some bs →
      ∃ u, exec (.pageMigration ctx va frame) s = .next u ∧ (∀ m ∈ u.migrations, ¬(m.1 = ctx ∧ m.2.1 = e.va)) ∧
        { e with pte := BitVec.ofNat 64 (s.chip * 2 ^ 52 + 2 ^ 48 + frame % 2 ^ 34 * 2 ^ 12 + e.pte.toNat % 2 ^ 12) } ∈
          u.entries) ∧
    (∀ ctx va t e, (s.migrations.find? fun m => m.1 == ctx && m.2.1 == va) = some (ctx, va, t) → t + 2000000 ≤ s.dt →
      s.entry ctx va = some e → e.va = va → pteMode e.pte = 4 →
      ∃ u, exec (.migrationWbTimeout ctx va) s = .next u ∧ SameBytes s u ∧
        { e with pte := e.pte &&& ~~~(1#64 <<< 47) } ∈ u.entries ∧ ∀ m ∈ u.migrations, ¬(m.1 = ctx ∧ m.2.1 = va)) ∧
    (∀ line, line < hbmSize / 64 →
      ((∀ f ∈ s.flaws, onFlaw (64 * line) 64 f = false) → exec (.patrolScrub line .none) s = .next s ∧
        ∃ u, exec (.patrolScrub line .corrected) s = .next u ∧ SameBytes s u ∧
          let i := 2 * dieOfPa (64 * line) + bankOf (64 * line) % 128 / 64; tget 0 u.corrected i = tget 0 s.corrected i + 1) ∧
      (∀ f ∈ s.flaws, f.2 = true → f.1 = 64 * line → ∃ u, exec (.patrolScrub line .none) s = .next u ∧
        poisoned u.mem (64 * line) = true ∧ f ∉ u.flaws ∧ SameBytes s u) ∧
      ∀ ctx, ctx < 1024 → ∃ u, exec (.patrolScrub line (.uncorrectable ctx)) s = .next u ∧ poisoned u.mem (64 * line) = true ∧
        (∀ k, k ≠ scaleKey (64 * line) → mget u.mem k = mget s.mem k) ∧
        (u.context ctx).fq.staged.length = (s.context ctx).fq.staged.length + 1) ∧
    (∀ line e, hbmSize / 64 ≤ line → exec (.patrolScrub line e) s = .fault .noSuchUnit) ∧
    (∀ core slot (r : MemRep) q k, core < 1024 → slot < 11 → (s.remote.find? fun x => x.id == r.id) = some q → r.tagOk = true →
      r.remoteError = none → q.core = core → q.slot = slot → (s.slot core slot).live = true →
      (s.slot core slot).park = some k → k.wake = .reply → (s.slot core slot).asked = r.id →
      ∃ u, exec (.memoryReply core slot r) s = .next u ∧ SameBytes s u ∧ (∀ x ∈ u.remote, x.id ≠ r.id) ∧
        (u.slot core slot).park = some { k with wake := .till 0, woken := true } ∧
        (u.slot core slot).replies = (s.slot core slot).replies ++ [.mem q.chip q.pa r])

/-- Engines (07 R143 to R148; 09 R179, R181, R188; 10 R210; 15 R279; 20 R337): a copy is accepted or given status 2; its next
sector is judged as one, waits where a block does, moves with every block of both sides accepted and read, its bytes standing in its
destination and nothing else changed, and is missing where a block is refused; a finished copy delivers its token;
a quantisation command that breaks its layout has status 2, the engine works on the command served next, the last group of one that
has begun is written, or tallied, or skipped, one that has run leaves its queue; a mirror write reaches its word; records are
forwarded; a message rings the bell.

When an engine acts is the model's choice (log 8), which command breaks its layout a reading (log 34). When a link has staged
its new image is the model's choice (log 67), and so is the engine's order of accesses (log 98). -/
def Obligations.EnginesWork : Prop :=
  ∀ s : State,
    (∀ id c, s.copies.lookup id = some c → c.accepted = false → ∃ u x, exec (.copyAccept id) s = .next u ∧
      u.copies = tput s.copies id x ∧ x.accepted = true ∧ SameBytes s u ∧
      (x.status = 2 ↔ (copyDesc c.desc).bad (engKind c.engine) c.packet.isSome = true ∨
        (c.replay = true ∧ (copyDesc c.desc).mapped = false) ∨ c.status = 2)) ∧
    (∀ id c u k src dst, SectorDue s id c → SectorSeen s u id c k src dst →
      (copyDesc c.desc).offCell ((copyDesc c.desc).sector (c.sectorAt c.next)) = none → (∀ a ∈ src, a.got.isSome = true) →
      (∀ a ∈ dst, a.got.isSome = true) →
      ((∀ a ∈ dst, u.targetWaits id a = false) →
        ∃ v x, exec (.copySector id) s = .next v ∧ v.copies.lookup id = some x ∧ x.next = c.next + 1 ∧ x.missing = c.missing ∧
          x.moved = c.moved + (sectorBytes u c src).length ∧ x.status = c.status ∧
          (c.replay = false → TargetsApart u dst → SectorWritten s u v c (sectorBytes u c src) dst)) ∧
      ((∃ a ∈ dst, u.targetWaits id a = true) →
        ∃ v, exec (.copySector id) s = .next v ∧ v.copies.lookup id = some { c with log := k.all } ∧ SameBytes s v)) ∧
    (∀ id c t log, SectorDue s id c → Judges s t c (some log) → c.log = [] → (∃ r ∈ log, ∃ n p z, r = .refused n p z) →
      ∃ v x, exec (.copySector id) s = .next v ∧ v.copies.lookup id = some x ∧ x.next = c.next + 1 ∧
        x.missing = c.missing ++ [c.sectorAt c.next] ∧ x.moved = c.moved ∧ SameBytes s v) ∧
    (∀ id c u k src dst, SectorDue s id c → SectorSeen s u id c k src dst → (∃ a ∈ src, a.got = none) →
      ∃ v x, exec (.copySector id) s = .next v ∧ v.copies.lookup id = some x ∧ x.next = c.next + 1 ∧
        x.missing = c.missing ++ [c.sectorAt c.next] ∧ x.moved = c.moved ∧ SameBytes s v) ∧
    (∀ id c t, SectorDue s id c → Judges s t c none →
      ∃ v, exec (.copySector id) s = .next v ∧ v.copies = s.copies ∧ SameBytes s v) ∧
    (∀ id c t log r l, SectorDue s id c → Judges s t c (some log) → AllAccepted c log →
      (copyDesc c.desc).offCell ((copyDesc c.desc).sector (c.sectorAt c.next)) = none →
      eachAccess (fun t j a => t.copyTake j id c (copyDesc c.desc) a) t (.start log) (sectorBlocks c).1 = .wait r l →
      ∃ v, exec (.copySector id) s = .next v ∧ v.copies.lookup id = some { c with log := l } ∧ SameBytes s v) ∧
    (∀ id c, s.copies.lookup id = some c → c.accepted = true → c.suspended = false → c.ended = false → c.count ≤ c.next →
      c.status ≠ 2 → c.packet = none → c.faults = [] → c.missing = [] → c.replay = false → (copyDesc c.desc).mapped = false →
      s.copyHome c = true → (∀ r ∈ s.remote, r.core ≠ copyOwner id) → (copyDesc c.desc).recordFits = true → c.core < 1024 →
      s.supervisor c.core (copyDesc c.desc).crec 32 = false → (∀ off, watchHit (s.cluster (clusterOf c.core)) 1 off 32 = none) →
      ∃ u, exec (.copyComplete id) s = .next u ∧ u.copies.lookup id = none ∧
        (tget Tok.idle (u.slot c.core c.slot).tok c.tok).busy = false ∧
        (tget Tok.idle (u.slot c.core c.slot).tok c.tok).status = 0 ∧
        (tget Tok.idle (u.slot c.core c.slot).tok c.tok).moved = BitVec.ofNat 64 c.moved ∧
        mread u.mem (lKey c.core (copyDesc c.desc).crec) 8 = c.moved % 2 ^ 64) ∧
    (∀ die c, die < 4 → ((s.engine die).queue.any fun c => c.ran) = false → (s.engine die).pick = some c →
      c.begun = none → (quantDesc c.desc).bad = true → ∃ u, exec (.quantCommandRun die) s = .next u ∧ SameBytes s u ∧
        ∃ d ∈ (u.engine die).queue, d.ctx = c.ctx ∧ d.ticket = c.ticket ∧ d.ran = true ∧ d.status = 2) ∧
    (∀ die c ws z u n m rd wr, die < 4 → ((s.engine die).queue.any fun c => c.ran) = false → (s.engine die).pick = some c →
      c.begun = some (ws, z) → (quantDesc c.desc).op ≠ 3 → GroupSeen s u die c ws n m rd wr →
      let q := quantDesc c.desc;
      let outs := quantBlocks q (q.fmt.getD fmt32) ws z (rd.filterMap fun a => a.got) m;
      ((∀ a ∈ rd, a.got.isSome = true) → (∀ a ∈ wr, a.got.isSome = true) →
        (∀ a ∈ wr, ∀ r, a.got = some r → u.engineWaits (quantOwner die) r.1 = false) →
        ∃ v, exec (.quantCommandRun die) s = .next v ∧
          v.mem = (u.quantPuts die (gOff q.dst) (wr.zip (outs.map fun o => o.1))).mem ∧
          ∃ d ∈ (v.engine die).queue, d.ctx = c.ctx ∧ d.ticket = c.ticket ∧ d.ran = true ∧ d.status = c.status ∧
            d.done = c.done + m ∧ d.nsat = c.nsat + (outs.map fun o => o.2).sum) ∧
      ((∃ a ∈ rd, a.got = none) ∨ (∃ a ∈ wr, a.got = none) → ∃ v, exec (.quantCommandRun die) s = .next v ∧ SameBytes s v ∧
        ∃ d ∈ (v.engine die).queue, d.ctx = c.ctx ∧ d.ticket = c.ticket ∧ d.ran = true ∧ d.status = 1 ∧
          d.nskip = c.nskip + n ∧ d.done = c.done)) ∧
    (∀ die c, die < 4 → ((s.engine die).queue.any fun c => c.ran) = false → (s.engine die).pick = some c →
      ∃ u, exec (.quantCommandRun die) s = .next u ∧ (u.engine die).served = c.ctx ∧
        (u.engine die).queue.length = (s.engine die).queue.length ∧ (u.engine die).tline = (s.engine die).tline ∧
        ∃ d ∈ (u.engine die).queue, d.ctx = c.ctx ∧ d.ticket = c.ticket ∧ d.desc = c.desc) ∧
    (∀ die c ws z t k rd, die < 4 → ((s.engine die).queue.any fun c => c.ran) = false → (s.engine die).pick = some c →
      c.begun = some (ws, z) → (quantDesc c.desc).op = 3 → c.next + 1 = (quantDesc c.desc).nsrc →
      s.quantReads (.start c.log) die c.ctx (gOff (quantDesc c.desc).src) c.next 1 = .ok t k rd →
      ∃ v, exec (.quantCommandRun die) s = .next v ∧ SameBytes s v ∧ ∃ d ∈ (v.engine die).queue, d.ctx = c.ctx ∧
        d.ticket = c.ticket ∧ d.ran = true ∧ d.done = c.done ∧ d.nsat = c.nsat ∧
        ((∀ a ∈ rd, a.got.isSome = true) → d.status = c.status ∧ d.nskip = c.nskip ∧
          d.npois = c.npois + ((rd.filterMap fun a => a.got).filter fun b => b.scale == 255).length) ∧
        ((∃ a ∈ rd, a.got = none) → d.status = 1 ∧ d.nskip = c.nskip + 1)) ∧
    (∀ die c, die < 4 → ((s.engine die).queue.find? fun c => c.ran) = some c → (quantDesc c.desc).stat = 0 →
      (∀ r ∈ s.remote, r.core ≠ quantOwner die) →
      ∃ u, exec (.quantCommandComplete die) s = .next u ∧ SameBytes s u ∧
        (∀ d ∈ (u.engine die).queue, ¬(d.ctx = c.ctx ∧ d.ticket = c.ticket)) ∧
        tget 0 (u.engine die).tline c.ctx = c.ticket ∧
        (c.status ≠ 0 → tget (0, 0) (u.engine die).bad c.ctx = (c.ticket, c.status))) ∧
    (∀ unit idx i v ms m, unit < 8 → idx < 262144 → (s.lease unit idx).data = .svar v ms → (s.lease unit idx).inUse = true →
      s.leaseLive (s.lease unit idx) = true → ms[i]? = some m → m.1 < 1024 → s.supervisor m.1 m.2 8 = false →
      watchHit (s.cluster (clusterOf m.1)) 1 (xOffset 0 m.1 m.2) 8 = none →
      ∃ u, exec (.mirrorWrite (.home unit idx i)) s = .next u ∧ mread u.mem (lKey m.1 m.2) 8 = v.toNat ∧
        SameBytesBut s u (lKey m.1 m.2) 8 ∧
        ∀ k, m.2 ∈ (s.slot m.1 k).watch → (u.slot m.1 k).fired = true) ∧
    (∀ ctx, ctx < 1024 → ∃ u, exec (.faultRecordForward ctx) s = .next u ∧ (u.context ctx).fq.staged = [] ∧
      (u.context ctx).nq.staged = [] ∧ (u.link (s.context ctx).link).staged = []) ∧
    (∀ core, core < 1024 → ∃ u, exec (.supervisorMessage core) s = .next u ∧ (u.core core).bell.getLsbD 0 = true ∧
      SameBytes s u ∧ ∀ k, u.slot core k = s.slot core k) ∧
    (∀ core, 1024 ≤ core → exec (.supervisorMessage core) s = .fault .noSuchUnit)

/-! ## Arrivals over the fabric, resets and power (16, 17, 23) -/

/-- The fabric's unordered class and its links (16 R292, R293): a request of another chip is performed and answered, an atomic once; a
request unanswered for 100 µs is sent again, up to three times; one whose tag fails is asked for again; a flit whose CRC fails is replayed and
counted, and 16 replays in a row that fail take the link down.

That a copy descriptor is kept like an atomic is read by inference (log 88); the free buffers of the next channels are free
values (log 79). That a go-back with path 0 and the request's number asks for the request again, and one with class 15 for an
answer or notice by its number, is read by inference (log 91, 96). -/
def Obligations.UnorderedRequests : Prop :=
  ∀ s : State,
    (∀ (r : RemoteReq), r.pa < hbmSize → r.tagOk = true → s.performed.lookup (reqKey r) = none → s.pinnedAt r.pa = none →
      s.healing.lookup (reqKey r) = none →
      (∀ n, r.op = .read n → ∃ u, exec (.remoteRequestArrival r) s = .next u ∧ SameBytes s u ∧
        (s.flawed (r.pa / 64 * 64) 64 false false = false →
          Sent s u (.reply r.chip r.id { memRep r.id with block := blockAt s.mem (r.pa / 64 * 64) })) ∧
        (s.flawed (r.pa / 64 * 64) 64 false false = true →
          Sent s u (.reply r.chip r.id { memRep r.id with remoteError := some 1 }))) ∧
      (∀ bs, r.op = .write bs → r.pa + bs.length ≤ hbmSize →
        ∃ u, exec (.remoteRequestArrival r) s = .next u ∧ mgets u.mem r.pa bs.length = bs ∧ SameBytesBut s u r.pa bs.length ∧
          Sent s u (.reply r.chip r.id { memRep r.id with flawed := s.flawed r.pa bs.length true false })) ∧
      (∀ b, r.op = .writeBlock b → WholeErrors s (r.pa / 64 * 64) → ∃ u, exec (.remoteRequestArrival r) s = .next u ∧
        u.mem = putBlock s.mem (r.pa / 64 * 64) b ∧ Sent s u (.reply r.chip r.id (memRep r.id))) ∧
      (∀ size v x, r.op = .amo 0 size v x → size = 4 ∨ size = 8 → poisoned s.mem r.pa = false → NoFlaw s r.pa size →
        ∃ u, exec (.remoteRequestArrival r) s = .next u ∧
        mread u.mem r.pa size = (mread s.mem r.pa size + v.toNat) % 2 ^ (8 * size) ∧
        Sent s u (.reply r.chip r.id { memRep r.id with old := BitVec.ofNat 64 (mread s.mem r.pa size) }))) ∧
    (∀ (r : RemoteReq) rep, isAtomic r.op = true → s.performed.lookup (reqKey r) = some rep →
      ∃ u, exec (.remoteRequestArrival r) s = .next u ∧ SameBytes s u ∧ Sent s u (.reply r.chip r.id rep)) ∧
    (∀ (r : RemoteReq), r.tagOk = false → s.performed.lookup (reqKey r) = none → (opWrites r.op = false ∨ isAtomic r.op = true) →
      ∃ u, exec (.remoteRequestArrival r) s = .next u ∧ SameBytes s u ∧ Sent s u (.goBack r.chip 0 r.id)) ∧
    (∀ id q, (s.remote.find? fun q => q.id == id) = some q → q.since + 100000 ≤ s.dt → q.resend < 3 →
      ∃ u, exec (.unorderedResendTimeout id) s = .next u ∧ SameBytes s u ∧
        Sent s u (.request q.chip { chip := s.chip, id := id, ctx := q.ctx, pa := q.pa, op := q.op, tagOk := true }) ∧
        { q with resend := q.resend + 1, since := s.dt } ∈ u.remote) ∧
    (∀ f : FlitIn, f.port < 96 → f.vc < 8 → ∃ u, exec (.flitReceive f) s = .next u ∧ SameBytes s u ∧
      (f.crcOk = true → ∀ p, p ≠ f.port → tget 0 u.replays p = tget 0 s.replays p) ∧
      (f.crcOk = false → tget 0 u.replays f.port = tget 0 s.replays f.port + 1) ∧
      (f.crcOk = false → tget 0 s.replays f.port = 16 → f.port ∈ u.downPorts) ∧
      (tget (0, 0) u.portCtr (8 * f.port + f.vc)).2 =
        ((tget (0, 0) s.portCtr (8 * f.port + f.vc)).2 + f.waitNs) % 2 ^ 64 ∧
      ∀ chip id, f.crcOk = true → f.dest = s.chip → f.broken = some (.control chip id) →
        .goBack chip noteKey id ∈ u.outbox ∨ .goBack chip noteKey id ∈ u.stuck) ∧
    (∀ f : FlitIn, ¬(f.port < 96 ∧ f.vc < 8) → exec (.flitReceive f) s = .fault .noSuchUnit)

/-- Path messages and their answers (16 R295, R296, R299, R304, R308, R311): an accepted word is written and acknowledged, and the next number
expected; a signal is applied; an offer makes a stub
or is refused; a message that is refused is answered so; one out of sequence asks for the expected one; an answer frees the
flits at its destination slot; unanswered messages are sent again on a go-back and on the timer.

The place of a refusal among the checks and the limits of resends are readings (log 49, 51, 53). The acknowledgement with
path 0 is log 52, the hold notice with generation 0 log 91, the number by which an answer or notice is asked for again log
96, all read by inference. -/
def Obligations.PathMessagesArrive : Prop :=
  ∀ s : State,
    (∀ (m : PathMsg) x v, InSequence s m x → m.body = .word v → x.poisoned = [] →
      ∃ u, exec (.pathMessageArrival m) s = .next u ∧ mread u.mem (s.pathPa x m.off) 8 = v.toNat ∧
        SameBytesBut s u (s.pathPa x m.off) 8 ∧ Acked s u m (ackOf s m) ∧
        (u.record m.path).data = .path { x with expect := (x.expect + 1) % 2 ^ 32 }) ∧
    (∀ (m : PathMsg) x h v, InSequence s m x → m.body = .signal h v → x.poisoned = [] →
      ∃ u, exec (.fsigArrival m) s = .next u ∧ Acked s u m (ackOf s m) ∧ SameBytes s u ∧
        ∀ l w ms, hChip h = s.chip → s.syncRecord 3 h = some l → l.data = .svar w ms → (u.record h).data = .svar (w + v) ms) ∧
    (∀ (m : PathMsg) x ctx base size d, InSequence s m x → m.body = .offer ctx base size d none → x.poisoned = [] →
      s.quotaLeft (s.record x.range).owner 7 = 0 →
      ∃ u, exec (.stubOfferArrival m) s = .next u ∧ SameBytes s u ∧
        Acked s u m { ackOf s m with refused := true, reason := 1 }) ∧
    (∀ (m : PathMsg) x ctx base size d i, InSequence s m x → m.body = .offer ctx base size d none → x.poisoned = [] →
      s.quotaLeft (s.record x.range).owner 7 ≠ 0 → s.lowestFree (unitOf 7 (hDie x.range)) = some i →
      let h := mkHandle ((s.lease (unitOf 7 (hDie x.range)) i).gen + 1) 7 (hDie x.range) s.chip i;
      ∃ u, exec (.stubOfferArrival m) s = .next u ∧ mread u.mem (s.pathPa x m.off) 8 = h.toNat ∧
        SameBytesBut s u (s.pathPa x m.off) 8 ∧ Acked s u m { ackOf s m with handle := h, e := s.dt + d } ∧
        (u.lease (unitOf 7 (hDie x.range)) i).e = s.dt + d ∧
        ∃ y, (u.lease (unitOf 7 (hDie x.range)) i).data = .stub y ∧ y.src = m.chip ∧ y.size = size ∧ y.pulled = []) ∧
    (∀ (m : PathMsg), msgFits m = true → s.pathAt m.path = none →
      ∀ j ∈ [Instr.pathMessageArrival m, .fsigArrival m, .stubOfferArrival m], ∃ u, exec j s = .next u ∧ SameBytes s u ∧
        Acked s u m { ackOf s m with refused := true, reason := 3 }) ∧
    (∀ (m : PathMsg) x, msgFits m = true → s.pathAt m.path = some x → x.held = [] → m.seq ≠ x.expect % 2 ^ 32 →
      ∃ u, exec (.pathMessageArrival m) s = .next u ∧ SameBytes s u ∧
        (m.chip ≠ s.chip → .goBack m.chip m.path (x.expect % 2 ^ 32) ∈ u.outbox ∨
          .goBack m.chip m.path (x.expect % 2 ^ 32) ∈ u.stuck) ∧
        (m.chip = s.chip → Turn.due (.goBack m.path (x.expect % 2 ^ 32)) ∈ u.agenda)) ∧
    (∀ (m : PathMsg), msgFits m = false → exec (.pathMessageArrival m) s = .fault .noSuchUnit) ∧
    (∀ (a : AckMsg) p f, a.path ≠ 0 → hClass a.path ≠ 7 → s.pathOf a.path = some p → (p.unacked.find? fun f => f.msg.seq == a.seq) = some f →
      (∀ c b n d g, f.msg.body ≠ .offer c b n d g) → f.counts = true → ∃ u, exec (.ackArrival a) s = .next u ∧ SameBytes s u ∧
        (u.dslot f.owner f.msg.ds).inFl = (s.dslot f.owner f.msg.ds).inFl - bodyFlits f.msg.body ∧
        (∀ q ∈ u.paths, q.h = a.path → ∀ g ∈ q.unacked, g.msg.seq ≠ a.seq)) ∧
    (∀ (a : AckMsg), a.path = 0 → ∃ u, exec (.ackArrival a) s = .next u ∧ SameBytes s u ∧
      ∀ e ∈ u.performed, e.1 ≠ a.chip + 4096 * a.seq) ∧
    (∀ h seq p, h ≠ 0 → hClass h ≠ 7 → s.pathOf h = some p → (∀ f ∈ p.unacked, f.tries < 3) →
      ∃ u, exec (.goBackArrival h seq) s = .next u ∧ SameBytes s u ∧
        (hChip h ≠ s.chip → p.h = h → (∀ f ∈ p.unacked, f.msg.path = h) →
          SentAll s u ((p.unacked.dropWhile fun f => f.msg.seq != seq).map fun f => .path (hChip h) f.msg))) ∧
    (∀ id n, (s.notes.find? fun n => n.id == id) = some n → n.tries < 3 → s.pathOf noteKey = none →
      ∃ u, exec (.goBackArrival noteKey id) s = .next u ∧ SameBytes s u ∧ Sent s u n.msg ∧
        { n with tries := n.tries + 1, at_ := s.dt } ∈ u.notes) ∧
    (∀ h p, s.pathOf h = some p → p.unacked ≠ [] → (∀ f ∈ p.unacked, f.tries < 3) → p.since + 100000 ≤ s.dt →
      ∃ u, exec (.pathResendTimeout h) s = .next u ∧ SameBytes s u ∧
        (hChip h ≠ s.chip → p.h = h → (∀ f ∈ p.unacked, f.msg.path = h) →
          SentAll s u (p.unacked.map fun f => .path (hChip h) f.msg))) ∧
    (∀ h, ∃ u, exec (.holdNoticeArrival h) s = .next u ∧ SameBytes s u ∧
      (∀ p, hGen h ≠ 0 → s.pathOf h = some p →
        u.pathOf h = some { p with since := s.dt, unacked := p.unacked.map Flight.uncounted }) ∧
      ∀ q ∈ s.remote, hGen h = 0 → q.id = h.toNat → { q with resend := 0, since := s.dt } ∈ u.remote)

/-- Deferred tensors (16 R313, R315 to R317): a pull of a pin's tile sends its blocks, any other a refusal; data of a tile whose backing
stands is written there, its blocks and nothing else, the last tile completing the stub while it is live, or waits while its page is blocked; a link moves a live pin's end; the completion and the expiry take the pin away.

That a refused tile stays refused, and that a pull ahead of its offer's answer waits, is read by inference (log 45, 102). -/
def Obligations.DeferredTensorsArrive : Prop :=
  ∀ (s : State) (h : Word),
    (∀ tile chip p, s.keptTile chip h tile = none → (s.pins.find? fun p => p.h == h && p.h != 0 && s.pinLive p) = some p → tile < p.size / 4096 → chip ≠ s.chip →
      ∃ u, exec (.pullRequestArrival h tile chip) s = .next u ∧ SameBytes s u ∧
        Sent s u (.pullData chip h tile ((s.senseTile p tile).tileBlocks p tile))) ∧
    (∀ tile chip d, s.keptTile chip h tile = some d → chip ≠ s.chip → d.bs ≠ [] →
      ∃ u, exec (.pullRequestArrival h tile chip) s = .next u ∧ SameBytes s u ∧ Sent s u (.pullData chip h tile d.bs)) ∧
    (∀ tile chip, s.keptTile chip h tile = none → (∀ p ∈ s.pins, p.h ≠ h) → chip ≠ s.chip →
      ((∀ p ∈ s.pins, p.awaits chip = false) → ∃ u, exec (.pullRequestArrival h tile chip) s = .next u ∧
        SameBytes s u ∧ Sent s u (.pullRefused chip h tile)) ∧
      ∀ p ∈ s.pins, p.awaits chip = true → ∃ u, exec (.pullRequestArrival h tile chip) s = .next u ∧ SameBytes s u ∧
        u.outbox = s.outbox ∧ u.stuck = s.stuck ∧ ∃ q ∈ u.pins, (h, tile, chip) ∈ q.early ∧ { q with early := p.early } = p) ∧
    (∀ tile x n bs e pa, s.stubAt h = some x → x.pulling.lookup tile = some n → s.backingPage x (4096 * tile) = some (e, pa) →
      s.blockerAt pa = none → bs ≠ [] → TileSpot s x tile pa bs.length →
      ∃ u y, exec (.pullDataArrival h tile bs true) s = .next u ∧ u.mem = withBlocks s.mem pa bs ∧ (u.record h).data = .stub y ∧
        y.pulled = x.pulled ++ [tile] ∧ (∀ m, (tile, m) ∉ y.pulling) ∧
        ((∃ t, t < x.size / 4096 ∧ t ≠ tile ∧ t ∉ x.pulled) → y.complete = x.complete) ∧
        ((∀ t < x.size / 4096, t = tile ∨ t ∈ x.pulled) → s.leaseLive (s.record h) = true → y.complete = true ∧
          (x.src ≠ s.chip → .pinDone x.src h ∈ u.outbox ∨ .pinDone x.src h ∈ u.stuck))) ∧
    (∀ tile x n, s.stubAt h = some x → x.pulling.lookup tile = some n →
      ∃ u y, exec (.pullDataArrival h tile [] true) s = .next u ∧ SameBytes s u ∧
        (u.record h).data = .stub y ∧ y.dead = x.dead ++ [tile]) ∧
    (∀ tile x n bs e pa p, s.stubAt h = some x → x.pulling.lookup tile = some n → s.backingPage x (4096 * tile) = some (e, pa) →
      s.blockerAt pa = some p → bs ≠ [] → (∀ d ∈ s.tilesIn, ¬(d.h = h ∧ d.tile = tile)) →
      ∃ u, exec (.pullDataArrival h tile bs true) s = .next u ∧ SameBytes s u ∧
        u.tilesIn = s.tilesIn ++ [{ h := h, tile := tile, bs := bs, tagOk := true }]) ∧
    (∀ e, ∃ u, exec (.stubLinkArrival h e) s = .next u ∧ SameBytes s u ∧ u.entries = s.entries ∧
      ∀ p ∈ s.pins, p.h = h → h ≠ 0 → p.frozen = false → s.pinLive p = true →
        { p with ep := max p.ep (e + 2000) } ∈ u.pins) ∧
    (h ≠ 0 → ∃ u, exec (.pinCompletionArrival h) s = .next u ∧ SameBytes s u ∧ (∀ p ∈ u.pins, p.h ≠ h) ∧
      ∀ p ∈ s.pins, p.h ≠ h → p ∈ u.pins) ∧
    (∃ u, exec (.pinExpiry h) s = .next u ∧ SameBytes s u ∧ (∀ p ∈ u.pins, p.h = h → s.pinLive p = true) ∧
      ∀ p ∈ s.pins, p.h ≠ h → p ∈ u.pins)

/-- Resets and power (23 R376 to R379, R382, R383): a cold reset and a function-level reset leave device memory and the buffers zero with
descriptors (0x00, 127), the memory behind the links as it was, no context, no gang; a power period records its measurement and makes the
next policy the present one; an island that reads 105 °C or more is lowered a step; 125 °C takes the power away; a step change sets the
island's step when no chunk step is in flight and its cluster holds no gang.

The zero buffers at reset are the model's choice (log 2), the averages and the order of islands a reading (log 76, 77). -/
def Obligations.ResetsAndPower : Prop :=
  ∀ s : State,
    (∀ j ∈ [Instr.coldReset, .functionLevelReset 0, .functionLevelReset 1], ∃ u, exec j s = .next u ∧
      (∀ k, k < 2 ^ 64 ∨ 2 ^ 68 ≤ k → mget u.mem k = initByte k) ∧
      (∀ k, 2 ^ 64 ≤ k → k < 2 ^ 68 → mget u.mem k = mget s.mem k) ∧ u.contexts = [] ∧ u.gangs = [] ∧ u.leases = [] ∧
      u.cores = [] ∧ u.clusters = [] ∧ u.dt = 0 ∧ u.chip = 0 ∧ u.joined = false ∧ u.sliceLen = 2000000 ∧ u.powered = true) ∧
    (∀ l, 2 ≤ l → exec (.functionLevelReset l) s = .fault .noSuchUnit) ∧
    (∀ w, ∃ u, exec (.powerPeriod w) s = .next u ∧ SameBytes s u ∧ u.power.now = s.power.next.getD s.power.now ∧
      u.power.next = none ∧ u.power.samples = (w :: s.power.samples).take ((s.power.next.getD s.power.now).window / 10)) ∧
    (∀ i t, i < 1024 → 1050 ≤ t → ∃ u, exec (.thermalPeriod [(i, t)]) s = .next u ∧ SameBytes s u ∧
      tget 0 u.power.temps i = t ∧
      tget 0 u.power.heat i = min 5 (max (tget 0 s.power.demand i) (tget 0 s.power.heat i) + 1) ∧
      (1250 ≤ t → u.powered = false)) ∧
    (∀ i n, i < 1024 → n < 6 → (s.core i).array = none → (s.core i).damask = none → (s.cluster (clusterOf i)).gang = none →
      ∃ u, exec (.islandStepChange i n) s = .next u ∧ tget 0 u.step i = n ∧ SameBytes s u ∧ u.cores = s.cores) ∧
    (∀ i n, 1024 ≤ i → exec (.islandStepChange i n) s = .fault .noSuchUnit)

/-! ## The machine as a whole (03, 05, 15, 23) -/

/-- What reset leaves (15 R271, 21 R342, R355, 23 R382, R383): the registers of every slot, core and cluster at the values
their tables give, device memory zero with descriptor (0x00, 127) and in canonical form, device time 0, chip number 0 and no
context.

The zeros of the buffers are the model's choice (log 2). -/
def Obligations.ResetLeavesTheStatedValues : Prop :=
  (∀ g k, let x := State.reset.slot g k; let c := State.reset.core g; let cl := State.reset.cluster g;
    x.f = 0 ∧ x.vf = 0 ∧ (∀ n, tget 0 x.step n = 0) ∧ x.epc = 0 ∧ x.cause = 0 ∧ x.faddr = 0 ∧ x.rdet = 0 ∧
    c.live = 0xFFFFF#20 ∧ (∀ n, tget 0 c.ctr n = 0) ∧ c.sprot = 0xC010#16 ∧ c.tvec = 0x30000#64 ∧ c.kstk = 0x34000#64 ∧
    c.bell = 0 ∧ c.tbase = 0 ∧ c.tctl = 0 ∧ c.twr = 0 ∧ c.tdrop = 0 ∧
    cl.dctl = 0 ∧ (∀ n, tget 0 cl.wpa n = 0) ∧ (∀ n, tget 0 cl.wpc n = 0)) ∧
  State.reset.MemOk ∧
  (∀ k, k + 64 ≤ descBase → blockAt State.reset.mem k = { data := List.replicate 64 0, fmt := 0x00, scale := 127 }) ∧
  State.reset.dt = 0 ∧ State.reset.chip = 0 ∧ State.reset.contexts = [] ∧ State.reset.gangs = [] ∧ State.reset.dieCtr = []

/-- A step runs the decoded instruction (03 R19, R32, R43, 05 R82, R83): with core g's turn next, its waiting instructions taken up and
its slots woken, the first slot in the order of selection, if it is ready, issues: the decoder reads an instruction from the word at its
pc, or from the word at which it is parked for a port, and the step is the instruction's meaning in that state, with the end of the
core's cycle and the passing of device time around it. An instruction that has issued and waits is taken up as the same word. A turn
that is an event row is that row's meaning.

Whose turn it is, and the time that passes, are the model's choices (log 1, 6). -/
def Obligations.StepRunsTheDecodedInstruction : Prop :=
  (∀ (s q t : State) (g k : Nat) (ks : List Nat) (ts : List Turn) (bs : List Byte) (i : Instr),
    let r := { s with agenda := ts, lastCore := g }.tick g;
    let w := if (q.cluster (clusterOf g)).halt then q else wakeSlots decode q g (q.core g).listed;
    let x := w.slot g k;
    s.powered = true → s.agenda = .core g :: ts → resumeSlots decode r g (r.core g).listed = .next q →
      w.candidates g = k :: ks → x.ready (w.core g).cycle = true → (w.core g).held x = false →
      (x.atPort = true ∧ t = w.on g k ∧ bs = x.word ∨ x.atPort = false ∧ (w.on g k).fetch = .word t bs) → Reads bs i →
    let y := t.setCur { t.cur with word := bs };
    (∀ u, exec i y = .next u → (u.slot g k).atPort = false → step s = .next (u.afterCycle g (some k)).tickOn) ∧
    (∀ f, exec i y = .fault f → step s = .fault f) ∧ (∀ e, exec i y = .refused e → step s = .refused e)) ∧
  (∀ (s u : State) (g k : Nat) (ks : List Nat) (i : Instr), (s.slot g k).resumes (s.core g).cycle = true →
    (s.cluster (clusterOf g)).halt = false → Reads (s.slot g k).word i →
    exec i ((s.on g k).setCur { (s.on g k).cur with word := (s.slot g k).word }) = .next u →
    resumeSlots decode s g (k :: ks) = resumeSlots decode u g ks) ∧
  (∀ (s : State) (i : Instr) (ts : List Turn), s.powered = true → s.agenda = .event i :: ts →
    (∀ u, exec i { s with agenda := ts } = .next u → step s = .next u.tickOn) ∧
    (∀ f, exec i { s with agenda := ts } = .fault f → step s = .fault f))

/-- The decoder reads words laid out by the formats (03 R22, R24 to R27, R35, R37): one word of each format at least, with the
length. -/
def Obligations.WordsDecodeAsTheFormatsSay : Prop :=
  decode (leBytes 4 0x0000D207) = some (.ldSw (.pre 4) 0, 4) ∧ decode (leBytes 4 0x00280D89) = some (.stB (.disp 3) 5, 4) ∧
  decode (leBytes 4 0xFFFFE00D) = some (.li .acc 0x7FFFF#19, 4) ∧ decode (leBytes 4 0x00005091) = some (.bz 10, 4) ∧
  decode (leBytes 4 0x00486019) = some (.idr 9, 4) ∧ decode (leBytes 4 0x0A000063) = some (.trc 5, 4) ∧
  decode (leBytes 4 0x00084461) = some (.mts 0x088#12, 4) ∧ decode (leBytes 2 0x168E) = some (.subShort (.disp 2) 1, 2) ∧
  decode (leBytes 2 0xFFFE) = some (.brk, 2) ∧ decode (leBytes 4 0x00000A47) = some (.fence 2 4, 4) ∧
  decode (leBytes 4 0x00041FD3) = some (.bal 15 3 8, 4) ∧ decode (leBytes 4 0x077225A1) = some (.vfma (.mem 3) (.post 1) .acc, 4) ∧
  decode (leBytes 4 0x03080C31) = some (.tstTile 3 true 4, 4) ∧ decode (leBytes 4 0x03086951) = some (.fsendv 3 (.post 2) 3, 4) ∧
  decode (leBytes 2 0x0ACC) = some (.vfmaShort (.post 3) (.mem 1), 2) ∧ decode (leBytes 4 0x0000007F) = none

/-- Decode and encode agree (03 R22, R35, R37, R41): the decoder reads every well-formed instruction that has a word back from
that word, whatever follows it, with the word's length; and every word it reads is the word of a well-formed instruction, so
that no bit of a word is without a meaning. -/
def Obligations.DecodeAndEncodeAgree : Prop :=
  (∀ (i : Instr) (rest : List Byte), i.WellFormed → encode i ≠ .none →
    decode ((encode i).bytes ++ rest) = some (i, (encode i).bytes.length)) ∧
  (∀ (bs : List Byte) (i : Instr) (n : Nat), decode bs = some (i, n) →
    i.WellFormed ∧ encode i ≠ .none ∧ (encode i).bytes = bs.take n)

/-- Every step keeps memory in its canonical form: addresses rising, and no cell at the value that an unlisted one reads as.

The form is the model's own, what an unlisted cell reads as among it (log 2). -/
def Obligations.StepsKeepMemoryCanonical : Prop :=
  ∀ s t : State, s.MemOk → step s = .next t → t.MemOk
end

