-- ==== Sys2Proof/Laws/State.lean ====
section
/-!
SUPPORT. One lemma per field for the updates of the state, and of a slot's registers: true by rfl where the update does not
look at the mode.
-/
namespace Sys2Proof.Machine

/-! What each update leaves, and the one field it writes. -/

@[simp] theorem State.setCore_mem (s : State) (g : Nat) (c : Core) : (s.setCore g c).mem = s.mem := rfl
@[simp] theorem State.setCore_clusters (s : State) (g : Nat) (c : Core) : (s.setCore g c).clusters = s.clusters := rfl
@[simp] theorem State.setCore_leases (s : State) (g : Nat) (c : Core) : (s.setCore g c).leases = s.leases := rfl
@[simp] theorem State.setCore_contexts (s : State) (g : Nat) (c : Core) : (s.setCore g c).contexts = s.contexts := rfl
@[simp] theorem State.setCore_entries (s : State) (g : Nat) (c : Core) : (s.setCore g c).entries = s.entries := rfl
@[simp] theorem State.setCore_counted (s : State) (g : Nat) (c : Core) : (s.setCore g c).counted = s.counted := rfl
@[simp] theorem State.setCore_migrations (s : State) (g : Nat) (c : Core) : (s.setCore g c).migrations = s.migrations := rfl
@[simp] theorem State.setCore_cached (s : State) (g : Nat) (c : Core) : (s.setCore g c).cached = s.cached := rfl
@[simp] theorem State.setCore_paths (s : State) (g : Nat) (c : Core) : (s.setCore g c).paths = s.paths := rfl
@[simp] theorem State.setCore_pins (s : State) (g : Nat) (c : Core) : (s.setCore g c).pins = s.pins := rfl
@[simp] theorem State.setCore_sent (s : State) (g : Nat) (c : Core) : (s.setCore g c).sent = s.sent := rfl
@[simp] theorem State.setCore_remote (s : State) (g : Nat) (c : Core) : (s.setCore g c).remote = s.remote := rfl
@[simp] theorem State.setCore_performed (s : State) (g : Nat) (c : Core) : (s.setCore g c).performed = s.performed := rfl
@[simp] theorem State.setCore_stalled (s : State) (g : Nat) (c : Core) : (s.setCore g c).stalled = s.stalled := rfl
@[simp] theorem State.setCore_fetched (s : State) (g : Nat) (c : Core) : (s.setCore g c).fetched = s.fetched := rfl
@[simp] theorem State.setCore_waiting (s : State) (g : Nat) (c : Core) : (s.setCore g c).waiting = s.waiting := rfl
@[simp] theorem State.setCore_asked (s : State) (g : Nat) (c : Core) : (s.setCore g c).asked = s.asked := rfl
@[simp] theorem State.setCore_mirrors (s : State) (g : Nat) (c : Core) : (s.setCore g c).mirrors = s.mirrors := rfl
@[simp] theorem State.setCore_away (s : State) (g : Nat) (c : Core) : (s.setCore g c).away = s.away := rfl
@[simp] theorem State.setCore_nextId (s : State) (g : Nat) (c : Core) : (s.setCore g c).nextId = s.nextId := rfl
@[simp] theorem State.setCore_copies (s : State) (g : Nat) (c : Core) : (s.setCore g c).copies = s.copies := rfl
@[simp] theorem State.setCore_guests (s : State) (g : Nat) (c : Core) : (s.setCore g c).guests = s.guests := rfl
@[simp] theorem State.setCore_quant (s : State) (g : Nat) (c : Core) : (s.setCore g c).quant = s.quant := rfl
@[simp] theorem State.setCore_links (s : State) (g : Nat) (c : Core) : (s.setCore g c).links = s.links := rfl
@[simp] theorem State.setCore_started (s : State) (g : Nat) (c : Core) : (s.setCore g c).started = s.started := rfl
@[simp] theorem State.setCore_finished (s : State) (g : Nat) (c : Core) : (s.setCore g c).finished = s.finished := rfl
@[simp] theorem State.setCore_graphs (s : State) (g : Nat) (c : Core) : (s.setCore g c).graphs = s.graphs := rfl
@[simp] theorem State.setCore_launches (s : State) (g : Nat) (c : Core) : (s.setCore g c).launches = s.launches := rfl
@[simp] theorem State.setCore_gangs (s : State) (g : Nat) (c : Core) : (s.setCore g c).gangs = s.gangs := rfl
@[simp] theorem State.setCore_slices (s : State) (g : Nat) (c : Core) : (s.setCore g c).slices = s.slices := rfl
@[simp] theorem State.setCore_turns (s : State) (g : Nat) (c : Core) : (s.setCore g c).turns = s.turns := rfl
@[simp] theorem State.setCore_sliceLen (s : State) (g : Nat) (c : Core) : (s.setCore g c).sliceLen = s.sliceLen := rfl
@[simp] theorem State.setCore_dieCtr (s : State) (g : Nat) (c : Core) : (s.setCore g c).dieCtr = s.dieCtr := rfl
@[simp] theorem State.setCore_portCtr (s : State) (g : Nat) (c : Core) : (s.setCore g c).portCtr = s.portCtr := rfl
@[simp] theorem State.setCore_replays (s : State) (g : Nat) (c : Core) : (s.setCore g c).replays = s.replays := rfl
@[simp] theorem State.setCore_downPorts (s : State) (g : Nat) (c : Core) : (s.setCore g c).downPorts = s.downPorts := rfl
@[simp] theorem State.setCore_step (s : State) (g : Nat) (c : Core) : (s.setCore g c).step = s.step := rfl
@[simp] theorem State.setCore_outOf (s : State) (g : Nat) (c : Core) : (s.setCore g c).outOf = s.outOf := rfl
@[simp] theorem State.setCore_half (s : State) (g : Nat) (c : Core) : (s.setCore g c).half = s.half := rfl
@[simp] theorem State.setCore_power (s : State) (g : Nat) (c : Core) : (s.setCore g c).power = s.power := rfl
@[simp] theorem State.setCore_gingham (s : State) (g : Nat) (c : Core) : (s.setCore g c).gingham = s.gingham := rfl
@[simp] theorem State.setCore_filhel (s : State) (g : Nat) (c : Core) : (s.setCore g c).filhel = s.filhel := rfl
@[simp] theorem State.setCore_dt (s : State) (g : Nat) (c : Core) : (s.setCore g c).dt = s.dt := rfl
@[simp] theorem State.setCore_dtSlew (s : State) (g : Nat) (c : Core) : (s.setCore g c).dtSlew = s.dtSlew := rfl
@[simp] theorem State.setCore_chip (s : State) (g : Nat) (c : Core) : (s.setCore g c).chip = s.chip := rfl
@[simp] theorem State.setCore_joined (s : State) (g : Nat) (c : Core) : (s.setCore g c).joined = s.joined := rfl
@[simp] theorem State.setCore_everCtx (s : State) (g : Nat) (c : Core) : (s.setCore g c).everCtx = s.everCtx := rfl
@[simp] theorem State.setCore_routes (s : State) (g : Nat) (c : Core) : (s.setCore g c).routes = s.routes := rfl
@[simp] theorem State.setCore_routeBytes (s : State) (g : Nat) (c : Core) : (s.setCore g c).routeBytes = s.routeBytes := rfl
@[simp] theorem State.setCore_bootBad (s : State) (g : Nat) (c : Core) : (s.setCore g c).bootBad = s.bootBad := rfl
@[simp] theorem State.setCore_powered (s : State) (g : Nat) (c : Core) : (s.setCore g c).powered = s.powered := rfl
@[simp] theorem State.setCore_resets (s : State) (g : Nat) (c : Core) : (s.setCore g c).resets = s.resets := rfl
@[simp] theorem State.setCore_firmware (s : State) (g : Nat) (c : Core) : (s.setCore g c).firmware = s.firmware := rfl
@[simp] theorem State.setCore_storedFw (s : State) (g : Nat) (c : Core) : (s.setCore g c).storedFw = s.storedFw := rfl
@[simp] theorem State.setCore_rollback (s : State) (g : Nat) (c : Core) : (s.setCore g c).rollback = s.rollback := rfl
@[simp] theorem State.setCore_hostRead (s : State) (g : Nat) (c : Core) : (s.setCore g c).hostRead = s.hostRead := rfl
@[simp] theorem State.setCore_outbox (s : State) (g : Nat) (c : Core) : (s.setCore g c).outbox = s.outbox := rfl
@[simp] theorem State.setCore_agenda (s : State) (g : Nat) (c : Core) : (s.setCore g c).agenda = s.agenda := rfl
@[simp] theorem State.setCore_curCore (s : State) (g : Nat) (c : Core) : (s.setCore g c).curCore = s.curCore := rfl
@[simp] theorem State.setCore_curSlot (s : State) (g : Nat) (c : Core) : (s.setCore g c).curSlot = s.curSlot := rfl
@[simp] theorem State.setCore_homeOut (s : State) (g : Nat) (c : Core) : (s.setCore g c).homeOut = s.homeOut := rfl
@[simp] theorem State.setCore_homeDone (s : State) (g : Nat) (c : Core) : (s.setCore g c).homeDone = s.homeDone := rfl
@[simp] theorem State.setCore_dirty (s : State) (g : Nat) (c : Core) : (s.setCore g c).dirty = s.dirty := rfl
@[simp] theorem State.setCore_hops (s : State) (g : Nat) (c : Core) : (s.setCore g c).hops = s.hops := rfl
@[simp] theorem State.setCore_router (s : State) (g : Nat) (c : Core) : (s.setCore g c).router = s.router := rfl
@[simp] theorem State.setCore_stuck (s : State) (g : Nat) (c : Core) : (s.setCore g c).stuck = s.stuck := rfl
@[simp] theorem State.setCore_notes (s : State) (g : Nat) (c : Core) : (s.setCore g c).notes = s.notes := rfl
@[simp] theorem State.setCore_noted (s : State) (g : Nat) (c : Core) : (s.setCore g c).noted = s.noted := rfl
@[simp] theorem State.setCore_tilesOut (s : State) (g : Nat) (c : Core) : (s.setCore g c).tilesOut = s.tilesOut := rfl
@[simp] theorem State.setCore_tilesIn (s : State) (g : Nat) (c : Core) : (s.setCore g c).tilesIn = s.tilesIn := rfl
@[simp] theorem State.setCore_pullsOut (s : State) (g : Nat) (c : Core) : (s.setCore g c).pullsOut = s.pullsOut := rfl
@[simp] theorem State.setCore_healing (s : State) (g : Nat) (c : Core) : (s.setCore g c).healing = s.healing := rfl
@[simp] theorem State.setCore_trail (s : State) (g : Nat) (c : Core) : (s.setCore g c).trail = s.trail := rfl
@[simp] theorem State.setCore_claims (s : State) (g : Nat) (c : Core) : (s.setCore g c).claims = s.claims := rfl
@[simp] theorem State.setCore_flaws (s : State) (g : Nat) (c : Core) : (s.setCore g c).flaws = s.flaws := rfl
@[simp] theorem State.setCore_corrected (s : State) (g : Nat) (c : Core) : (s.setCore g c).corrected = s.corrected := rfl
@[simp] theorem State.setCore_dtRem (s : State) (g : Nat) (c : Core) : (s.setCore g c).dtRem = s.dtRem := rfl
@[simp] theorem State.setCore_lastCore (s : State) (g : Nat) (c : Core) : (s.setCore g c).lastCore = s.lastCore := rfl
@[simp] theorem State.setCore_ticks (s : State) (g : Nat) (c : Core) : (s.setCore g c).ticks = s.ticks := rfl
@[simp] theorem State.setCore_born (s : State) (g : Nat) (c : Core) : (s.setCore g c).born = s.born := rfl

@[simp] theorem State.setCluster_mem (s : State) (n : Nat) (c : Cluster) : (s.setCluster n c).mem = s.mem := rfl
@[simp] theorem State.setCluster_cores (s : State) (n : Nat) (c : Cluster) : (s.setCluster n c).cores = s.cores := rfl
@[simp] theorem State.setCluster_leases (s : State) (n : Nat) (c : Cluster) : (s.setCluster n c).leases = s.leases := rfl
@[simp] theorem State.setCluster_contexts (s : State) (n : Nat) (c : Cluster) : (s.setCluster n c).contexts = s.contexts := rfl
@[simp] theorem State.setCluster_entries (s : State) (n : Nat) (c : Cluster) : (s.setCluster n c).entries = s.entries := rfl
@[simp] theorem State.setCluster_counted (s : State) (n : Nat) (c : Cluster) : (s.setCluster n c).counted = s.counted := rfl
@[simp] theorem State.setCluster_migrations (s : State) (n : Nat) (c : Cluster) : (s.setCluster n c).migrations = s.migrations := rfl
@[simp] theorem State.setCluster_cached (s : State) (n : Nat) (c : Cluster) : (s.setCluster n c).cached = s.cached := rfl
@[simp] theorem State.setCluster_paths (s : State) (n : Nat) (c : Cluster) : (s.setCluster n c).paths = s.paths := rfl
@[simp] theorem State.setCluster_pins (s : State) (n : Nat) (c : Cluster) : (s.setCluster n c).pins = s.pins := rfl
@[simp] theorem State.setCluster_sent (s : State) (n : Nat) (c : Cluster) : (s.setCluster n c).sent = s.sent := rfl
@[simp] theorem State.setCluster_remote (s : State) (n : Nat) (c : Cluster) : (s.setCluster n c).remote = s.remote := rfl
@[simp] theorem State.setCluster_performed (s : State) (n : Nat) (c : Cluster) : (s.setCluster n c).performed = s.performed := rfl
@[simp] theorem State.setCluster_stalled (s : State) (n : Nat) (c : Cluster) : (s.setCluster n c).stalled = s.stalled := rfl
@[simp] theorem State.setCluster_fetched (s : State) (n : Nat) (c : Cluster) : (s.setCluster n c).fetched = s.fetched := rfl
@[simp] theorem State.setCluster_waiting (s : State) (n : Nat) (c : Cluster) : (s.setCluster n c).waiting = s.waiting := rfl
@[simp] theorem State.setCluster_asked (s : State) (n : Nat) (c : Cluster) : (s.setCluster n c).asked = s.asked := rfl
@[simp] theorem State.setCluster_mirrors (s : State) (n : Nat) (c : Cluster) : (s.setCluster n c).mirrors = s.mirrors := rfl
@[simp] theorem State.setCluster_away (s : State) (n : Nat) (c : Cluster) : (s.setCluster n c).away = s.away := rfl
@[simp] theorem State.setCluster_nextId (s : State) (n : Nat) (c : Cluster) : (s.setCluster n c).nextId = s.nextId := rfl
@[simp] theorem State.setCluster_copies (s : State) (n : Nat) (c : Cluster) : (s.setCluster n c).copies = s.copies := rfl
@[simp] theorem State.setCluster_guests (s : State) (n : Nat) (c : Cluster) : (s.setCluster n c).guests = s.guests := rfl
@[simp] theorem State.setCluster_quant (s : State) (n : Nat) (c : Cluster) : (s.setCluster n c).quant = s.quant := rfl
@[simp] theorem State.setCluster_links (s : State) (n : Nat) (c : Cluster) : (s.setCluster n c).links = s.links := rfl
@[simp] theorem State.setCluster_started (s : State) (n : Nat) (c : Cluster) : (s.setCluster n c).started = s.started := rfl
@[simp] theorem State.setCluster_finished (s : State) (n : Nat) (c : Cluster) : (s.setCluster n c).finished = s.finished := rfl
@[simp] theorem State.setCluster_graphs (s : State) (n : Nat) (c : Cluster) : (s.setCluster n c).graphs = s.graphs := rfl
@[simp] theorem State.setCluster_launches (s : State) (n : Nat) (c : Cluster) : (s.setCluster n c).launches = s.launches := rfl
@[simp] theorem State.setCluster_gangs (s : State) (n : Nat) (c : Cluster) : (s.setCluster n c).gangs = s.gangs := rfl
@[simp] theorem State.setCluster_slices (s : State) (n : Nat) (c : Cluster) : (s.setCluster n c).slices = s.slices := rfl
@[simp] theorem State.setCluster_turns (s : State) (n : Nat) (c : Cluster) : (s.setCluster n c).turns = s.turns := rfl
@[simp] theorem State.setCluster_sliceLen (s : State) (n : Nat) (c : Cluster) : (s.setCluster n c).sliceLen = s.sliceLen := rfl
@[simp] theorem State.setCluster_dieCtr (s : State) (n : Nat) (c : Cluster) : (s.setCluster n c).dieCtr = s.dieCtr := rfl
@[simp] theorem State.setCluster_portCtr (s : State) (n : Nat) (c : Cluster) : (s.setCluster n c).portCtr = s.portCtr := rfl
@[simp] theorem State.setCluster_replays (s : State) (n : Nat) (c : Cluster) : (s.setCluster n c).replays = s.replays := rfl
@[simp] theorem State.setCluster_downPorts (s : State) (n : Nat) (c : Cluster) : (s.setCluster n c).downPorts = s.downPorts := rfl
@[simp] theorem State.setCluster_step (s : State) (n : Nat) (c : Cluster) : (s.setCluster n c).step = s.step := rfl
@[simp] theorem State.setCluster_outOf (s : State) (n : Nat) (c : Cluster) : (s.setCluster n c).outOf = s.outOf := rfl
@[simp] theorem State.setCluster_half (s : State) (n : Nat) (c : Cluster) : (s.setCluster n c).half = s.half := rfl
@[simp] theorem State.setCluster_power (s : State) (n : Nat) (c : Cluster) : (s.setCluster n c).power = s.power := rfl
@[simp] theorem State.setCluster_gingham (s : State) (n : Nat) (c : Cluster) : (s.setCluster n c).gingham = s.gingham := rfl
@[simp] theorem State.setCluster_filhel (s : State) (n : Nat) (c : Cluster) : (s.setCluster n c).filhel = s.filhel := rfl
@[simp] theorem State.setCluster_dt (s : State) (n : Nat) (c : Cluster) : (s.setCluster n c).dt = s.dt := rfl
@[simp] theorem State.setCluster_dtSlew (s : State) (n : Nat) (c : Cluster) : (s.setCluster n c).dtSlew = s.dtSlew := rfl
@[simp] theorem State.setCluster_chip (s : State) (n : Nat) (c : Cluster) : (s.setCluster n c).chip = s.chip := rfl
@[simp] theorem State.setCluster_joined (s : State) (n : Nat) (c : Cluster) : (s.setCluster n c).joined = s.joined := rfl
@[simp] theorem State.setCluster_everCtx (s : State) (n : Nat) (c : Cluster) : (s.setCluster n c).everCtx = s.everCtx := rfl
@[simp] theorem State.setCluster_routes (s : State) (n : Nat) (c : Cluster) : (s.setCluster n c).routes = s.routes := rfl
@[simp] theorem State.setCluster_routeBytes (s : State) (n : Nat) (c : Cluster) : (s.setCluster n c).routeBytes = s.routeBytes := rfl
@[simp] theorem State.setCluster_bootBad (s : State) (n : Nat) (c : Cluster) : (s.setCluster n c).bootBad = s.bootBad := rfl
@[simp] theorem State.setCluster_powered (s : State) (n : Nat) (c : Cluster) : (s.setCluster n c).powered = s.powered := rfl
@[simp] theorem State.setCluster_resets (s : State) (n : Nat) (c : Cluster) : (s.setCluster n c).resets = s.resets := rfl
@[simp] theorem State.setCluster_firmware (s : State) (n : Nat) (c : Cluster) : (s.setCluster n c).firmware = s.firmware := rfl
@[simp] theorem State.setCluster_storedFw (s : State) (n : Nat) (c : Cluster) : (s.setCluster n c).storedFw = s.storedFw := rfl
@[simp] theorem State.setCluster_rollback (s : State) (n : Nat) (c : Cluster) : (s.setCluster n c).rollback = s.rollback := rfl
@[simp] theorem State.setCluster_hostRead (s : State) (n : Nat) (c : Cluster) : (s.setCluster n c).hostRead = s.hostRead := rfl
@[simp] theorem State.setCluster_outbox (s : State) (n : Nat) (c : Cluster) : (s.setCluster n c).outbox = s.outbox := rfl
@[simp] theorem State.setCluster_agenda (s : State) (n : Nat) (c : Cluster) : (s.setCluster n c).agenda = s.agenda := rfl
@[simp] theorem State.setCluster_curCore (s : State) (n : Nat) (c : Cluster) : (s.setCluster n c).curCore = s.curCore := rfl
@[simp] theorem State.setCluster_curSlot (s : State) (n : Nat) (c : Cluster) : (s.setCluster n c).curSlot = s.curSlot := rfl
@[simp] theorem State.setCluster_homeOut (s : State) (n : Nat) (c : Cluster) : (s.setCluster n c).homeOut = s.homeOut := rfl
@[simp] theorem State.setCluster_homeDone (s : State) (n : Nat) (c : Cluster) : (s.setCluster n c).homeDone = s.homeDone := rfl
@[simp] theorem State.setCluster_dirty (s : State) (n : Nat) (c : Cluster) : (s.setCluster n c).dirty = s.dirty := rfl
@[simp] theorem State.setCluster_hops (s : State) (n : Nat) (c : Cluster) : (s.setCluster n c).hops = s.hops := rfl
@[simp] theorem State.setCluster_router (s : State) (n : Nat) (c : Cluster) : (s.setCluster n c).router = s.router := rfl
@[simp] theorem State.setCluster_stuck (s : State) (n : Nat) (c : Cluster) : (s.setCluster n c).stuck = s.stuck := rfl
@[simp] theorem State.setCluster_notes (s : State) (n : Nat) (c : Cluster) : (s.setCluster n c).notes = s.notes := rfl
@[simp] theorem State.setCluster_noted (s : State) (n : Nat) (c : Cluster) : (s.setCluster n c).noted = s.noted := rfl
@[simp] theorem State.setCluster_tilesOut (s : State) (n : Nat) (c : Cluster) : (s.setCluster n c).tilesOut = s.tilesOut := rfl
@[simp] theorem State.setCluster_tilesIn (s : State) (n : Nat) (c : Cluster) : (s.setCluster n c).tilesIn = s.tilesIn := rfl
@[simp] theorem State.setCluster_pullsOut (s : State) (n : Nat) (c : Cluster) : (s.setCluster n c).pullsOut = s.pullsOut := rfl
@[simp] theorem State.setCluster_healing (s : State) (n : Nat) (c : Cluster) : (s.setCluster n c).healing = s.healing := rfl
@[simp] theorem State.setCluster_trail (s : State) (n : Nat) (c : Cluster) : (s.setCluster n c).trail = s.trail := rfl
@[simp] theorem State.setCluster_claims (s : State) (n : Nat) (c : Cluster) : (s.setCluster n c).claims = s.claims := rfl
@[simp] theorem State.setCluster_flaws (s : State) (n : Nat) (c : Cluster) : (s.setCluster n c).flaws = s.flaws := rfl
@[simp] theorem State.setCluster_corrected (s : State) (n : Nat) (c : Cluster) : (s.setCluster n c).corrected = s.corrected := rfl
@[simp] theorem State.setCluster_dtRem (s : State) (n : Nat) (c : Cluster) : (s.setCluster n c).dtRem = s.dtRem := rfl
@[simp] theorem State.setCluster_lastCore (s : State) (n : Nat) (c : Cluster) : (s.setCluster n c).lastCore = s.lastCore := rfl
@[simp] theorem State.setCluster_ticks (s : State) (n : Nat) (c : Cluster) : (s.setCluster n c).ticks = s.ticks := rfl
@[simp] theorem State.setCluster_born (s : State) (n : Nat) (c : Cluster) : (s.setCluster n c).born = s.born := rfl

@[simp] theorem State.setSlot_mem (s : State) (g k : Nat) (x : Slot) : (s.setSlot g k x).mem = s.mem := rfl
@[simp] theorem State.setSlot_clusters (s : State) (g k : Nat) (x : Slot) : (s.setSlot g k x).clusters = s.clusters := rfl
@[simp] theorem State.setSlot_leases (s : State) (g k : Nat) (x : Slot) : (s.setSlot g k x).leases = s.leases := rfl
@[simp] theorem State.setSlot_contexts (s : State) (g k : Nat) (x : Slot) : (s.setSlot g k x).contexts = s.contexts := rfl
@[simp] theorem State.setSlot_entries (s : State) (g k : Nat) (x : Slot) : (s.setSlot g k x).entries = s.entries := rfl
@[simp] theorem State.setSlot_counted (s : State) (g k : Nat) (x : Slot) : (s.setSlot g k x).counted = s.counted := rfl
@[simp] theorem State.setSlot_migrations (s : State) (g k : Nat) (x : Slot) : (s.setSlot g k x).migrations = s.migrations := rfl
@[simp] theorem State.setSlot_cached (s : State) (g k : Nat) (x : Slot) : (s.setSlot g k x).cached = s.cached := rfl
@[simp] theorem State.setSlot_paths (s : State) (g k : Nat) (x : Slot) : (s.setSlot g k x).paths = s.paths := rfl
@[simp] theorem State.setSlot_pins (s : State) (g k : Nat) (x : Slot) : (s.setSlot g k x).pins = s.pins := rfl
@[simp] theorem State.setSlot_sent (s : State) (g k : Nat) (x : Slot) : (s.setSlot g k x).sent = s.sent := rfl
@[simp] theorem State.setSlot_remote (s : State) (g k : Nat) (x : Slot) : (s.setSlot g k x).remote = s.remote := rfl
@[simp] theorem State.setSlot_performed (s : State) (g k : Nat) (x : Slot) : (s.setSlot g k x).performed = s.performed := rfl
@[simp] theorem State.setSlot_stalled (s : State) (g k : Nat) (x : Slot) : (s.setSlot g k x).stalled = s.stalled := rfl
@[simp] theorem State.setSlot_fetched (s : State) (g k : Nat) (x : Slot) : (s.setSlot g k x).fetched = s.fetched := rfl
@[simp] theorem State.setSlot_waiting (s : State) (g k : Nat) (x : Slot) : (s.setSlot g k x).waiting = s.waiting := rfl
@[simp] theorem State.setSlot_asked (s : State) (g k : Nat) (x : Slot) : (s.setSlot g k x).asked = s.asked := rfl
@[simp] theorem State.setSlot_mirrors (s : State) (g k : Nat) (x : Slot) : (s.setSlot g k x).mirrors = s.mirrors := rfl
@[simp] theorem State.setSlot_away (s : State) (g k : Nat) (x : Slot) : (s.setSlot g k x).away = s.away := rfl
@[simp] theorem State.setSlot_nextId (s : State) (g k : Nat) (x : Slot) : (s.setSlot g k x).nextId = s.nextId := rfl
@[simp] theorem State.setSlot_copies (s : State) (g k : Nat) (x : Slot) : (s.setSlot g k x).copies = s.copies := rfl
@[simp] theorem State.setSlot_guests (s : State) (g k : Nat) (x : Slot) : (s.setSlot g k x).guests = s.guests := rfl
@[simp] theorem State.setSlot_quant (s : State) (g k : Nat) (x : Slot) : (s.setSlot g k x).quant = s.quant := rfl
@[simp] theorem State.setSlot_links (s : State) (g k : Nat) (x : Slot) : (s.setSlot g k x).links = s.links := rfl
@[simp] theorem State.setSlot_started (s : State) (g k : Nat) (x : Slot) : (s.setSlot g k x).started = s.started := rfl
@[simp] theorem State.setSlot_finished (s : State) (g k : Nat) (x : Slot) : (s.setSlot g k x).finished = s.finished := rfl
@[simp] theorem State.setSlot_graphs (s : State) (g k : Nat) (x : Slot) : (s.setSlot g k x).graphs = s.graphs := rfl
@[simp] theorem State.setSlot_launches (s : State) (g k : Nat) (x : Slot) : (s.setSlot g k x).launches = s.launches := rfl
@[simp] theorem State.setSlot_gangs (s : State) (g k : Nat) (x : Slot) : (s.setSlot g k x).gangs = s.gangs := rfl
@[simp] theorem State.setSlot_slices (s : State) (g k : Nat) (x : Slot) : (s.setSlot g k x).slices = s.slices := rfl
@[simp] theorem State.setSlot_turns (s : State) (g k : Nat) (x : Slot) : (s.setSlot g k x).turns = s.turns := rfl
@[simp] theorem State.setSlot_sliceLen (s : State) (g k : Nat) (x : Slot) : (s.setSlot g k x).sliceLen = s.sliceLen := rfl
@[simp] theorem State.setSlot_dieCtr (s : State) (g k : Nat) (x : Slot) : (s.setSlot g k x).dieCtr = s.dieCtr := rfl
@[simp] theorem State.setSlot_portCtr (s : State) (g k : Nat) (x : Slot) : (s.setSlot g k x).portCtr = s.portCtr := rfl
@[simp] theorem State.setSlot_replays (s : State) (g k : Nat) (x : Slot) : (s.setSlot g k x).replays = s.replays := rfl
@[simp] theorem State.setSlot_downPorts (s : State) (g k : Nat) (x : Slot) : (s.setSlot g k x).downPorts = s.downPorts := rfl
@[simp] theorem State.setSlot_step (s : State) (g k : Nat) (x : Slot) : (s.setSlot g k x).step = s.step := rfl
@[simp] theorem State.setSlot_outOf (s : State) (g k : Nat) (x : Slot) : (s.setSlot g k x).outOf = s.outOf := rfl
@[simp] theorem State.setSlot_half (s : State) (g k : Nat) (x : Slot) : (s.setSlot g k x).half = s.half := rfl
@[simp] theorem State.setSlot_power (s : State) (g k : Nat) (x : Slot) : (s.setSlot g k x).power = s.power := rfl
@[simp] theorem State.setSlot_gingham (s : State) (g k : Nat) (x : Slot) : (s.setSlot g k x).gingham = s.gingham := rfl
@[simp] theorem State.setSlot_filhel (s : State) (g k : Nat) (x : Slot) : (s.setSlot g k x).filhel = s.filhel := rfl
@[simp] theorem State.setSlot_dt (s : State) (g k : Nat) (x : Slot) : (s.setSlot g k x).dt = s.dt := rfl
@[simp] theorem State.setSlot_dtSlew (s : State) (g k : Nat) (x : Slot) : (s.setSlot g k x).dtSlew = s.dtSlew := rfl
@[simp] theorem State.setSlot_chip (s : State) (g k : Nat) (x : Slot) : (s.setSlot g k x).chip = s.chip := rfl
@[simp] theorem State.setSlot_joined (s : State) (g k : Nat) (x : Slot) : (s.setSlot g k x).joined = s.joined := rfl
@[simp] theorem State.setSlot_everCtx (s : State) (g k : Nat) (x : Slot) : (s.setSlot g k x).everCtx = s.everCtx := rfl
@[simp] theorem State.setSlot_routes (s : State) (g k : Nat) (x : Slot) : (s.setSlot g k x).routes = s.routes := rfl
@[simp] theorem State.setSlot_routeBytes (s : State) (g k : Nat) (x : Slot) : (s.setSlot g k x).routeBytes = s.routeBytes := rfl
@[simp] theorem State.setSlot_bootBad (s : State) (g k : Nat) (x : Slot) : (s.setSlot g k x).bootBad = s.bootBad := rfl
@[simp] theorem State.setSlot_powered (s : State) (g k : Nat) (x : Slot) : (s.setSlot g k x).powered = s.powered := rfl
@[simp] theorem State.setSlot_resets (s : State) (g k : Nat) (x : Slot) : (s.setSlot g k x).resets = s.resets := rfl
@[simp] theorem State.setSlot_firmware (s : State) (g k : Nat) (x : Slot) : (s.setSlot g k x).firmware = s.firmware := rfl
@[simp] theorem State.setSlot_storedFw (s : State) (g k : Nat) (x : Slot) : (s.setSlot g k x).storedFw = s.storedFw := rfl
@[simp] theorem State.setSlot_rollback (s : State) (g k : Nat) (x : Slot) : (s.setSlot g k x).rollback = s.rollback := rfl
@[simp] theorem State.setSlot_hostRead (s : State) (g k : Nat) (x : Slot) : (s.setSlot g k x).hostRead = s.hostRead := rfl
@[simp] theorem State.setSlot_outbox (s : State) (g k : Nat) (x : Slot) : (s.setSlot g k x).outbox = s.outbox := rfl
@[simp] theorem State.setSlot_agenda (s : State) (g k : Nat) (x : Slot) : (s.setSlot g k x).agenda = s.agenda := rfl
@[simp] theorem State.setSlot_curCore (s : State) (g k : Nat) (x : Slot) : (s.setSlot g k x).curCore = s.curCore := rfl
@[simp] theorem State.setSlot_curSlot (s : State) (g k : Nat) (x : Slot) : (s.setSlot g k x).curSlot = s.curSlot := rfl
@[simp] theorem State.setSlot_homeOut (s : State) (g k : Nat) (x : Slot) : (s.setSlot g k x).homeOut = s.homeOut := rfl
@[simp] theorem State.setSlot_homeDone (s : State) (g k : Nat) (x : Slot) : (s.setSlot g k x).homeDone = s.homeDone := rfl
@[simp] theorem State.setSlot_dirty (s : State) (g k : Nat) (x : Slot) : (s.setSlot g k x).dirty = s.dirty := rfl
@[simp] theorem State.setSlot_hops (s : State) (g k : Nat) (x : Slot) : (s.setSlot g k x).hops = s.hops := rfl
@[simp] theorem State.setSlot_router (s : State) (g k : Nat) (x : Slot) : (s.setSlot g k x).router = s.router := rfl
@[simp] theorem State.setSlot_stuck (s : State) (g k : Nat) (x : Slot) : (s.setSlot g k x).stuck = s.stuck := rfl
@[simp] theorem State.setSlot_notes (s : State) (g k : Nat) (x : Slot) : (s.setSlot g k x).notes = s.notes := rfl
@[simp] theorem State.setSlot_noted (s : State) (g k : Nat) (x : Slot) : (s.setSlot g k x).noted = s.noted := rfl
@[simp] theorem State.setSlot_tilesOut (s : State) (g k : Nat) (x : Slot) : (s.setSlot g k x).tilesOut = s.tilesOut := rfl
@[simp] theorem State.setSlot_tilesIn (s : State) (g k : Nat) (x : Slot) : (s.setSlot g k x).tilesIn = s.tilesIn := rfl
@[simp] theorem State.setSlot_pullsOut (s : State) (g k : Nat) (x : Slot) : (s.setSlot g k x).pullsOut = s.pullsOut := rfl
@[simp] theorem State.setSlot_healing (s : State) (g k : Nat) (x : Slot) : (s.setSlot g k x).healing = s.healing := rfl
@[simp] theorem State.setSlot_trail (s : State) (g k : Nat) (x : Slot) : (s.setSlot g k x).trail = s.trail := rfl
@[simp] theorem State.setSlot_claims (s : State) (g k : Nat) (x : Slot) : (s.setSlot g k x).claims = s.claims := rfl
@[simp] theorem State.setSlot_flaws (s : State) (g k : Nat) (x : Slot) : (s.setSlot g k x).flaws = s.flaws := rfl
@[simp] theorem State.setSlot_corrected (s : State) (g k : Nat) (x : Slot) : (s.setSlot g k x).corrected = s.corrected := rfl
@[simp] theorem State.setSlot_dtRem (s : State) (g k : Nat) (x : Slot) : (s.setSlot g k x).dtRem = s.dtRem := rfl
@[simp] theorem State.setSlot_lastCore (s : State) (g k : Nat) (x : Slot) : (s.setSlot g k x).lastCore = s.lastCore := rfl
@[simp] theorem State.setSlot_ticks (s : State) (g k : Nat) (x : Slot) : (s.setSlot g k x).ticks = s.ticks := rfl
@[simp] theorem State.setSlot_born (s : State) (g k : Nat) (x : Slot) : (s.setSlot g k x).born = s.born := rfl

@[simp] theorem State.setCur_mem (s : State) (x : Slot) : (s.setCur x).mem = s.mem := rfl
@[simp] theorem State.setCur_clusters (s : State) (x : Slot) : (s.setCur x).clusters = s.clusters := rfl
@[simp] theorem State.setCur_leases (s : State) (x : Slot) : (s.setCur x).leases = s.leases := rfl
@[simp] theorem State.setCur_contexts (s : State) (x : Slot) : (s.setCur x).contexts = s.contexts := rfl
@[simp] theorem State.setCur_entries (s : State) (x : Slot) : (s.setCur x).entries = s.entries := rfl
@[simp] theorem State.setCur_counted (s : State) (x : Slot) : (s.setCur x).counted = s.counted := rfl
@[simp] theorem State.setCur_migrations (s : State) (x : Slot) : (s.setCur x).migrations = s.migrations := rfl
@[simp] theorem State.setCur_cached (s : State) (x : Slot) : (s.setCur x).cached = s.cached := rfl
@[simp] theorem State.setCur_paths (s : State) (x : Slot) : (s.setCur x).paths = s.paths := rfl
@[simp] theorem State.setCur_pins (s : State) (x : Slot) : (s.setCur x).pins = s.pins := rfl
@[simp] theorem State.setCur_sent (s : State) (x : Slot) : (s.setCur x).sent = s.sent := rfl
@[simp] theorem State.setCur_remote (s : State) (x : Slot) : (s.setCur x).remote = s.remote := rfl
@[simp] theorem State.setCur_performed (s : State) (x : Slot) : (s.setCur x).performed = s.performed := rfl
@[simp] theorem State.setCur_stalled (s : State) (x : Slot) : (s.setCur x).stalled = s.stalled := rfl
@[simp] theorem State.setCur_fetched (s : State) (x : Slot) : (s.setCur x).fetched = s.fetched := rfl
@[simp] theorem State.setCur_waiting (s : State) (x : Slot) : (s.setCur x).waiting = s.waiting := rfl
@[simp] theorem State.setCur_asked (s : State) (x : Slot) : (s.setCur x).asked = s.asked := rfl
@[simp] theorem State.setCur_mirrors (s : State) (x : Slot) : (s.setCur x).mirrors = s.mirrors := rfl
@[simp] theorem State.setCur_away (s : State) (x : Slot) : (s.setCur x).away = s.away := rfl
@[simp] theorem State.setCur_nextId (s : State) (x : Slot) : (s.setCur x).nextId = s.nextId := rfl
@[simp] theorem State.setCur_copies (s : State) (x : Slot) : (s.setCur x).copies = s.copies := rfl
@[simp] theorem State.setCur_guests (s : State) (x : Slot) : (s.setCur x).guests = s.guests := rfl
@[simp] theorem State.setCur_quant (s : State) (x : Slot) : (s.setCur x).quant = s.quant := rfl
@[simp] theorem State.setCur_links (s : State) (x : Slot) : (s.setCur x).links = s.links := rfl
@[simp] theorem State.setCur_started (s : State) (x : Slot) : (s.setCur x).started = s.started := rfl
@[simp] theorem State.setCur_finished (s : State) (x : Slot) : (s.setCur x).finished = s.finished := rfl
@[simp] theorem State.setCur_graphs (s : State) (x : Slot) : (s.setCur x).graphs = s.graphs := rfl
@[simp] theorem State.setCur_launches (s : State) (x : Slot) : (s.setCur x).launches = s.launches := rfl
@[simp] theorem State.setCur_gangs (s : State) (x : Slot) : (s.setCur x).gangs = s.gangs := rfl
@[simp] theorem State.setCur_slices (s : State) (x : Slot) : (s.setCur x).slices = s.slices := rfl
@[simp] theorem State.setCur_turns (s : State) (x : Slot) : (s.setCur x).turns = s.turns := rfl
@[simp] theorem State.setCur_sliceLen (s : State) (x : Slot) : (s.setCur x).sliceLen = s.sliceLen := rfl
@[simp] theorem State.setCur_dieCtr (s : State) (x : Slot) : (s.setCur x).dieCtr = s.dieCtr := rfl
@[simp] theorem State.setCur_portCtr (s : State) (x : Slot) : (s.setCur x).portCtr = s.portCtr := rfl
@[simp] theorem State.setCur_replays (s : State) (x : Slot) : (s.setCur x).replays = s.replays := rfl
@[simp] theorem State.setCur_downPorts (s : State) (x : Slot) : (s.setCur x).downPorts = s.downPorts := rfl
@[simp] theorem State.setCur_step (s : State) (x : Slot) : (s.setCur x).step = s.step := rfl
@[simp] theorem State.setCur_outOf (s : State) (x : Slot) : (s.setCur x).outOf = s.outOf := rfl
@[simp] theorem State.setCur_half (s : State) (x : Slot) : (s.setCur x).half = s.half := rfl
@[simp] theorem State.setCur_power (s : State) (x : Slot) : (s.setCur x).power = s.power := rfl
@[simp] theorem State.setCur_gingham (s : State) (x : Slot) : (s.setCur x).gingham = s.gingham := rfl
@[simp] theorem State.setCur_filhel (s : State) (x : Slot) : (s.setCur x).filhel = s.filhel := rfl
@[simp] theorem State.setCur_dt (s : State) (x : Slot) : (s.setCur x).dt = s.dt := rfl
@[simp] theorem State.setCur_dtSlew (s : State) (x : Slot) : (s.setCur x).dtSlew = s.dtSlew := rfl
@[simp] theorem State.setCur_chip (s : State) (x : Slot) : (s.setCur x).chip = s.chip := rfl
@[simp] theorem State.setCur_joined (s : State) (x : Slot) : (s.setCur x).joined = s.joined := rfl
@[simp] theorem State.setCur_everCtx (s : State) (x : Slot) : (s.setCur x).everCtx = s.everCtx := rfl
@[simp] theorem State.setCur_routes (s : State) (x : Slot) : (s.setCur x).routes = s.routes := rfl
@[simp] theorem State.setCur_routeBytes (s : State) (x : Slot) : (s.setCur x).routeBytes = s.routeBytes := rfl
@[simp] theorem State.setCur_bootBad (s : State) (x : Slot) : (s.setCur x).bootBad = s.bootBad := rfl
@[simp] theorem State.setCur_powered (s : State) (x : Slot) : (s.setCur x).powered = s.powered := rfl
@[simp] theorem State.setCur_resets (s : State) (x : Slot) : (s.setCur x).resets = s.resets := rfl
@[simp] theorem State.setCur_firmware (s : State) (x : Slot) : (s.setCur x).firmware = s.firmware := rfl
@[simp] theorem State.setCur_storedFw (s : State) (x : Slot) : (s.setCur x).storedFw = s.storedFw := rfl
@[simp] theorem State.setCur_rollback (s : State) (x : Slot) : (s.setCur x).rollback = s.rollback := rfl
@[simp] theorem State.setCur_hostRead (s : State) (x : Slot) : (s.setCur x).hostRead = s.hostRead := rfl
@[simp] theorem State.setCur_outbox (s : State) (x : Slot) : (s.setCur x).outbox = s.outbox := rfl
@[simp] theorem State.setCur_agenda (s : State) (x : Slot) : (s.setCur x).agenda = s.agenda := rfl
@[simp] theorem State.setCur_curCore (s : State) (x : Slot) : (s.setCur x).curCore = s.curCore := rfl
@[simp] theorem State.setCur_curSlot (s : State) (x : Slot) : (s.setCur x).curSlot = s.curSlot := rfl
@[simp] theorem State.setCur_homeOut (s : State) (x : Slot) : (s.setCur x).homeOut = s.homeOut := rfl
@[simp] theorem State.setCur_homeDone (s : State) (x : Slot) : (s.setCur x).homeDone = s.homeDone := rfl
@[simp] theorem State.setCur_dirty (s : State) (x : Slot) : (s.setCur x).dirty = s.dirty := rfl
@[simp] theorem State.setCur_hops (s : State) (x : Slot) : (s.setCur x).hops = s.hops := rfl
@[simp] theorem State.setCur_router (s : State) (x : Slot) : (s.setCur x).router = s.router := rfl
@[simp] theorem State.setCur_stuck (s : State) (x : Slot) : (s.setCur x).stuck = s.stuck := rfl
@[simp] theorem State.setCur_notes (s : State) (x : Slot) : (s.setCur x).notes = s.notes := rfl
@[simp] theorem State.setCur_noted (s : State) (x : Slot) : (s.setCur x).noted = s.noted := rfl
@[simp] theorem State.setCur_tilesOut (s : State) (x : Slot) : (s.setCur x).tilesOut = s.tilesOut := rfl
@[simp] theorem State.setCur_tilesIn (s : State) (x : Slot) : (s.setCur x).tilesIn = s.tilesIn := rfl
@[simp] theorem State.setCur_pullsOut (s : State) (x : Slot) : (s.setCur x).pullsOut = s.pullsOut := rfl
@[simp] theorem State.setCur_healing (s : State) (x : Slot) : (s.setCur x).healing = s.healing := rfl
@[simp] theorem State.setCur_trail (s : State) (x : Slot) : (s.setCur x).trail = s.trail := rfl
@[simp] theorem State.setCur_claims (s : State) (x : Slot) : (s.setCur x).claims = s.claims := rfl
@[simp] theorem State.setCur_flaws (s : State) (x : Slot) : (s.setCur x).flaws = s.flaws := rfl
@[simp] theorem State.setCur_corrected (s : State) (x : Slot) : (s.setCur x).corrected = s.corrected := rfl
@[simp] theorem State.setCur_dtRem (s : State) (x : Slot) : (s.setCur x).dtRem = s.dtRem := rfl
@[simp] theorem State.setCur_lastCore (s : State) (x : Slot) : (s.setCur x).lastCore = s.lastCore := rfl
@[simp] theorem State.setCur_ticks (s : State) (x : Slot) : (s.setCur x).ticks = s.ticks := rfl
@[simp] theorem State.setCur_born (s : State) (x : Slot) : (s.setCur x).born = s.born := rfl

@[simp] theorem State.writeBytes_cores (s : State) (k : Nat) (bs : List Byte) : (s.writeBytes k bs).cores = s.cores := rfl
@[simp] theorem State.writeBytes_clusters (s : State) (k : Nat) (bs : List Byte) : (s.writeBytes k bs).clusters = s.clusters := rfl
@[simp] theorem State.writeBytes_leases (s : State) (k : Nat) (bs : List Byte) : (s.writeBytes k bs).leases = s.leases := rfl
@[simp] theorem State.writeBytes_contexts (s : State) (k : Nat) (bs : List Byte) : (s.writeBytes k bs).contexts = s.contexts := rfl
@[simp] theorem State.writeBytes_entries (s : State) (k : Nat) (bs : List Byte) : (s.writeBytes k bs).entries = s.entries := rfl
@[simp] theorem State.writeBytes_counted (s : State) (k : Nat) (bs : List Byte) : (s.writeBytes k bs).counted = s.counted := rfl
@[simp] theorem State.writeBytes_migrations (s : State) (k : Nat) (bs : List Byte) : (s.writeBytes k bs).migrations = s.migrations := rfl
@[simp] theorem State.writeBytes_cached (s : State) (k : Nat) (bs : List Byte) : (s.writeBytes k bs).cached = s.cached := rfl
@[simp] theorem State.writeBytes_paths (s : State) (k : Nat) (bs : List Byte) : (s.writeBytes k bs).paths = s.paths := rfl
@[simp] theorem State.writeBytes_pins (s : State) (k : Nat) (bs : List Byte) : (s.writeBytes k bs).pins = s.pins := rfl
@[simp] theorem State.writeBytes_sent (s : State) (k : Nat) (bs : List Byte) : (s.writeBytes k bs).sent = s.sent := rfl
@[simp] theorem State.writeBytes_remote (s : State) (k : Nat) (bs : List Byte) : (s.writeBytes k bs).remote = s.remote := rfl
@[simp] theorem State.writeBytes_performed (s : State) (k : Nat) (bs : List Byte) : (s.writeBytes k bs).performed = s.performed := rfl
@[simp] theorem State.writeBytes_stalled (s : State) (k : Nat) (bs : List Byte) : (s.writeBytes k bs).stalled = s.stalled := rfl
@[simp] theorem State.writeBytes_fetched (s : State) (k : Nat) (bs : List Byte) : (s.writeBytes k bs).fetched = s.fetched := rfl
@[simp] theorem State.writeBytes_waiting (s : State) (k : Nat) (bs : List Byte) : (s.writeBytes k bs).waiting = s.waiting := rfl
@[simp] theorem State.writeBytes_asked (s : State) (k : Nat) (bs : List Byte) : (s.writeBytes k bs).asked = s.asked := rfl
@[simp] theorem State.writeBytes_mirrors (s : State) (k : Nat) (bs : List Byte) : (s.writeBytes k bs).mirrors = s.mirrors := rfl
@[simp] theorem State.writeBytes_away (s : State) (k : Nat) (bs : List Byte) : (s.writeBytes k bs).away = s.away := rfl
@[simp] theorem State.writeBytes_nextId (s : State) (k : Nat) (bs : List Byte) : (s.writeBytes k bs).nextId = s.nextId := rfl
@[simp] theorem State.writeBytes_copies (s : State) (k : Nat) (bs : List Byte) : (s.writeBytes k bs).copies = s.copies := rfl
@[simp] theorem State.writeBytes_guests (s : State) (k : Nat) (bs : List Byte) : (s.writeBytes k bs).guests = s.guests := rfl
@[simp] theorem State.writeBytes_quant (s : State) (k : Nat) (bs : List Byte) : (s.writeBytes k bs).quant = s.quant := rfl
@[simp] theorem State.writeBytes_links (s : State) (k : Nat) (bs : List Byte) : (s.writeBytes k bs).links = s.links := rfl
@[simp] theorem State.writeBytes_started (s : State) (k : Nat) (bs : List Byte) : (s.writeBytes k bs).started = s.started := rfl
@[simp] theorem State.writeBytes_finished (s : State) (k : Nat) (bs : List Byte) : (s.writeBytes k bs).finished = s.finished := rfl
@[simp] theorem State.writeBytes_graphs (s : State) (k : Nat) (bs : List Byte) : (s.writeBytes k bs).graphs = s.graphs := rfl
@[simp] theorem State.writeBytes_launches (s : State) (k : Nat) (bs : List Byte) : (s.writeBytes k bs).launches = s.launches := rfl
@[simp] theorem State.writeBytes_gangs (s : State) (k : Nat) (bs : List Byte) : (s.writeBytes k bs).gangs = s.gangs := rfl
@[simp] theorem State.writeBytes_slices (s : State) (k : Nat) (bs : List Byte) : (s.writeBytes k bs).slices = s.slices := rfl
@[simp] theorem State.writeBytes_turns (s : State) (k : Nat) (bs : List Byte) : (s.writeBytes k bs).turns = s.turns := rfl
@[simp] theorem State.writeBytes_sliceLen (s : State) (k : Nat) (bs : List Byte) : (s.writeBytes k bs).sliceLen = s.sliceLen := rfl
@[simp] theorem State.writeBytes_dieCtr (s : State) (k : Nat) (bs : List Byte) : (s.writeBytes k bs).dieCtr = s.dieCtr := rfl
@[simp] theorem State.writeBytes_portCtr (s : State) (k : Nat) (bs : List Byte) : (s.writeBytes k bs).portCtr = s.portCtr := rfl
@[simp] theorem State.writeBytes_replays (s : State) (k : Nat) (bs : List Byte) : (s.writeBytes k bs).replays = s.replays := rfl
@[simp] theorem State.writeBytes_downPorts (s : State) (k : Nat) (bs : List Byte) : (s.writeBytes k bs).downPorts = s.downPorts := rfl
@[simp] theorem State.writeBytes_step (s : State) (k : Nat) (bs : List Byte) : (s.writeBytes k bs).step = s.step := rfl
@[simp] theorem State.writeBytes_outOf (s : State) (k : Nat) (bs : List Byte) : (s.writeBytes k bs).outOf = s.outOf := rfl
@[simp] theorem State.writeBytes_half (s : State) (k : Nat) (bs : List Byte) : (s.writeBytes k bs).half = s.half := rfl
@[simp] theorem State.writeBytes_power (s : State) (k : Nat) (bs : List Byte) : (s.writeBytes k bs).power = s.power := rfl
@[simp] theorem State.writeBytes_gingham (s : State) (k : Nat) (bs : List Byte) : (s.writeBytes k bs).gingham = s.gingham := rfl
@[simp] theorem State.writeBytes_filhel (s : State) (k : Nat) (bs : List Byte) : (s.writeBytes k bs).filhel = s.filhel := rfl
@[simp] theorem State.writeBytes_dt (s : State) (k : Nat) (bs : List Byte) : (s.writeBytes k bs).dt = s.dt := rfl
@[simp] theorem State.writeBytes_dtSlew (s : State) (k : Nat) (bs : List Byte) : (s.writeBytes k bs).dtSlew = s.dtSlew := rfl
@[simp] theorem State.writeBytes_chip (s : State) (k : Nat) (bs : List Byte) : (s.writeBytes k bs).chip = s.chip := rfl
@[simp] theorem State.writeBytes_joined (s : State) (k : Nat) (bs : List Byte) : (s.writeBytes k bs).joined = s.joined := rfl
@[simp] theorem State.writeBytes_everCtx (s : State) (k : Nat) (bs : List Byte) : (s.writeBytes k bs).everCtx = s.everCtx := rfl
@[simp] theorem State.writeBytes_routes (s : State) (k : Nat) (bs : List Byte) : (s.writeBytes k bs).routes = s.routes := rfl
@[simp] theorem State.writeBytes_routeBytes (s : State) (k : Nat) (bs : List Byte) : (s.writeBytes k bs).routeBytes = s.routeBytes := rfl
@[simp] theorem State.writeBytes_bootBad (s : State) (k : Nat) (bs : List Byte) : (s.writeBytes k bs).bootBad = s.bootBad := rfl
@[simp] theorem State.writeBytes_powered (s : State) (k : Nat) (bs : List Byte) : (s.writeBytes k bs).powered = s.powered := rfl
@[simp] theorem State.writeBytes_resets (s : State) (k : Nat) (bs : List Byte) : (s.writeBytes k bs).resets = s.resets := rfl
@[simp] theorem State.writeBytes_firmware (s : State) (k : Nat) (bs : List Byte) : (s.writeBytes k bs).firmware = s.firmware := rfl
@[simp] theorem State.writeBytes_storedFw (s : State) (k : Nat) (bs : List Byte) : (s.writeBytes k bs).storedFw = s.storedFw := rfl
@[simp] theorem State.writeBytes_rollback (s : State) (k : Nat) (bs : List Byte) : (s.writeBytes k bs).rollback = s.rollback := rfl
@[simp] theorem State.writeBytes_hostRead (s : State) (k : Nat) (bs : List Byte) : (s.writeBytes k bs).hostRead = s.hostRead := rfl
@[simp] theorem State.writeBytes_outbox (s : State) (k : Nat) (bs : List Byte) : (s.writeBytes k bs).outbox = s.outbox := rfl
@[simp] theorem State.writeBytes_agenda (s : State) (k : Nat) (bs : List Byte) : (s.writeBytes k bs).agenda = s.agenda := rfl
@[simp] theorem State.writeBytes_curCore (s : State) (k : Nat) (bs : List Byte) : (s.writeBytes k bs).curCore = s.curCore := rfl
@[simp] theorem State.writeBytes_curSlot (s : State) (k : Nat) (bs : List Byte) : (s.writeBytes k bs).curSlot = s.curSlot := rfl
@[simp] theorem State.writeBytes_homeOut (s : State) (k : Nat) (bs : List Byte) : (s.writeBytes k bs).homeOut = s.homeOut := rfl
@[simp] theorem State.writeBytes_homeDone (s : State) (k : Nat) (bs : List Byte) : (s.writeBytes k bs).homeDone = s.homeDone := rfl
@[simp] theorem State.writeBytes_dirty (s : State) (k : Nat) (bs : List Byte) : (s.writeBytes k bs).dirty = s.dirty := rfl
@[simp] theorem State.writeBytes_hops (s : State) (k : Nat) (bs : List Byte) : (s.writeBytes k bs).hops = s.hops := rfl
@[simp] theorem State.writeBytes_router (s : State) (k : Nat) (bs : List Byte) : (s.writeBytes k bs).router = s.router := rfl
@[simp] theorem State.writeBytes_stuck (s : State) (k : Nat) (bs : List Byte) : (s.writeBytes k bs).stuck = s.stuck := rfl
@[simp] theorem State.writeBytes_notes (s : State) (k : Nat) (bs : List Byte) : (s.writeBytes k bs).notes = s.notes := rfl
@[simp] theorem State.writeBytes_noted (s : State) (k : Nat) (bs : List Byte) : (s.writeBytes k bs).noted = s.noted := rfl
@[simp] theorem State.writeBytes_tilesOut (s : State) (k : Nat) (bs : List Byte) : (s.writeBytes k bs).tilesOut = s.tilesOut := rfl
@[simp] theorem State.writeBytes_tilesIn (s : State) (k : Nat) (bs : List Byte) : (s.writeBytes k bs).tilesIn = s.tilesIn := rfl
@[simp] theorem State.writeBytes_pullsOut (s : State) (k : Nat) (bs : List Byte) : (s.writeBytes k bs).pullsOut = s.pullsOut := rfl
@[simp] theorem State.writeBytes_healing (s : State) (k : Nat) (bs : List Byte) : (s.writeBytes k bs).healing = s.healing := rfl
@[simp] theorem State.writeBytes_trail (s : State) (k : Nat) (bs : List Byte) : (s.writeBytes k bs).trail = s.trail := rfl
@[simp] theorem State.writeBytes_claims (s : State) (k : Nat) (bs : List Byte) : (s.writeBytes k bs).claims = s.claims := rfl
@[simp] theorem State.writeBytes_flaws (s : State) (k : Nat) (bs : List Byte) : (s.writeBytes k bs).flaws = s.flaws := rfl
@[simp] theorem State.writeBytes_corrected (s : State) (k : Nat) (bs : List Byte) : (s.writeBytes k bs).corrected = s.corrected := rfl
@[simp] theorem State.writeBytes_dtRem (s : State) (k : Nat) (bs : List Byte) : (s.writeBytes k bs).dtRem = s.dtRem := rfl
@[simp] theorem State.writeBytes_lastCore (s : State) (k : Nat) (bs : List Byte) : (s.writeBytes k bs).lastCore = s.lastCore := rfl
@[simp] theorem State.writeBytes_ticks (s : State) (k : Nat) (bs : List Byte) : (s.writeBytes k bs).ticks = s.ticks := rfl
@[simp] theorem State.writeBytes_born (s : State) (k : Nat) (bs : List Byte) : (s.writeBytes k bs).born = s.born := rfl

@[simp] theorem State.setCurCore_mem (s : State) (c : Core) : (s.setCurCore c).mem = s.mem := rfl
@[simp] theorem State.setCurCore_clusters (s : State) (c : Core) : (s.setCurCore c).clusters = s.clusters := rfl
@[simp] theorem State.setCurCore_curCore (s : State) (c : Core) : (s.setCurCore c).curCore = s.curCore := rfl
@[simp] theorem State.setCurCore_curSlot (s : State) (c : Core) : (s.setCurCore c).curSlot = s.curSlot := rfl
@[simp] theorem State.setCurCore_gangs (s : State) (c : Core) : (s.setCurCore c).gangs = s.gangs := rfl
@[simp] theorem State.setCurCore_launches (s : State) (c : Core) : (s.setCurCore c).launches = s.launches := rfl
@[simp] theorem State.setCurCore_contexts (s : State) (c : Core) : (s.setCurCore c).contexts = s.contexts := rfl
@[simp] theorem State.setCurCore_leases (s : State) (c : Core) : (s.setCurCore c).leases = s.leases := rfl
@[simp] theorem State.setCurCore_dt (s : State) (c : Core) : (s.setCurCore c).dt = s.dt := rfl
@[simp] theorem State.setCurCore_chip (s : State) (c : Core) : (s.setCurCore c).chip = s.chip := rfl
@[simp] theorem State.setCurCore_ticks (s : State) (c : Core) : (s.setCurCore c).ticks = s.ticks := rfl
@[simp] theorem State.setCurCore_agenda (s : State) (c : Core) : (s.setCurCore c).agenda = s.agenda := rfl

@[simp] theorem State.setAcc_mem (s : State) (v : Word) : (s.setAcc v).mem = s.mem := rfl
@[simp] theorem State.setAcc_clusters (s : State) (v : Word) : (s.setAcc v).clusters = s.clusters := rfl
@[simp] theorem State.setAcc_curCore (s : State) (v : Word) : (s.setAcc v).curCore = s.curCore := rfl
@[simp] theorem State.setAcc_curSlot (s : State) (v : Word) : (s.setAcc v).curSlot = s.curSlot := rfl
@[simp] theorem State.setAcc_gangs (s : State) (v : Word) : (s.setAcc v).gangs = s.gangs := rfl
@[simp] theorem State.setAcc_launches (s : State) (v : Word) : (s.setAcc v).launches = s.launches := rfl
@[simp] theorem State.setAcc_contexts (s : State) (v : Word) : (s.setAcc v).contexts = s.contexts := rfl
@[simp] theorem State.setAcc_leases (s : State) (v : Word) : (s.setAcc v).leases = s.leases := rfl
@[simp] theorem State.setAcc_dt (s : State) (v : Word) : (s.setAcc v).dt = s.dt := rfl
@[simp] theorem State.setAcc_chip (s : State) (v : Word) : (s.setAcc v).chip = s.chip := rfl
@[simp] theorem State.setAcc_ticks (s : State) (v : Word) : (s.setAcc v).ticks = s.ticks := rfl
@[simp] theorem State.setAcc_agenda (s : State) (v : Word) : (s.setAcc v).agenda = s.agenda := rfl

@[simp] theorem State.setPtr_mem (s : State) (n : Nat) (v : Word) : (s.setPtr n v).mem = s.mem := rfl
@[simp] theorem State.setPtr_clusters (s : State) (n : Nat) (v : Word) : (s.setPtr n v).clusters = s.clusters := rfl
@[simp] theorem State.setPtr_curCore (s : State) (n : Nat) (v : Word) : (s.setPtr n v).curCore = s.curCore := rfl
@[simp] theorem State.setPtr_curSlot (s : State) (n : Nat) (v : Word) : (s.setPtr n v).curSlot = s.curSlot := rfl
@[simp] theorem State.setPtr_gangs (s : State) (n : Nat) (v : Word) : (s.setPtr n v).gangs = s.gangs := rfl
@[simp] theorem State.setPtr_launches (s : State) (n : Nat) (v : Word) : (s.setPtr n v).launches = s.launches := rfl
@[simp] theorem State.setPtr_contexts (s : State) (n : Nat) (v : Word) : (s.setPtr n v).contexts = s.contexts := rfl
@[simp] theorem State.setPtr_leases (s : State) (n : Nat) (v : Word) : (s.setPtr n v).leases = s.leases := rfl
@[simp] theorem State.setPtr_dt (s : State) (n : Nat) (v : Word) : (s.setPtr n v).dt = s.dt := rfl
@[simp] theorem State.setPtr_chip (s : State) (n : Nat) (v : Word) : (s.setPtr n v).chip = s.chip := rfl
@[simp] theorem State.setPtr_ticks (s : State) (n : Nat) (v : Word) : (s.setPtr n v).ticks = s.ticks := rfl
@[simp] theorem State.setPtr_agenda (s : State) (n : Nat) (v : Word) : (s.setPtr n v).agenda = s.agenda := rfl

@[simp] theorem State.setLc_mem (s : State) (v : BitVec 32) : (s.setLc v).mem = s.mem := rfl
@[simp] theorem State.setLc_clusters (s : State) (v : BitVec 32) : (s.setLc v).clusters = s.clusters := rfl
@[simp] theorem State.setLc_curCore (s : State) (v : BitVec 32) : (s.setLc v).curCore = s.curCore := rfl
@[simp] theorem State.setLc_curSlot (s : State) (v : BitVec 32) : (s.setLc v).curSlot = s.curSlot := rfl
@[simp] theorem State.setLc_gangs (s : State) (v : BitVec 32) : (s.setLc v).gangs = s.gangs := rfl
@[simp] theorem State.setLc_launches (s : State) (v : BitVec 32) : (s.setLc v).launches = s.launches := rfl
@[simp] theorem State.setLc_contexts (s : State) (v : BitVec 32) : (s.setLc v).contexts = s.contexts := rfl
@[simp] theorem State.setLc_leases (s : State) (v : BitVec 32) : (s.setLc v).leases = s.leases := rfl
@[simp] theorem State.setLc_dt (s : State) (v : BitVec 32) : (s.setLc v).dt = s.dt := rfl
@[simp] theorem State.setLc_chip (s : State) (v : BitVec 32) : (s.setLc v).chip = s.chip := rfl
@[simp] theorem State.setLc_ticks (s : State) (v : BitVec 32) : (s.setLc v).ticks = s.ticks := rfl
@[simp] theorem State.setLc_agenda (s : State) (v : BitVec 32) : (s.setLc v).agenda = s.agenda := rfl

@[simp] theorem State.setFlags_mem (s : State) (f : BitVec 7) : (s.setFlags f).mem = s.mem := rfl
@[simp] theorem State.setFlags_clusters (s : State) (f : BitVec 7) : (s.setFlags f).clusters = s.clusters := rfl
@[simp] theorem State.setFlags_curCore (s : State) (f : BitVec 7) : (s.setFlags f).curCore = s.curCore := rfl
@[simp] theorem State.setFlags_curSlot (s : State) (f : BitVec 7) : (s.setFlags f).curSlot = s.curSlot := rfl
@[simp] theorem State.setFlags_gangs (s : State) (f : BitVec 7) : (s.setFlags f).gangs = s.gangs := rfl
@[simp] theorem State.setFlags_launches (s : State) (f : BitVec 7) : (s.setFlags f).launches = s.launches := rfl
@[simp] theorem State.setFlags_contexts (s : State) (f : BitVec 7) : (s.setFlags f).contexts = s.contexts := rfl
@[simp] theorem State.setFlags_leases (s : State) (f : BitVec 7) : (s.setFlags f).leases = s.leases := rfl
@[simp] theorem State.setFlags_dt (s : State) (f : BitVec 7) : (s.setFlags f).dt = s.dt := rfl
@[simp] theorem State.setFlags_chip (s : State) (f : BitVec 7) : (s.setFlags f).chip = s.chip := rfl
@[simp] theorem State.setFlags_ticks (s : State) (f : BitVec 7) : (s.setFlags f).ticks = s.ticks := rfl
@[simp] theorem State.setFlags_agenda (s : State) (f : BitVec 7) : (s.setFlags f).agenda = s.agenda := rfl

@[simp] theorem State.setF_mem (s : State) (v : Bool) : (s.setF v).mem = s.mem := rfl
@[simp] theorem State.setF_clusters (s : State) (v : Bool) : (s.setF v).clusters = s.clusters := rfl
@[simp] theorem State.setF_curCore (s : State) (v : Bool) : (s.setF v).curCore = s.curCore := rfl
@[simp] theorem State.setF_curSlot (s : State) (v : Bool) : (s.setF v).curSlot = s.curSlot := rfl
@[simp] theorem State.setF_gangs (s : State) (v : Bool) : (s.setF v).gangs = s.gangs := rfl
@[simp] theorem State.setF_launches (s : State) (v : Bool) : (s.setF v).launches = s.launches := rfl
@[simp] theorem State.setF_contexts (s : State) (v : Bool) : (s.setF v).contexts = s.contexts := rfl
@[simp] theorem State.setF_leases (s : State) (v : Bool) : (s.setF v).leases = s.leases := rfl
@[simp] theorem State.setF_dt (s : State) (v : Bool) : (s.setF v).dt = s.dt := rfl
@[simp] theorem State.setF_chip (s : State) (v : Bool) : (s.setF v).chip = s.chip := rfl
@[simp] theorem State.setF_ticks (s : State) (v : Bool) : (s.setF v).ticks = s.ticks := rfl
@[simp] theorem State.setF_agenda (s : State) (v : Bool) : (s.setF v).agenda = s.agenda := rfl

@[simp] theorem State.setLease_mem (s : State) (u i : Nat) (l : Lease) : (s.setLease u i l).mem = s.mem := rfl
@[simp] theorem State.setLease_cores (s : State) (u i : Nat) (l : Lease) : (s.setLease u i l).cores = s.cores := rfl
@[simp] theorem State.setLease_clusters (s : State) (u i : Nat) (l : Lease) : (s.setLease u i l).clusters = s.clusters := rfl
@[simp] theorem State.setLease_curCore (s : State) (u i : Nat) (l : Lease) : (s.setLease u i l).curCore = s.curCore := rfl
@[simp] theorem State.setLease_curSlot (s : State) (u i : Nat) (l : Lease) : (s.setLease u i l).curSlot = s.curSlot := rfl
@[simp] theorem State.setLease_gangs (s : State) (u i : Nat) (l : Lease) : (s.setLease u i l).gangs = s.gangs := rfl
@[simp] theorem State.setLease_launches (s : State) (u i : Nat) (l : Lease) : (s.setLease u i l).launches = s.launches := rfl
@[simp] theorem State.setLease_contexts (s : State) (u i : Nat) (l : Lease) : (s.setLease u i l).contexts = s.contexts := rfl
@[simp] theorem State.setLease_dt (s : State) (u i : Nat) (l : Lease) : (s.setLease u i l).dt = s.dt := rfl
@[simp] theorem State.setLease_chip (s : State) (u i : Nat) (l : Lease) : (s.setLease u i l).chip = s.chip := rfl
@[simp] theorem State.setLease_ticks (s : State) (u i : Nat) (l : Lease) : (s.setLease u i l).ticks = s.ticks := rfl
@[simp] theorem State.setLease_agenda (s : State) (u i : Nat) (l : Lease) : (s.setLease u i l).agenda = s.agenda := rfl

@[simp] theorem State.setContext_mem (s : State) (c : Nat) (x : Context) : (s.setContext c x).mem = s.mem := rfl
@[simp] theorem State.setContext_cores (s : State) (c : Nat) (x : Context) : (s.setContext c x).cores = s.cores := rfl
@[simp] theorem State.setContext_clusters (s : State) (c : Nat) (x : Context) : (s.setContext c x).clusters = s.clusters := rfl
@[simp] theorem State.setContext_curCore (s : State) (c : Nat) (x : Context) : (s.setContext c x).curCore = s.curCore := rfl
@[simp] theorem State.setContext_curSlot (s : State) (c : Nat) (x : Context) : (s.setContext c x).curSlot = s.curSlot := rfl
@[simp] theorem State.setContext_gangs (s : State) (c : Nat) (x : Context) : (s.setContext c x).gangs = s.gangs := rfl
@[simp] theorem State.setContext_launches (s : State) (c : Nat) (x : Context) : (s.setContext c x).launches = s.launches := rfl
@[simp] theorem State.setContext_leases (s : State) (c : Nat) (x : Context) : (s.setContext c x).leases = s.leases := rfl
@[simp] theorem State.setContext_dt (s : State) (c : Nat) (x : Context) : (s.setContext c x).dt = s.dt := rfl
@[simp] theorem State.setContext_chip (s : State) (c : Nat) (x : Context) : (s.setContext c x).chip = s.chip := rfl
@[simp] theorem State.setContext_ticks (s : State) (c : Nat) (x : Context) : (s.setContext c x).ticks = s.ticks := rfl
@[simp] theorem State.setContext_agenda (s : State) (c : Nat) (x : Context) : (s.setContext c x).agenda = s.agenda := rfl

@[simp] theorem State.setLink_mem (s : State) (l : Nat) (x : Link) : (s.setLink l x).mem = s.mem := rfl
@[simp] theorem State.setLink_cores (s : State) (l : Nat) (x : Link) : (s.setLink l x).cores = s.cores := rfl
@[simp] theorem State.setLink_clusters (s : State) (l : Nat) (x : Link) : (s.setLink l x).clusters = s.clusters := rfl
@[simp] theorem State.setLink_curCore (s : State) (l : Nat) (x : Link) : (s.setLink l x).curCore = s.curCore := rfl
@[simp] theorem State.setLink_curSlot (s : State) (l : Nat) (x : Link) : (s.setLink l x).curSlot = s.curSlot := rfl
@[simp] theorem State.setLink_gangs (s : State) (l : Nat) (x : Link) : (s.setLink l x).gangs = s.gangs := rfl
@[simp] theorem State.setLink_launches (s : State) (l : Nat) (x : Link) : (s.setLink l x).launches = s.launches := rfl
@[simp] theorem State.setLink_contexts (s : State) (l : Nat) (x : Link) : (s.setLink l x).contexts = s.contexts := rfl
@[simp] theorem State.setLink_leases (s : State) (l : Nat) (x : Link) : (s.setLink l x).leases = s.leases := rfl
@[simp] theorem State.setLink_dt (s : State) (l : Nat) (x : Link) : (s.setLink l x).dt = s.dt := rfl
@[simp] theorem State.setLink_chip (s : State) (l : Nat) (x : Link) : (s.setLink l x).chip = s.chip := rfl
@[simp] theorem State.setLink_ticks (s : State) (l : Nat) (x : Link) : (s.setLink l x).ticks = s.ticks := rfl
@[simp] theorem State.setLink_agenda (s : State) (l : Nat) (x : Link) : (s.setLink l x).agenda = s.agenda := rfl

@[simp] theorem State.setGang_mem (s : State) (n : Nat) (x : Gang) : (s.setGang n x).mem = s.mem := rfl
@[simp] theorem State.setGang_cores (s : State) (n : Nat) (x : Gang) : (s.setGang n x).cores = s.cores := rfl
@[simp] theorem State.setGang_clusters (s : State) (n : Nat) (x : Gang) : (s.setGang n x).clusters = s.clusters := rfl
@[simp] theorem State.setGang_curCore (s : State) (n : Nat) (x : Gang) : (s.setGang n x).curCore = s.curCore := rfl
@[simp] theorem State.setGang_curSlot (s : State) (n : Nat) (x : Gang) : (s.setGang n x).curSlot = s.curSlot := rfl
@[simp] theorem State.setGang_launches (s : State) (n : Nat) (x : Gang) : (s.setGang n x).launches = s.launches := rfl
@[simp] theorem State.setGang_contexts (s : State) (n : Nat) (x : Gang) : (s.setGang n x).contexts = s.contexts := rfl
@[simp] theorem State.setGang_leases (s : State) (n : Nat) (x : Gang) : (s.setGang n x).leases = s.leases := rfl
@[simp] theorem State.setGang_dt (s : State) (n : Nat) (x : Gang) : (s.setGang n x).dt = s.dt := rfl
@[simp] theorem State.setGang_chip (s : State) (n : Nat) (x : Gang) : (s.setGang n x).chip = s.chip := rfl
@[simp] theorem State.setGang_ticks (s : State) (n : Nat) (x : Gang) : (s.setGang n x).ticks = s.ticks := rfl
@[simp] theorem State.setGang_agenda (s : State) (n : Nat) (x : Gang) : (s.setGang n x).agenda = s.agenda := rfl

@[simp] theorem State.bumpDie_mem (s : State) (d n : Nat) : (s.bumpDie d n).mem = s.mem := rfl
@[simp] theorem State.bumpDie_cores (s : State) (d n : Nat) : (s.bumpDie d n).cores = s.cores := rfl
@[simp] theorem State.bumpDie_clusters (s : State) (d n : Nat) : (s.bumpDie d n).clusters = s.clusters := rfl
@[simp] theorem State.bumpDie_curCore (s : State) (d n : Nat) : (s.bumpDie d n).curCore = s.curCore := rfl
@[simp] theorem State.bumpDie_curSlot (s : State) (d n : Nat) : (s.bumpDie d n).curSlot = s.curSlot := rfl
@[simp] theorem State.bumpDie_gangs (s : State) (d n : Nat) : (s.bumpDie d n).gangs = s.gangs := rfl
@[simp] theorem State.bumpDie_launches (s : State) (d n : Nat) : (s.bumpDie d n).launches = s.launches := rfl
@[simp] theorem State.bumpDie_contexts (s : State) (d n : Nat) : (s.bumpDie d n).contexts = s.contexts := rfl
@[simp] theorem State.bumpDie_leases (s : State) (d n : Nat) : (s.bumpDie d n).leases = s.leases := rfl
@[simp] theorem State.bumpDie_dt (s : State) (d n : Nat) : (s.bumpDie d n).dt = s.dt := rfl
@[simp] theorem State.bumpDie_chip (s : State) (d n : Nat) : (s.bumpDie d n).chip = s.chip := rfl
@[simp] theorem State.bumpDie_ticks (s : State) (d n : Nat) : (s.bumpDie d n).ticks = s.ticks := rfl
@[simp] theorem State.bumpDie_agenda (s : State) (d n : Nat) : (s.bumpDie d n).agenda = s.agenda := rfl

@[simp] theorem State.later_mem (s : State) (d : Due) : (s.later d).mem = s.mem := rfl
@[simp] theorem State.later_cores (s : State) (d : Due) : (s.later d).cores = s.cores := rfl
@[simp] theorem State.later_clusters (s : State) (d : Due) : (s.later d).clusters = s.clusters := rfl
@[simp] theorem State.later_curCore (s : State) (d : Due) : (s.later d).curCore = s.curCore := rfl
@[simp] theorem State.later_curSlot (s : State) (d : Due) : (s.later d).curSlot = s.curSlot := rfl
@[simp] theorem State.later_gangs (s : State) (d : Due) : (s.later d).gangs = s.gangs := rfl
@[simp] theorem State.later_launches (s : State) (d : Due) : (s.later d).launches = s.launches := rfl
@[simp] theorem State.later_contexts (s : State) (d : Due) : (s.later d).contexts = s.contexts := rfl
@[simp] theorem State.later_leases (s : State) (d : Due) : (s.later d).leases = s.leases := rfl
@[simp] theorem State.later_dt (s : State) (d : Due) : (s.later d).dt = s.dt := rfl
@[simp] theorem State.later_chip (s : State) (d : Due) : (s.later d).chip = s.chip := rfl
@[simp] theorem State.later_ticks (s : State) (d : Due) : (s.later d).ticks = s.ticks := rfl

@[simp] theorem State.laterAll_mem (s : State) (ds : List Due) : (s.laterAll ds).mem = s.mem := rfl
@[simp] theorem State.laterAll_cores (s : State) (ds : List Due) : (s.laterAll ds).cores = s.cores := rfl
@[simp] theorem State.laterAll_clusters (s : State) (ds : List Due) : (s.laterAll ds).clusters = s.clusters := rfl
@[simp] theorem State.laterAll_curCore (s : State) (ds : List Due) : (s.laterAll ds).curCore = s.curCore := rfl
@[simp] theorem State.laterAll_curSlot (s : State) (ds : List Due) : (s.laterAll ds).curSlot = s.curSlot := rfl
@[simp] theorem State.laterAll_gangs (s : State) (ds : List Due) : (s.laterAll ds).gangs = s.gangs := rfl
@[simp] theorem State.laterAll_launches (s : State) (ds : List Due) : (s.laterAll ds).launches = s.launches := rfl
@[simp] theorem State.laterAll_contexts (s : State) (ds : List Due) : (s.laterAll ds).contexts = s.contexts := rfl
@[simp] theorem State.laterAll_leases (s : State) (ds : List Due) : (s.laterAll ds).leases = s.leases := rfl
@[simp] theorem State.laterAll_dt (s : State) (ds : List Due) : (s.laterAll ds).dt = s.dt := rfl
@[simp] theorem State.laterAll_chip (s : State) (ds : List Due) : (s.laterAll ds).chip = s.chip := rfl
@[simp] theorem State.laterAll_ticks (s : State) (ds : List Due) : (s.laterAll ds).ticks = s.ticks := rfl

@[simp] theorem State.write_cores (s : State) (k n v : Nat) : (s.write k n v).cores = s.cores := rfl
@[simp] theorem State.write_clusters (s : State) (k n v : Nat) : (s.write k n v).clusters = s.clusters := rfl
@[simp] theorem State.write_curCore (s : State) (k n v : Nat) : (s.write k n v).curCore = s.curCore := rfl
@[simp] theorem State.write_curSlot (s : State) (k n v : Nat) : (s.write k n v).curSlot = s.curSlot := rfl
@[simp] theorem State.write_gangs (s : State) (k n v : Nat) : (s.write k n v).gangs = s.gangs := rfl
@[simp] theorem State.write_launches (s : State) (k n v : Nat) : (s.write k n v).launches = s.launches := rfl
@[simp] theorem State.write_contexts (s : State) (k n v : Nat) : (s.write k n v).contexts = s.contexts := rfl
@[simp] theorem State.write_leases (s : State) (k n v : Nat) : (s.write k n v).leases = s.leases := rfl
@[simp] theorem State.write_dt (s : State) (k n v : Nat) : (s.write k n v).dt = s.dt := rfl
@[simp] theorem State.write_chip (s : State) (k n v : Nat) : (s.write k n v).chip = s.chip := rfl
@[simp] theorem State.write_ticks (s : State) (k n v : Nat) : (s.write k n v).ticks = s.ticks := rfl
@[simp] theorem State.write_agenda (s : State) (k n v : Nat) : (s.write k n v).agenda = s.agenda := rfl

@[simp] theorem State.setCore_cores (s : State) (g : Nat) (c : Core) : (s.setCore g c).cores = tput s.cores g c := rfl

@[simp] theorem State.setCluster_clusters (s : State) (n : Nat) (c : Cluster) :
    (s.setCluster n c).clusters = tput s.clusters n c := rfl

@[simp] theorem State.writeBytes_mem (s : State) (k : Nat) (bs : List Byte) : (s.writeBytes k bs).mem = mputs s.mem k bs := rfl

@[simp] theorem State.write_mem (s : State) (k n v : Nat) : (s.write k n v).mem = mwrite s.mem k n v := rfl

@[simp] theorem State.setLease_leases (s : State) (u i : Nat) (l : Lease) :
    (s.setLease u i l).leases = tput s.leases (leaseKey u i) l := rfl

@[simp] theorem State.setContext_contexts (s : State) (c : Nat) (x : Context) :
    (s.setContext c x).contexts = tput s.contexts c x := rfl

@[simp] theorem State.setLink_links (s : State) (l : Nat) (x : Link) : (s.setLink l x).links = tput s.links l x := rfl

@[simp] theorem State.setGang_gangs (s : State) (n : Nat) (x : Gang) : (s.setGang n x).gangs = tput s.gangs n x := rfl

@[simp] theorem State.later_agenda (s : State) (d : Due) : (s.later d).agenda = s.agenda ++ [.due d] := rfl

@[simp] theorem State.laterAll_agenda (s : State) (ds : List Due) : (s.laterAll ds).agenda = s.agenda ++ ds.map Turn.due := rfl

/-! Tables: reading after a write. -/

theorem tget_tput {α : Type} (d : α) (t : Table α) (k j : Nat) (v : α) :
    tget d (tput t k v) j = if j = k then v else tget d t j := by
  induction t with
  | nil => simp [tput, tget]
  | cons e t ih =>
    obtain ⟨i, w⟩ := e
    simp only [tput]
    split
    · simp only [tget]
    · split
      · next h => subst h; simp only [tget]; split <;> rfl
      · next h =>
        simp only [tget, ih]
        split
        · next h' => subst h'; simp [Ne.symm h]
        · rfl

@[simp] theorem tget_tput_same {α : Type} (d : α) (t : Table α) (k : Nat) (v : α) : tget d (tput t k v) k = v := by
  simp [tget_tput]

theorem tget_tput_other {α : Type} (d : α) (t : Table α) {k j : Nat} (v : α) (h : j ≠ k) :
    tget d (tput t k v) j = tget d t j := by
  simp [tget_tput, h]

theorem tget_tdel {α : Type} (d : α) (t : Table α) (k j : Nat) :
    tget d (tdel t k) j = if j = k then d else tget d t j := by
  induction t with
  | nil => simp [tdel, tget]
  | cons e t ih =>
    obtain ⟨i, w⟩ := e
    simp only [tdel, List.filter_cons, bne_iff_ne, ne_eq] at ih ⊢
    by_cases hi : i = k
    · subst hi
      simp only [not_true_eq_false, if_false, tget, ih]
      split <;> rfl
    · simp only [hi, not_false_eq_true, if_true, tget, ih]
      split
      · next h => subst h; simp [hi]
      · rfl

/-! Cores, slots and clusters after a write. -/

theorem State.core_setCore (s : State) (g h : Nat) (c : Core) :
    (s.setCore g c).core h = if h = g then c else s.core h := tget_tput _ _ _ _ _

@[simp] theorem State.core_setCore_same (s : State) (g : Nat) (c : Core) : (s.setCore g c).core g = c := by
  simp [State.core_setCore]

theorem State.cluster_setCluster (s : State) (n m : Nat) (c : Cluster) :
    (s.setCluster n c).cluster m = if m = n then c else s.cluster m := tget_tput _ _ _ _ _

@[simp] theorem State.cluster_setCluster_same (s : State) (n : Nat) (c : Cluster) : (s.setCluster n c).cluster n = c := by
  simp [State.cluster_setCluster]

@[simp] theorem State.core_setCluster (s : State) (n g : Nat) (c : Cluster) : (s.setCluster n c).core g = s.core g := rfl

@[simp] theorem State.slot_setCluster (s : State) (n g k : Nat) (c : Cluster) : (s.setCluster n c).slot g k = s.slot g k := rfl

@[simp] theorem State.cur_setCluster (s : State) (n : Nat) (c : Cluster) : (s.setCluster n c).cur = s.cur := rfl

@[simp] theorem State.cluster_setCore (s : State) (n g : Nat) (c : Core) : (s.setCore g c).cluster n = s.cluster n := rfl

@[simp] theorem State.cluster_setCur (s : State) (n : Nat) (x : Slot) : (s.setCur x).cluster n = s.cluster n := rfl

@[simp] theorem State.core_writeBytes (s : State) (g k : Nat) (bs : List Byte) : (s.writeBytes k bs).core g = s.core g := rfl

@[simp] theorem State.cur_writeBytes (s : State) (k : Nat) (bs : List Byte) : (s.writeBytes k bs).cur = s.cur := rfl

theorem State.slot_setSlot (s : State) (g k h j : Nat) (x : Slot) :
    (s.setSlot g k x).slot h j = if h = g ∧ j = k then x else s.slot h j := by
  simp only [State.setSlot, State.slot, State.core_setCore]
  by_cases hg : h = g
  · subst hg; simp [tget_tput]
  · simp [hg]

@[simp] theorem State.cur_setCur (s : State) (x : Slot) : (s.setCur x).cur = x := by
  simp [State.setCur, State.cur, State.slot_setSlot]

theorem State.slot_setCur (s : State) (h j : Nat) (x : Slot) :
    (s.setCur x).slot h j = if h = s.curCore ∧ j = s.curSlot then x else s.slot h j := State.slot_setSlot ..

theorem State.slot_setCur_other (s : State) {h j : Nat} (x : Slot) (n : ¬(h = s.curCore ∧ j = s.curSlot)) :
    (s.setCur x).slot h j = s.slot h j := by
  simp [State.slot_setCur, n]

/-- Two writes of the running slot: the later one stands. -/
theorem tput_tput {α : Type} (t : Table α) (k : Nat) (v w : α) : tput (tput t k v) k w = tput t k w := by
  induction t with
  | nil => simp [tput]
  | cons e t ih =>
    obtain ⟨i, x⟩ := e
    simp only [tput]
    by_cases h1 : k < i
    · simp [h1, tput]
    · by_cases h2 : k = i
      · simp [h2, tput]
      · simp [h1, h2, tput, ih]

@[simp] theorem State.setCur_setCur (s : State) (x y : Slot) : (s.setCur x).setCur y = s.setCur y := by
  simp [State.setCur, State.setSlot, State.setCore, State.core, tput_tput]

@[simp] theorem State.core_setCur (s : State) (x : Slot) :
    (s.setCur x).core s.curCore = { s.core s.curCore with slots := tput (s.core s.curCore).slots s.curSlot x } := by
  simp [State.setCur, State.setSlot]

theorem State.core_setCur_other (s : State) {g : Nat} (x : Slot) (h : g ≠ s.curCore) : (s.setCur x).core g = s.core g := by
  simp [State.setCur, State.setSlot, State.core_setCore, h]

/-! The fields of the running core that a write of its slot leaves. -/

@[simp] theorem State.curCoreOf_setCur_queues (s : State) (x : Slot) : (s.setCur x).curCoreOf.queues = s.curCoreOf.queues := by
  simp [State.curCoreOf]
@[simp] theorem State.curCoreOf_setCur_ds (s : State) (x : Slot) : (s.setCur x).curCoreOf.ds = s.curCoreOf.ds := by
  simp [State.curCoreOf]
@[simp] theorem State.curCoreOf_setCur_shape (s : State) (x : Slot) : (s.setCur x).curCoreOf.shape = s.curCoreOf.shape := by
  simp [State.curCoreOf]
@[simp] theorem State.curCoreOf_setCur_acc (s : State) (x : Slot) : (s.setCur x).curCoreOf.acc = s.curCoreOf.acc := by
  simp [State.curCoreOf]
@[simp] theorem State.curCoreOf_setCur_live (s : State) (x : Slot) : (s.setCur x).curCoreOf.live = s.curCoreOf.live := by
  simp [State.curCoreOf]
@[simp] theorem State.curCoreOf_setCur_sprot (s : State) (x : Slot) : (s.setCur x).curCoreOf.sprot = s.curCoreOf.sprot := by
  simp [State.curCoreOf]
@[simp] theorem State.curCoreOf_setCur_tvec (s : State) (x : Slot) : (s.setCur x).curCoreOf.tvec = s.curCoreOf.tvec := by
  simp [State.curCoreOf]
@[simp] theorem State.curCoreOf_setCur_kstk (s : State) (x : Slot) : (s.setCur x).curCoreOf.kstk = s.curCoreOf.kstk := by
  simp [State.curCoreOf]
@[simp] theorem State.curCoreOf_setCur_bell (s : State) (x : Slot) : (s.setCur x).curCoreOf.bell = s.curCoreOf.bell := by
  simp [State.curCoreOf]
@[simp] theorem State.curCoreOf_setCur_ctr (s : State) (x : Slot) : (s.setCur x).curCoreOf.ctr = s.curCoreOf.ctr := by
  simp [State.curCoreOf]
@[simp] theorem State.curCoreOf_setCur_tbase (s : State) (x : Slot) : (s.setCur x).curCoreOf.tbase = s.curCoreOf.tbase := by
  simp [State.curCoreOf]
@[simp] theorem State.curCoreOf_setCur_tctl (s : State) (x : Slot) : (s.setCur x).curCoreOf.tctl = s.curCoreOf.tctl := by
  simp [State.curCoreOf]
@[simp] theorem State.curCoreOf_setCur_twr (s : State) (x : Slot) : (s.setCur x).curCoreOf.twr = s.curCoreOf.twr := by
  simp [State.curCoreOf]
@[simp] theorem State.curCoreOf_setCur_tdrop (s : State) (x : Slot) : (s.setCur x).curCoreOf.tdrop = s.curCoreOf.tdrop := by
  simp [State.curCoreOf]
@[simp] theorem State.curCoreOf_setCur_sample (s : State) (x : Slot) : (s.setCur x).curCoreOf.sample = s.curCoreOf.sample := by
  simp [State.curCoreOf]
@[simp] theorem State.curCoreOf_setCur_stepCnt (s : State) (x : Slot) : (s.setCur x).curCoreOf.stepCnt = s.curCoreOf.stepCnt := by
  simp [State.curCoreOf]
@[simp] theorem State.curCoreOf_setCur_stepped (s : State) (x : Slot) : (s.setCur x).curCoreOf.stepped = s.curCoreOf.stepped := by
  simp [State.curCoreOf]
@[simp] theorem State.curCoreOf_setCur_done (s : State) (x : Slot) : (s.setCur x).curCoreOf.done = s.curCoreOf.done := by
  simp [State.curCoreOf]
@[simp] theorem State.curCoreOf_setCur_last (s : State) (x : Slot) : (s.setCur x).curCoreOf.last = s.curCoreOf.last := by
  simp [State.curCoreOf]
@[simp] theorem State.curCoreOf_setCur_cycle (s : State) (x : Slot) : (s.setCur x).curCoreOf.cycle = s.curCoreOf.cycle := by
  simp [State.curCoreOf]
@[simp] theorem State.curCoreOf_setCur_uses (s : State) (x : Slot) : (s.setCur x).curCoreOf.uses = s.curCoreOf.uses := by
  simp [State.curCoreOf]
@[simp] theorem State.curCoreOf_setCur_array (s : State) (x : Slot) : (s.setCur x).curCoreOf.array = s.curCoreOf.array := by
  simp [State.curCoreOf]
@[simp] theorem State.curCoreOf_setCur_damask (s : State) (x : Slot) : (s.setCur x).curCoreOf.damask = s.curCoreOf.damask := by
  simp [State.curCoreOf]

/-! Writes of a slot's registers through its mode (04 R49): what they leave. -/

@[simp] theorem Slot.setAcc_p (x : Slot) (v : Word) : (x.setAcc v).p = x.p := by unfold Slot.setAcc; split <;> rfl
@[simp] theorem Slot.setAcc_step (x : Slot) (v : Word) : (x.setAcc v).step = x.step := by unfold Slot.setAcc; split <;> rfl
@[simp] theorem Slot.setAcc_lc (x : Slot) (v : Word) : (x.setAcc v).lc = x.lc := by unfold Slot.setAcc; split <;> rfl
@[simp] theorem Slot.setAcc_f (x : Slot) (v : Word) : (x.setAcc v).f = x.f := by unfold Slot.setAcc; split <;> rfl
@[simp] theorem Slot.setAcc_vf (x : Slot) (v : Word) : (x.setAcc v).vf = x.vf := by unfold Slot.setAcc; split <;> rfl
@[simp] theorem Slot.setAcc_priv (x : Slot) (v : Word) : (x.setAcc v).priv = x.priv := by unfold Slot.setAcc; split <;> rfl
@[simp] theorem Slot.setAcc_kp7 (x : Slot) (v : Word) : (x.setAcc v).kp7 = x.kp7 := by unfold Slot.setAcc; split <;> rfl
@[simp] theorem Slot.setAcc_ks7 (x : Slot) (v : Word) : (x.setAcc v).ks7 = x.ks7 := by unfold Slot.setAcc; split <;> rfl
@[simp] theorem Slot.setAcc_kf (x : Slot) (v : Word) : (x.setAcc v).kf = x.kf := by unfold Slot.setAcc; split <;> rfl
@[simp] theorem Slot.setAcc_pc (x : Slot) (v : Word) : (x.setAcc v).pc = x.pc := by unfold Slot.setAcc; split <;> rfl
@[simp] theorem Slot.setAcc_live (x : Slot) (v : Word) : (x.setAcc v).live = x.live := by unfold Slot.setAcc; split <;> rfl
@[simp] theorem Slot.setAcc_epc (x : Slot) (v : Word) : (x.setAcc v).epc = x.epc := by unfold Slot.setAcc; split <;> rfl
@[simp] theorem Slot.setAcc_cause (x : Slot) (v : Word) : (x.setAcc v).cause = x.cause := by unfold Slot.setAcc; split <;> rfl
@[simp] theorem Slot.setAcc_faddr (x : Slot) (v : Word) : (x.setAcc v).faddr = x.faddr := by unfold Slot.setAcc; split <;> rfl
@[simp] theorem Slot.setAcc_rdet (x : Slot) (v : Word) : (x.setAcc v).rdet = x.rdet := by unfold Slot.setAcc; split <;> rfl
@[simp] theorem Slot.setAcc_restart (x : Slot) (v : Word) : (x.setAcc v).restart = x.restart := by unfold Slot.setAcc; split <;> rfl
@[simp] theorem Slot.setAcc_tok (x : Slot) (v : Word) : (x.setAcc v).tok = x.tok := by unfold Slot.setAcc; split <;> rfl
@[simp] theorem Slot.setAcc_watch (x : Slot) (v : Word) : (x.setAcc v).watch = x.watch := by unfold Slot.setAcc; split <;> rfl
@[simp] theorem Slot.setAcc_fired (x : Slot) (v : Word) : (x.setAcc v).fired = x.fired := by unfold Slot.setAcc; split <;> rfl
@[simp] theorem Slot.setAcc_restored (x : Slot) (v : Word) : (x.setAcc v).restored = x.restored := by unfold Slot.setAcc; split <;> rfl
@[simp] theorem Slot.setAcc_banks (x : Slot) (v : Word) : (x.setAcc v).banks = x.banks := by unfold Slot.setAcc; split <;> rfl
@[simp] theorem Slot.setAcc_park (x : Slot) (v : Word) : (x.setAcc v).park = x.park := by unfold Slot.setAcc; split <;> rfl
@[simp] theorem Slot.setAcc_readyAt (x : Slot) (v : Word) : (x.setAcc v).readyAt = x.readyAt := by unfold Slot.setAcc; split <;> rfl
@[simp] theorem Slot.setAcc_fbuf (x : Slot) (v : Word) : (x.setAcc v).fbuf = x.fbuf := by unfold Slot.setAcc; split <;> rfl
@[simp] theorem Slot.setAcc_fill (x : Slot) (v : Word) : (x.setAcc v).fill = x.fill := by unfold Slot.setAcc; split <;> rfl
@[simp] theorem Slot.setAcc_exempt (x : Slot) (v : Word) : (x.setAcc v).exempt = x.exempt := by unfold Slot.setAcc; split <;> rfl
@[simp] theorem Slot.setAcc_replies (x : Slot) (v : Word) : (x.setAcc v).replies = x.replies := by unfold Slot.setAcc; split <;> rfl
@[simp] theorem Slot.setAcc_ports (x : Slot) (v : Word) : (x.setAcc v).ports = x.ports := by unfold Slot.setAcc; split <;> rfl
@[simp] theorem Slot.setAcc_issued (x : Slot) (v : Word) : (x.setAcc v).issued = x.issued := by unfold Slot.setAcc; split <;> rfl
@[simp] theorem Slot.setAcc_word (x : Slot) (v : Word) : (x.setAcc v).word = x.word := by unfold Slot.setAcc; split <;> rfl
@[simp] theorem Slot.setAcc_lane (x : Slot) (v : Word) : (x.setAcc v).lane = x.lane := by unfold Slot.setAcc; split <;> rfl
@[simp] theorem Slot.setAcc_yields (x : Slot) (v : Word) : (x.setAcc v).yields = x.yields := by unfold Slot.setAcc; split <;> rfl
@[simp] theorem Slot.setAcc_cbar (x : Slot) (v : Word) : (x.setAcc v).cbar = x.cbar := by unfold Slot.setAcc; split <;> rfl
@[simp] theorem Slot.setAcc_asked (x : Slot) (v : Word) : (x.setAcc v).asked = x.asked := by unfold Slot.setAcc; split <;> rfl
@[simp] theorem Slot.setAcc_mark (x : Slot) (v : Word) : (x.setAcc v).mark = x.mark := by unfold Slot.setAcc; split <;> rfl

@[simp] theorem Slot.setPtr_a (x : Slot) (n : Nat) (v : Word) : (x.setPtr n v).a = x.a := by unfold Slot.setPtr; split <;> rfl
@[simp] theorem Slot.setPtr_step (x : Slot) (n : Nat) (v : Word) : (x.setPtr n v).step = x.step := by unfold Slot.setPtr; split <;> rfl
@[simp] theorem Slot.setPtr_lc (x : Slot) (n : Nat) (v : Word) : (x.setPtr n v).lc = x.lc := by unfold Slot.setPtr; split <;> rfl
@[simp] theorem Slot.setPtr_f (x : Slot) (n : Nat) (v : Word) : (x.setPtr n v).f = x.f := by unfold Slot.setPtr; split <;> rfl
@[simp] theorem Slot.setPtr_vf (x : Slot) (n : Nat) (v : Word) : (x.setPtr n v).vf = x.vf := by unfold Slot.setPtr; split <;> rfl
@[simp] theorem Slot.setPtr_priv (x : Slot) (n : Nat) (v : Word) : (x.setPtr n v).priv = x.priv := by unfold Slot.setPtr; split <;> rfl
@[simp] theorem Slot.setPtr_ka (x : Slot) (n : Nat) (v : Word) : (x.setPtr n v).ka = x.ka := by unfold Slot.setPtr; split <;> rfl
@[simp] theorem Slot.setPtr_ks7 (x : Slot) (n : Nat) (v : Word) : (x.setPtr n v).ks7 = x.ks7 := by unfold Slot.setPtr; split <;> rfl
@[simp] theorem Slot.setPtr_kf (x : Slot) (n : Nat) (v : Word) : (x.setPtr n v).kf = x.kf := by unfold Slot.setPtr; split <;> rfl
@[simp] theorem Slot.setPtr_pc (x : Slot) (n : Nat) (v : Word) : (x.setPtr n v).pc = x.pc := by unfold Slot.setPtr; split <;> rfl
@[simp] theorem Slot.setPtr_live (x : Slot) (n : Nat) (v : Word) : (x.setPtr n v).live = x.live := by unfold Slot.setPtr; split <;> rfl
@[simp] theorem Slot.setPtr_epc (x : Slot) (n : Nat) (v : Word) : (x.setPtr n v).epc = x.epc := by unfold Slot.setPtr; split <;> rfl
@[simp] theorem Slot.setPtr_cause (x : Slot) (n : Nat) (v : Word) : (x.setPtr n v).cause = x.cause := by unfold Slot.setPtr; split <;> rfl
@[simp] theorem Slot.setPtr_faddr (x : Slot) (n : Nat) (v : Word) : (x.setPtr n v).faddr = x.faddr := by unfold Slot.setPtr; split <;> rfl
@[simp] theorem Slot.setPtr_rdet (x : Slot) (n : Nat) (v : Word) : (x.setPtr n v).rdet = x.rdet := by unfold Slot.setPtr; split <;> rfl
@[simp] theorem Slot.setPtr_restart (x : Slot) (n : Nat) (v : Word) : (x.setPtr n v).restart = x.restart := by unfold Slot.setPtr; split <;> rfl
@[simp] theorem Slot.setPtr_tok (x : Slot) (n : Nat) (v : Word) : (x.setPtr n v).tok = x.tok := by unfold Slot.setPtr; split <;> rfl
@[simp] theorem Slot.setPtr_watch (x : Slot) (n : Nat) (v : Word) : (x.setPtr n v).watch = x.watch := by unfold Slot.setPtr; split <;> rfl
@[simp] theorem Slot.setPtr_fired (x : Slot) (n : Nat) (v : Word) : (x.setPtr n v).fired = x.fired := by unfold Slot.setPtr; split <;> rfl
@[simp] theorem Slot.setPtr_restored (x : Slot) (n : Nat) (v : Word) : (x.setPtr n v).restored = x.restored := by unfold Slot.setPtr; split <;> rfl
@[simp] theorem Slot.setPtr_banks (x : Slot) (n : Nat) (v : Word) : (x.setPtr n v).banks = x.banks := by unfold Slot.setPtr; split <;> rfl
@[simp] theorem Slot.setPtr_park (x : Slot) (n : Nat) (v : Word) : (x.setPtr n v).park = x.park := by unfold Slot.setPtr; split <;> rfl
@[simp] theorem Slot.setPtr_readyAt (x : Slot) (n : Nat) (v : Word) : (x.setPtr n v).readyAt = x.readyAt := by unfold Slot.setPtr; split <;> rfl
@[simp] theorem Slot.setPtr_fbuf (x : Slot) (n : Nat) (v : Word) : (x.setPtr n v).fbuf = x.fbuf := by unfold Slot.setPtr; split <;> rfl
@[simp] theorem Slot.setPtr_fill (x : Slot) (n : Nat) (v : Word) : (x.setPtr n v).fill = x.fill := by unfold Slot.setPtr; split <;> rfl
@[simp] theorem Slot.setPtr_exempt (x : Slot) (n : Nat) (v : Word) : (x.setPtr n v).exempt = x.exempt := by unfold Slot.setPtr; split <;> rfl
@[simp] theorem Slot.setPtr_replies (x : Slot) (n : Nat) (v : Word) : (x.setPtr n v).replies = x.replies := by unfold Slot.setPtr; split <;> rfl
@[simp] theorem Slot.setPtr_ports (x : Slot) (n : Nat) (v : Word) : (x.setPtr n v).ports = x.ports := by unfold Slot.setPtr; split <;> rfl
@[simp] theorem Slot.setPtr_issued (x : Slot) (n : Nat) (v : Word) : (x.setPtr n v).issued = x.issued := by unfold Slot.setPtr; split <;> rfl
@[simp] theorem Slot.setPtr_word (x : Slot) (n : Nat) (v : Word) : (x.setPtr n v).word = x.word := by unfold Slot.setPtr; split <;> rfl
@[simp] theorem Slot.setPtr_lane (x : Slot) (n : Nat) (v : Word) : (x.setPtr n v).lane = x.lane := by unfold Slot.setPtr; split <;> rfl
@[simp] theorem Slot.setPtr_yields (x : Slot) (n : Nat) (v : Word) : (x.setPtr n v).yields = x.yields := by unfold Slot.setPtr; split <;> rfl
@[simp] theorem Slot.setPtr_cbar (x : Slot) (n : Nat) (v : Word) : (x.setPtr n v).cbar = x.cbar := by unfold Slot.setPtr; split <;> rfl
@[simp] theorem Slot.setPtr_asked (x : Slot) (n : Nat) (v : Word) : (x.setPtr n v).asked = x.asked := by unfold Slot.setPtr; split <;> rfl
@[simp] theorem Slot.setPtr_mark (x : Slot) (n : Nat) (v : Word) : (x.setPtr n v).mark = x.mark := by unfold Slot.setPtr; split <;> rfl

@[simp] theorem Slot.setStep_a (x : Slot) (n : Nat) (v : BitVec 16) : (x.setStep n v).a = x.a := by unfold Slot.setStep; split <;> rfl
@[simp] theorem Slot.setStep_p (x : Slot) (n : Nat) (v : BitVec 16) : (x.setStep n v).p = x.p := by unfold Slot.setStep; split <;> rfl
@[simp] theorem Slot.setStep_lc (x : Slot) (n : Nat) (v : BitVec 16) : (x.setStep n v).lc = x.lc := by unfold Slot.setStep; split <;> rfl
@[simp] theorem Slot.setStep_f (x : Slot) (n : Nat) (v : BitVec 16) : (x.setStep n v).f = x.f := by unfold Slot.setStep; split <;> rfl
@[simp] theorem Slot.setStep_vf (x : Slot) (n : Nat) (v : BitVec 16) : (x.setStep n v).vf = x.vf := by unfold Slot.setStep; split <;> rfl
@[simp] theorem Slot.setStep_priv (x : Slot) (n : Nat) (v : BitVec 16) : (x.setStep n v).priv = x.priv := by unfold Slot.setStep; split <;> rfl
@[simp] theorem Slot.setStep_ka (x : Slot) (n : Nat) (v : BitVec 16) : (x.setStep n v).ka = x.ka := by unfold Slot.setStep; split <;> rfl
@[simp] theorem Slot.setStep_kp7 (x : Slot) (n : Nat) (v : BitVec 16) : (x.setStep n v).kp7 = x.kp7 := by unfold Slot.setStep; split <;> rfl
@[simp] theorem Slot.setStep_kf (x : Slot) (n : Nat) (v : BitVec 16) : (x.setStep n v).kf = x.kf := by unfold Slot.setStep; split <;> rfl
@[simp] theorem Slot.setStep_pc (x : Slot) (n : Nat) (v : BitVec 16) : (x.setStep n v).pc = x.pc := by unfold Slot.setStep; split <;> rfl
@[simp] theorem Slot.setStep_live (x : Slot) (n : Nat) (v : BitVec 16) : (x.setStep n v).live = x.live := by unfold Slot.setStep; split <;> rfl
@[simp] theorem Slot.setStep_epc (x : Slot) (n : Nat) (v : BitVec 16) : (x.setStep n v).epc = x.epc := by unfold Slot.setStep; split <;> rfl
@[simp] theorem Slot.setStep_cause (x : Slot) (n : Nat) (v : BitVec 16) : (x.setStep n v).cause = x.cause := by unfold Slot.setStep; split <;> rfl
@[simp] theorem Slot.setStep_faddr (x : Slot) (n : Nat) (v : BitVec 16) : (x.setStep n v).faddr = x.faddr := by unfold Slot.setStep; split <;> rfl
@[simp] theorem Slot.setStep_rdet (x : Slot) (n : Nat) (v : BitVec 16) : (x.setStep n v).rdet = x.rdet := by unfold Slot.setStep; split <;> rfl
@[simp] theorem Slot.setStep_restart (x : Slot) (n : Nat) (v : BitVec 16) : (x.setStep n v).restart = x.restart := by unfold Slot.setStep; split <;> rfl
@[simp] theorem Slot.setStep_tok (x : Slot) (n : Nat) (v : BitVec 16) : (x.setStep n v).tok = x.tok := by unfold Slot.setStep; split <;> rfl
@[simp] theorem Slot.setStep_watch (x : Slot) (n : Nat) (v : BitVec 16) : (x.setStep n v).watch = x.watch := by unfold Slot.setStep; split <;> rfl
@[simp] theorem Slot.setStep_fired (x : Slot) (n : Nat) (v : BitVec 16) : (x.setStep n v).fired = x.fired := by unfold Slot.setStep; split <;> rfl
@[simp] theorem Slot.setStep_restored (x : Slot) (n : Nat) (v : BitVec 16) : (x.setStep n v).restored = x.restored := by unfold Slot.setStep; split <;> rfl
@[simp] theorem Slot.setStep_banks (x : Slot) (n : Nat) (v : BitVec 16) : (x.setStep n v).banks = x.banks := by unfold Slot.setStep; split <;> rfl
@[simp] theorem Slot.setStep_park (x : Slot) (n : Nat) (v : BitVec 16) : (x.setStep n v).park = x.park := by unfold Slot.setStep; split <;> rfl
@[simp] theorem Slot.setStep_readyAt (x : Slot) (n : Nat) (v : BitVec 16) : (x.setStep n v).readyAt = x.readyAt := by unfold Slot.setStep; split <;> rfl
@[simp] theorem Slot.setStep_fbuf (x : Slot) (n : Nat) (v : BitVec 16) : (x.setStep n v).fbuf = x.fbuf := by unfold Slot.setStep; split <;> rfl
@[simp] theorem Slot.setStep_fill (x : Slot) (n : Nat) (v : BitVec 16) : (x.setStep n v).fill = x.fill := by unfold Slot.setStep; split <;> rfl
@[simp] theorem Slot.setStep_exempt (x : Slot) (n : Nat) (v : BitVec 16) : (x.setStep n v).exempt = x.exempt := by unfold Slot.setStep; split <;> rfl
@[simp] theorem Slot.setStep_replies (x : Slot) (n : Nat) (v : BitVec 16) : (x.setStep n v).replies = x.replies := by unfold Slot.setStep; split <;> rfl
@[simp] theorem Slot.setStep_ports (x : Slot) (n : Nat) (v : BitVec 16) : (x.setStep n v).ports = x.ports := by unfold Slot.setStep; split <;> rfl
@[simp] theorem Slot.setStep_issued (x : Slot) (n : Nat) (v : BitVec 16) : (x.setStep n v).issued = x.issued := by unfold Slot.setStep; split <;> rfl
@[simp] theorem Slot.setStep_word (x : Slot) (n : Nat) (v : BitVec 16) : (x.setStep n v).word = x.word := by unfold Slot.setStep; split <;> rfl
@[simp] theorem Slot.setStep_lane (x : Slot) (n : Nat) (v : BitVec 16) : (x.setStep n v).lane = x.lane := by unfold Slot.setStep; split <;> rfl
@[simp] theorem Slot.setStep_yields (x : Slot) (n : Nat) (v : BitVec 16) : (x.setStep n v).yields = x.yields := by unfold Slot.setStep; split <;> rfl
@[simp] theorem Slot.setStep_cbar (x : Slot) (n : Nat) (v : BitVec 16) : (x.setStep n v).cbar = x.cbar := by unfold Slot.setStep; split <;> rfl
@[simp] theorem Slot.setStep_asked (x : Slot) (n : Nat) (v : BitVec 16) : (x.setStep n v).asked = x.asked := by unfold Slot.setStep; split <;> rfl
@[simp] theorem Slot.setStep_mark (x : Slot) (n : Nat) (v : BitVec 16) : (x.setStep n v).mark = x.mark := by unfold Slot.setStep; split <;> rfl

@[simp] theorem Slot.setFlags_a (x : Slot) (v : BitVec 7) : (x.setFlags v).a = x.a := by unfold Slot.setFlags; split <;> rfl
@[simp] theorem Slot.setFlags_p (x : Slot) (v : BitVec 7) : (x.setFlags v).p = x.p := by unfold Slot.setFlags; split <;> rfl
@[simp] theorem Slot.setFlags_step (x : Slot) (v : BitVec 7) : (x.setFlags v).step = x.step := by unfold Slot.setFlags; split <;> rfl
@[simp] theorem Slot.setFlags_lc (x : Slot) (v : BitVec 7) : (x.setFlags v).lc = x.lc := by unfold Slot.setFlags; split <;> rfl
@[simp] theorem Slot.setFlags_vf (x : Slot) (v : BitVec 7) : (x.setFlags v).vf = x.vf := by unfold Slot.setFlags; split <;> rfl
@[simp] theorem Slot.setFlags_priv (x : Slot) (v : BitVec 7) : (x.setFlags v).priv = x.priv := by unfold Slot.setFlags; split <;> rfl
@[simp] theorem Slot.setFlags_ka (x : Slot) (v : BitVec 7) : (x.setFlags v).ka = x.ka := by unfold Slot.setFlags; split <;> rfl
@[simp] theorem Slot.setFlags_kp7 (x : Slot) (v : BitVec 7) : (x.setFlags v).kp7 = x.kp7 := by unfold Slot.setFlags; split <;> rfl
@[simp] theorem Slot.setFlags_ks7 (x : Slot) (v : BitVec 7) : (x.setFlags v).ks7 = x.ks7 := by unfold Slot.setFlags; split <;> rfl
@[simp] theorem Slot.setFlags_pc (x : Slot) (v : BitVec 7) : (x.setFlags v).pc = x.pc := by unfold Slot.setFlags; split <;> rfl
@[simp] theorem Slot.setFlags_live (x : Slot) (v : BitVec 7) : (x.setFlags v).live = x.live := by unfold Slot.setFlags; split <;> rfl
@[simp] theorem Slot.setFlags_epc (x : Slot) (v : BitVec 7) : (x.setFlags v).epc = x.epc := by unfold Slot.setFlags; split <;> rfl
@[simp] theorem Slot.setFlags_cause (x : Slot) (v : BitVec 7) : (x.setFlags v).cause = x.cause := by unfold Slot.setFlags; split <;> rfl
@[simp] theorem Slot.setFlags_faddr (x : Slot) (v : BitVec 7) : (x.setFlags v).faddr = x.faddr := by unfold Slot.setFlags; split <;> rfl
@[simp] theorem Slot.setFlags_rdet (x : Slot) (v : BitVec 7) : (x.setFlags v).rdet = x.rdet := by unfold Slot.setFlags; split <;> rfl
@[simp] theorem Slot.setFlags_restart (x : Slot) (v : BitVec 7) : (x.setFlags v).restart = x.restart := by unfold Slot.setFlags; split <;> rfl
@[simp] theorem Slot.setFlags_tok (x : Slot) (v : BitVec 7) : (x.setFlags v).tok = x.tok := by unfold Slot.setFlags; split <;> rfl
@[simp] theorem Slot.setFlags_watch (x : Slot) (v : BitVec 7) : (x.setFlags v).watch = x.watch := by unfold Slot.setFlags; split <;> rfl
@[simp] theorem Slot.setFlags_fired (x : Slot) (v : BitVec 7) : (x.setFlags v).fired = x.fired := by unfold Slot.setFlags; split <;> rfl
@[simp] theorem Slot.setFlags_restored (x : Slot) (v : BitVec 7) : (x.setFlags v).restored = x.restored := by unfold Slot.setFlags; split <;> rfl
@[simp] theorem Slot.setFlags_banks (x : Slot) (v : BitVec 7) : (x.setFlags v).banks = x.banks := by unfold Slot.setFlags; split <;> rfl
@[simp] theorem Slot.setFlags_park (x : Slot) (v : BitVec 7) : (x.setFlags v).park = x.park := by unfold Slot.setFlags; split <;> rfl
@[simp] theorem Slot.setFlags_readyAt (x : Slot) (v : BitVec 7) : (x.setFlags v).readyAt = x.readyAt := by unfold Slot.setFlags; split <;> rfl
@[simp] theorem Slot.setFlags_fbuf (x : Slot) (v : BitVec 7) : (x.setFlags v).fbuf = x.fbuf := by unfold Slot.setFlags; split <;> rfl
@[simp] theorem Slot.setFlags_fill (x : Slot) (v : BitVec 7) : (x.setFlags v).fill = x.fill := by unfold Slot.setFlags; split <;> rfl
@[simp] theorem Slot.setFlags_exempt (x : Slot) (v : BitVec 7) : (x.setFlags v).exempt = x.exempt := by unfold Slot.setFlags; split <;> rfl
@[simp] theorem Slot.setFlags_replies (x : Slot) (v : BitVec 7) : (x.setFlags v).replies = x.replies := by unfold Slot.setFlags; split <;> rfl
@[simp] theorem Slot.setFlags_ports (x : Slot) (v : BitVec 7) : (x.setFlags v).ports = x.ports := by unfold Slot.setFlags; split <;> rfl
@[simp] theorem Slot.setFlags_issued (x : Slot) (v : BitVec 7) : (x.setFlags v).issued = x.issued := by unfold Slot.setFlags; split <;> rfl
@[simp] theorem Slot.setFlags_word (x : Slot) (v : BitVec 7) : (x.setFlags v).word = x.word := by unfold Slot.setFlags; split <;> rfl
@[simp] theorem Slot.setFlags_lane (x : Slot) (v : BitVec 7) : (x.setFlags v).lane = x.lane := by unfold Slot.setFlags; split <;> rfl
@[simp] theorem Slot.setFlags_yields (x : Slot) (v : BitVec 7) : (x.setFlags v).yields = x.yields := by unfold Slot.setFlags; split <;> rfl
@[simp] theorem Slot.setFlags_cbar (x : Slot) (v : BitVec 7) : (x.setFlags v).cbar = x.cbar := by unfold Slot.setFlags; split <;> rfl
@[simp] theorem Slot.setFlags_asked (x : Slot) (v : BitVec 7) : (x.setFlags v).asked = x.asked := by unfold Slot.setFlags; split <;> rfl
@[simp] theorem Slot.setFlags_mark (x : Slot) (v : BitVec 7) : (x.setFlags v).mark = x.mark := by unfold Slot.setFlags; split <;> rfl

@[simp] theorem Slot.acc_setAcc (x : Slot) (v : Word) : (x.setAcc v).acc = v := by
  unfold Slot.setAcc Slot.acc; by_cases h : x.priv <;> simp [h]

@[simp] theorem Slot.flags_setFlags (x : Slot) (v : BitVec 7) : (x.setFlags v).flags = v := by
  unfold Slot.setFlags Slot.flags; by_cases h : x.priv <;> simp [h]

@[simp] theorem Slot.acc_setFlags (x : Slot) (v : BitVec 7) : (x.setFlags v).acc = x.acc := by
  unfold Slot.setFlags Slot.acc; by_cases h : x.priv <;> simp [h]

@[simp] theorem Slot.flags_setAcc (x : Slot) (v : Word) : (x.setAcc v).flags = x.flags := by
  unfold Slot.setAcc Slot.flags; by_cases h : x.priv <;> simp [h]

@[simp] theorem Slot.ptr_setAcc (x : Slot) (v : Word) (n : Nat) : (x.setAcc v).ptr n = x.ptr n := by
  simp [Slot.ptr]

@[simp] theorem Slot.ptr_setFlags (x : Slot) (v : BitVec 7) (n : Nat) : (x.setFlags v).ptr n = x.ptr n := by
  simp [Slot.ptr]

@[simp] theorem Slot.stepOf_setAcc (x : Slot) (v : Word) (n : Nat) : (x.setAcc v).stepOf n = x.stepOf n := by
  simp [Slot.stepOf]

@[simp] theorem Slot.stepOf_setFlags (x : Slot) (v : BitVec 7) (n : Nat) : (x.setFlags v).stepOf n = x.stepOf n := by
  simp [Slot.stepOf]

@[simp] theorem Slot.stepOf_setPtr (x : Slot) (m : Nat) (v : Word) (n : Nat) : (x.setPtr m v).stepOf n = x.stepOf n := by
  simp [Slot.stepOf]

@[simp] theorem Slot.acc_setPtr (x : Slot) (n : Nat) (v : Word) : (x.setPtr n v).acc = x.acc := by
  unfold Slot.setPtr Slot.acc; split <;> simp

@[simp] theorem Slot.flags_setPtr (x : Slot) (n : Nat) (v : Word) : (x.setPtr n v).flags = x.flags := by
  unfold Slot.setPtr Slot.flags; split <;> simp

theorem Slot.ptr_setPtr (x : Slot) (n m : Nat) (v : Word) : (x.setPtr n v).ptr m = if m = n then v else x.ptr m := by
  by_cases hp : x.priv <;> by_cases hn : n = 7 <;> by_cases hm : m = 7 <;> simp_all [Slot.setPtr, Slot.ptr, tget_tput] <;>
    (intro h; simp_all)

@[simp] theorem Slot.ptr_setPtr_same (x : Slot) (n : Nat) (v : Word) : (x.setPtr n v).ptr n = v := by
  simp [Slot.ptr_setPtr]

theorem Slot.stepOf_setStep (x : Slot) (n m : Nat) (v : BitVec 16) :
    (x.setStep n v).stepOf m = if m = n then v else x.stepOf m := by
  by_cases hp : x.priv <;> by_cases hn : n = 7 <;> by_cases hm : m = 7 <;> simp_all [Slot.setStep, Slot.stepOf, tget_tput] <;>
    (intro h; simp_all)

@[simp] theorem Slot.acc_setStep (x : Slot) (n : Nat) (v : BitVec 16) : (x.setStep n v).acc = x.acc := by
  unfold Slot.setStep Slot.acc; split <;> simp

@[simp] theorem Slot.flags_setStep (x : Slot) (n : Nat) (v : BitVec 16) : (x.setStep n v).flags = x.flags := by
  unfold Slot.setStep Slot.flags; split <;> simp

@[simp] theorem Slot.ptr_setStep (x : Slot) (n m : Nat) (v : BitVec 16) : (x.setStep n v).ptr m = x.ptr m := by
  simp [Slot.ptr]

/-! The same for the slot that runs. -/

@[simp] theorem State.cur_setAcc (s : State) (v : Word) : (s.setAcc v).cur = s.cur.setAcc v := by simp [State.setAcc]
@[simp] theorem State.cur_setFlags (s : State) (f : BitVec 7) : (s.setFlags f).cur = s.cur.setFlags f := by simp [State.setFlags]
@[simp] theorem State.cur_setPtr (s : State) (n : Nat) (v : Word) : (s.setPtr n v).cur = s.cur.setPtr n v := by
  simp [State.setPtr]
@[simp] theorem State.cur_setLc (s : State) (v : BitVec 32) : (s.setLc v).cur = { s.cur with lc := v } := by simp [State.setLc]
@[simp] theorem State.acc_setAcc (s : State) (v : Word) : (s.setAcc v).acc = v := by simp [State.acc]
@[simp] theorem State.acc_setFlags (s : State) (f : BitVec 7) : (s.setFlags f).acc = s.acc := by simp [State.acc]
@[simp] theorem State.acc_setPtr (s : State) (n : Nat) (v : Word) : (s.setPtr n v).acc = s.acc := by simp [State.acc]
@[simp] theorem State.flags_setAcc (s : State) (v : Word) : (s.setAcc v).flags = s.flags := by simp [State.flags]
@[simp] theorem State.flags_setFlags (s : State) (f : BitVec 7) : (s.setFlags f).flags = f := by simp [State.flags]
@[simp] theorem State.flags_setPtr (s : State) (n : Nat) (v : Word) : (s.setPtr n v).flags = s.flags := by simp [State.flags]
@[simp] theorem State.ptr_setAcc (s : State) (v : Word) (n : Nat) : (s.setAcc v).ptr n = s.ptr n := by simp [State.ptr]
@[simp] theorem State.ptr_setFlags (s : State) (f : BitVec 7) (n : Nat) : (s.setFlags f).ptr n = s.ptr n := by simp [State.ptr]

end Sys2Proof.Machine
end

