-- ==== Sys2Proof/Laws/Memory.lean ====
section
/-!
SUPPORT. Memory: what a byte reads as after a write, and that every memory operation keeps the canonical form.
-/
namespace Sys2Proof.Machine

/-- The keys of a list rise strictly, and no entry is what an unlisted address reads as. -/
theorem wf_iff (m : List Host.Cell) :
    Memory.wf m = true ↔ m.Pairwise (fun a b => a.1 < b.1) ∧ ∀ c ∈ m, c.2 ≠ initByte c.1 := by
  induction m with
  | nil => simp [Memory.wf]
  | cons c t ih =>
    obtain ⟨k, b⟩ := c
    cases t with
    | nil => simp [Memory.wf]
    | cons d t =>
      obtain ⟨j, e⟩ := d
      simp only [Memory.wf, Bool.and_eq_true, decide_eq_true_eq, ih, List.pairwise_cons, List.mem_cons, bne_iff_ne, ne_eq]
      constructor
      · rintro ⟨⟨h1, h2⟩, ⟨h3, h4⟩, h5⟩
        refine ⟨⟨?_, h3, h4⟩, ?_⟩
        · rintro a (rfl | ha)
          · exact h2
          · exact Nat.lt_trans h2 (h3 a ha)
        · rintro a (rfl | ha)
          · exact h1
          · exact h5 a ha
      · rintro ⟨⟨h1, h3, h4⟩, h5⟩
        exact ⟨⟨h5 _ (.inl rfl), h1 _ (.inl rfl)⟩, ⟨h3, h4⟩, fun a ha => h5 a (.inr ha)⟩

theorem wf_filter (m : List Host.Cell) (p : Host.Cell → Bool) (h : Memory.wf m = true) : Memory.wf (m.filter p) = true := by
  rw [wf_iff] at h ⊢
  exact ⟨h.1.filter p, fun c hc => h.2 c (List.mem_filter.mp hc).1⟩

theorem mem_tput {α : Type} (t : Table α) (k : Nat) (v : α) (c : Nat × α) (h : c ∈ tput t k v) : c = (k, v) ∨ c ∈ t := by
  induction t with
  | nil => simpa [tput] using h
  | cons e t ih =>
    obtain ⟨j, w⟩ := e
    simp only [tput] at h
    split at h
    · simpa using h
    · split at h <;> simp only [List.mem_cons] at h ⊢ <;> rcases h with h | h
      · exact .inl h
      · exact .inr (.inr h)
      · exact .inr (.inl h)
      · rcases ih h with h | h
        · exact .inl h
        · exact .inr (.inr h)

theorem pairwise_tput {α : Type} (t : Table α) (k : Nat) (v : α) (h : t.Pairwise fun a b => a.1 < b.1) :
    (tput t k v).Pairwise fun a b => a.1 < b.1 := by
  induction t with
  | nil => simp [tput]
  | cons e t ih =>
    obtain ⟨j, w⟩ := e
    rw [List.pairwise_cons] at h
    simp only [tput]
    split
    · next hk =>
      refine List.pairwise_cons.mpr ⟨?_, List.pairwise_cons.mpr h⟩
      rintro a ha
      rcases List.mem_cons.mp ha with rfl | ha
      · exact hk
      · exact Nat.lt_trans hk (h.1 a ha)
    · split
      · next hk => exact List.pairwise_cons.mpr ⟨fun a ha => hk ▸ h.1 a ha, h.2⟩
      · next h1 h2 =>
        refine List.pairwise_cons.mpr ⟨fun a ha => ?_, ih h.2⟩
        rcases mem_tput t k v a ha with rfl | ha
        · show j < k; omega
        · exact h.1 a ha

theorem wf_mput (m : List Host.Cell) (k : Nat) (b : Byte) (h : Memory.wf m = true) : Memory.wf (mput m k b) = true := by
  unfold mput
  split
  · exact wf_filter m _ h
  · next hb =>
    rw [wf_iff] at h ⊢
    refine ⟨pairwise_tput m k b h.1, fun c hc => ?_⟩
    rcases mem_tput m k b c hc with rfl | hc
    · exact hb
    · exact h.2 c hc

theorem wf_mputs (m : List Host.Cell) (k : Nat) (bs : List Byte) (h : Memory.wf m = true) :
    Memory.wf (mputs m k bs) = true := by
  induction bs generalizing m k with
  | nil => exact h
  | cons b bs ih => exact ih _ _ (wf_mput m k b h)

theorem wf_mclear (m : List Host.Cell) (k n : Nat) (h : Memory.wf m = true) : Memory.wf (mclear m k n) = true :=
  wf_filter m _ h

theorem wf_mscrub (m : List Host.Cell) (k n : Nat) (h : Memory.wf m = true) : Memory.wf (mscrub m k n) = true :=
  wf_mclear _ _ _ (wf_mclear m k n h)

theorem wf_putBlock (m : List Host.Cell) (k : Nat) (b : Block) (h : Memory.wf m = true) : Memory.wf (putBlock m k b) = true :=
  wf_mput _ _ _ (wf_mput _ _ _ (wf_mputs m k b.data h))

theorem wf_mwrite (m : List Host.Cell) (k n v : Nat) (h : Memory.wf m = true) : Memory.wf (mwrite m k n v) = true :=
  wf_mputs m k _ h

/-! Reading after a write. -/

theorem mget_mput (m : List Host.Cell) (k j : Nat) (b : Byte) : mget (mput m k b) j = if j = k then b else mget m j := by
  unfold mput mget
  by_cases hb : b = initByte k
  · rw [if_pos hb, tget_tdel]
    by_cases h : j = k
    · subst h; rw [if_pos rfl, if_pos rfl, hb]
    · rw [if_neg h, if_neg h]
  · rw [if_neg hb, tget_tput]

@[simp] theorem mget_mput_same (m : List Host.Cell) (k : Nat) (b : Byte) : mget (mput m k b) k = b := by
  simp [mget_mput]

theorem mget_mputs (m : List Host.Cell) (k j : Nat) (bs : List Byte) :
    mget (mputs m k bs) j = if k ≤ j ∧ j < k + bs.length then bs.getD (j - k) 0 else mget m j := by
  induction bs generalizing m k with
  | nil => rw [mputs, List.length_nil, if_neg (by omega)]
  | cons b bs ih =>
    rw [mputs, ih, mget_mput, List.length_cons]
    by_cases h : k + 1 ≤ j ∧ j < k + 1 + bs.length
    · have hj : j - k = (j - (k + 1)) + 1 := by omega
      rw [if_pos h, if_pos (by omega), hj]
      simp
    · rw [if_neg h]
      by_cases hk : j = k
      · subst hk; rw [if_pos rfl, if_pos (by omega)]; simp
      · rw [if_neg hk, if_neg (by omega)]

theorem mget_mputs_out (m : List Host.Cell) (k j : Nat) (bs : List Byte) (h : ¬(k ≤ j ∧ j < k + bs.length)) :
    mget (mputs m k bs) j = mget m j := by
  rw [mget_mputs, if_neg h]

theorem mgets_length (m : List Host.Cell) (k n : Nat) : (mgets m k n).length = n := by
  induction n generalizing k with
  | zero => rfl
  | succ n ih => simp [mgets, ih]

theorem mgets_getD (m : List Host.Cell) (k n i : Nat) (h : i < n) : (mgets m k n).getD i 0 = mget m (k + i) := by
  induction n generalizing k i with
  | zero => omega
  | succ n ih =>
    cases i with
    | zero => simp [mgets]
    | succ i =>
      simp only [mgets, List.getD_cons_succ]
      rw [ih (k + 1) i (by omega)]
      congr 1; omega

theorem getElem_as_getD (l : List Byte) (i : Nat) (h : i < l.length) : l[i] = l.getD i 0 := by simp [h]

/-- What was written is read back. -/
theorem mgets_mputs (m : List Host.Cell) (k : Nat) (bs : List Byte) : mgets (mputs m k bs) k bs.length = bs := by
  apply List.ext_getElem
  · rw [mgets_length]
  · intro i h1 h2
    rw [getElem_as_getD _ _ h1, getElem_as_getD _ _ h2, mgets_getD _ _ _ _ h2, mget_mputs, if_pos (by omega),
      Nat.add_sub_cancel_left]

theorem mgets_mputs_other (m : List Host.Cell) (k j n : Nat) (bs : List Byte) (h : j + n ≤ k ∨ k + bs.length ≤ j) :
    mgets (mputs m k bs) j n = mgets m j n := by
  induction n generalizing j with
  | zero => rfl
  | succ n ih =>
    rw [mgets, mgets, mget_mputs_out _ _ _ _ (by omega), ih (j + 1) (by omega)]

theorem leBytes_length (n v : Nat) : (leBytes n v).length = n := by
  induction n generalizing v with
  | zero => rfl
  | succ n ih => simp [leBytes, ih]

theorem leNat_leBytes (n v : Nat) : leNat (leBytes n v) = v % 2 ^ (8 * n) := by
  induction n generalizing v with
  | zero => simp [leBytes, leNat, Nat.mod_one]
  | succ n ih =>
    rw [leBytes, leNat, ih]
    have h : 2 ^ (8 * (n + 1)) = 256 * 2 ^ (8 * n) := by rw [show 8 * (n + 1) = 8 + 8 * n by omega, Nat.pow_add]
    rw [h, Nat.mod_mul]
    simp

/-- A number that was stored is read back. -/
theorem mread_mwrite (m : List Host.Cell) (k n v : Nat) : mread (mwrite m k n v) k n = v % 2 ^ (8 * n) := by
  unfold mread mwrite
  have := mgets_mputs m k (leBytes n v)
  rw [leBytes_length] at this
  rw [this, leNat_leBytes]

/-- A store leaves every byte outside it. -/
theorem mget_mwrite_out (m : List Host.Cell) (k n v j : Nat) (h : ¬(k ≤ j ∧ j < k + n)) :
    mget (mwrite m k n v) j = mget m j :=
  mget_mputs_out m k j _ (by rwa [leBytes_length])

/-- A block write leaves every byte outside the block and its descriptor. -/
theorem mget_putBlock_out (m : List Host.Cell) (k j : Nat) (b : Block) (h : ¬(k ≤ j ∧ j < k + b.data.length))
    (hf : j ≠ fmtKey k) (hs : j ≠ scaleKey k) : mget (putBlock m k b) j = mget m j := by
  unfold putBlock
  rw [mget_mput, if_neg hs, mget_mput, if_neg hf, mget_mputs_out _ _ _ _ h]

/-- A block of 64 bytes below the descriptors is read back as it was written. -/
theorem blockAt_putBlock (m : List Host.Cell) (k : Nat) (b : Block) (hl : b.data.length = 64) (hk : k + 64 ≤ descBase) :
    blockAt (putBlock m k b) k = b := by
  have hf : ∀ j < 64, k + j ≠ fmtKey k ∧ k + j ≠ scaleKey k := by
    intro j hj; unfold scaleKey fmtKey; constructor <;> omega
  have hd : mgets (putBlock m k b) k 64 = b.data := by
    apply List.ext_getElem
    · rw [mgets_length, hl]
    · intro i h1 h2
      have hi : i < 64 := by rwa [mgets_length] at h1
      rw [getElem_as_getD _ _ h1, getElem_as_getD _ _ h2, mgets_getD _ _ _ _ hi]
      unfold putBlock
      rw [mget_mput, if_neg (hf i hi).2, mget_mput, if_neg (hf i hi).1, mget_mputs, if_pos (by omega),
        Nat.add_sub_cancel_left]
  have hn : fmtKey k ≠ scaleKey k := by unfold scaleKey; omega
  have hfm : mget (putBlock m k b) (fmtKey k) = b.fmt := by
    unfold putBlock; rw [mget_mput, if_neg hn, mget_mput_same]
  have hsc : mget (putBlock m k b) (scaleKey k) = b.scale := by
    unfold putBlock; rw [mget_mput_same]
  unfold blockAt
  rw [hd, hfm, hsc]

end Sys2Proof.Machine
end

