-- ==== Sys2Proof/Laws/Frame.lean ====
section
/-!
SUPPORT. The frames of the shared operations: what reading an operand, completing and setting a register leave as they were.
-/
namespace Sys2Proof.Machine

theorem SameBytes.refl (s : State) : SameBytes s s := fun _ => .inl rfl

/-- A byte that stays as it was through two states, the second with no error that the first has not. -/
theorem SameByte.trans {s t u : State} {k : Nat} (h : SameByte s t k) (f : ∀ e ∈ t.flaws, e ∈ s.flaws) (h' : SameByte t u k) :
    SameByte s u k := by
  obtain e | ⟨⟨x, hx, hx2⟩, e⟩ := h'
  · obtain e' | ⟨hs, e'⟩ := h
    · exact .inl (e.trans e')
    · exact .inr ⟨hs, e.trans e'⟩
  · exact .inr ⟨⟨x, f x hx, hx2⟩, e⟩

theorem SameBytes.trans {s t u : State} (h : SameBytes s t) (f : ∀ e ∈ t.flaws, e ∈ s.flaws) (k : SameBytes t u) :
    SameBytes s u := fun j => (h j).trans f (k j)

/-- Equal memories read alike. -/
theorem SameBytes.of_mem {s t : State} (h : t.mem = s.mem) : SameBytes s t := fun k => .inl (by rw [h])

theorem Kept.refl (s : State) : Kept s s := ⟨rfl, rfl, fun _ _ _ => rfl, fun _ => rfl, fun _ => rfl, rfl, rfl, rfl⟩

theorem Kept.trans {s t u : State} (h : Kept s t) (k : Kept t u) : Kept s u where
  curCore := k.curCore.trans h.curCore
  curSlot := k.curSlot.trans h.curSlot
  slots g n o := (k.slots g n (by rw [h.curCore, h.curSlot]; exact o)).trans (h.slots g n o)
  cores g := (k.cores g).trans (h.cores g)
  clusters n := (k.clusters n).trans (h.clusters n)
  leases := k.leases.trans h.leases
  entries := k.entries.trans h.entries
  gangs := k.gangs.trans h.gangs

/-- States that differ only outside the cores, the clusters, the leases, the entries and the gangs. -/
theorem Kept.of_fields {s t : State} (h1 : t.curCore = s.curCore) (h2 : t.curSlot = s.curSlot) (h3 : t.cores = s.cores)
    (h4 : t.clusters = s.clusters) (h5 : t.leases = s.leases) (h6 : t.entries = s.entries) (h7 : t.gangs = s.gangs) :
    Kept s t where
  curCore := h1
  curSlot := h2
  slots g k _ := by simp only [State.slot, State.core, h3]
  cores g := by simp only [State.core, h3]
  clusters n := by simp only [State.cluster, h4]
  leases := h5
  entries := h6
  gangs := h7

/-- Writing the slot that runs. -/
theorem Kept.setCur (s : State) (x : Slot) : Kept s (s.setCur x) where
  curCore := rfl
  curSlot := rfl
  slots g k o := State.slot_setCur_other s x o
  cores g := by
    by_cases h : g = s.curCore
    · subst h; simp
    · rw [State.core_setCur_other s x h]
  clusters n := rfl
  leases := rfl
  entries := rfl
  gangs := rfl

theorem Kept.setPtr (s : State) (n : Nat) (v : Word) : Kept s (s.setPtr n v) := Kept.setCur s _

theorem Kept.setAcc (s : State) (v : Word) : Kept s (s.setAcc v) := Kept.setCur s _

theorem Kept.setFlags (s : State) (f : BitVec 7) : Kept s (s.setFlags f) := Kept.setCur s _

/-- Writing a queue of a core. -/
theorem Kept.setQueue (s : State) (g k : Nat) (l : List Word) : Kept s (s.setQueue g k l) where
  curCore := rfl
  curSlot := rfl
  slots h j _ := by
    simp only [State.setQueue, State.slot, State.core_setCore]
    split
    · next e => subst e; rfl
    · rfl
  cores h := by
    simp only [State.setQueue, State.core_setCore]
    split
    · next e => subst e; rfl
    · rfl
  clusters n := rfl
  leases := rfl
  entries := rfl
  gangs := rfl

/-- Writing a ring of a cluster. -/
theorem Kept.setRing (s : State) (g i : Nat) (l : List Word) : Kept s (s.setRing g i l) where
  curCore := rfl
  curSlot := rfl
  slots _ _ _ := rfl
  cores _ := rfl
  clusters n := by
    simp only [State.setRing, State.cluster_setCluster]
    split
    · next e => subst e; rfl
    · rfl
  leases := rfl
  entries := rfl
  gangs := rfl

@[simp] theorem State.cur_setQueue (s : State) (g k : Nat) (l : List Word) : (s.setQueue g k l).cur = s.cur := by
  simp only [State.setQueue, State.cur, State.slot, State.setCore_curCore, State.setCore_curSlot, State.core_setCore]
  split
  · next e => subst e; rfl
  · rfl

@[simp] theorem State.cur_setRing (s : State) (g i : Nat) (l : List Word) : (s.setRing g i l).cur = s.cur := rfl

/-- What an access or a check leaves that only looks: the registers of the slot that runs too, every byte but for the errors of memory
it finds, and no error that was not there. -/
structure Looked (s t : State) : Prop where
  kept  : Kept s t
  cur   : t.cur = s.cur
  bytes : SameBytes s t
  flaws : ∀ e ∈ t.flaws, e ∈ s.flaws

theorem Looked.refl (s : State) : Looked s s := ⟨Kept.refl s, rfl, SameBytes.refl s, fun _ h => h⟩

theorem Looked.trans {s t u : State} (h : Looked s t) (k : Looked t u) : Looked s u :=
  ⟨h.kept.trans k.kept, k.cur.trans h.cur, h.bytes.trans h.flaws k.bytes, fun e x => h.flaws e (k.flaws e x)⟩

/-- States that differ in none of the fields that a frame speaks of. -/
theorem Looked.of_fields {s t : State} (h1 : t.curCore = s.curCore) (h2 : t.curSlot = s.curSlot) (h3 : t.cores = s.cores)
    (h4 : t.clusters = s.clusters) (h5 : t.leases = s.leases) (h6 : t.entries = s.entries) (h7 : t.gangs = s.gangs)
    (h8 : t.mem = s.mem) (h9 : t.flaws = s.flaws) : Looked s t :=
  ⟨Kept.of_fields h1 h2 h3 h4 h5 h6 h7, by simp only [State.cur, State.slot, State.core, h1, h2, h3], SameBytes.of_mem h8,
    fun e h => h9 ▸ h⟩

theorem Looked.clear (s : State) : Looked s s.clear := Looked.of_fields rfl rfl rfl rfl rfl rfl rfl rfl rfl

theorem Looked.note (s : State) (r : Reply) : Looked s (s.note r) := Looked.of_fields rfl rfl rfl rfl rfl rfl rfl rfl rfl

/-! What a counted access, a cached line and an error of memory leave. -/

theorem Looked.charge (s : State) (e : PageEntry) : Looked s (s.charge e) := by
  unfold State.charge
  dsimp only
  repeat' split
  all_goals exact Looked.of_fields rfl rfl rfl rfl rfl rfl rfl rfl rfl

theorem Looked.fillCache (s : State) (d c va : Nat) (b : Block) : Looked s (s.fillCache d c va b) :=
  Looked.of_fields rfl rfl rfl rfl rfl rfl rfl rfl rfl

theorem Looked.memoryError (s : State) (c k : Nat) : Looked s (s.memoryError c k) := by
  unfold State.memoryError State.memoryErrorOf
  dsimp only
  split
  · exact Looked.of_fields rfl rfl rfl rfl rfl rfl rfl rfl rfl
  · exact Looked.refl s

/-- The flaws of a list that are past correction are found, one after another: only their scales change. -/
theorem foundFlaw_all (c : Nat) (l : List (Nat × Bool)) (s : State) :
    Kept s (l.foldl (State.foundFlaw c) s) ∧ (l.foldl (State.foundFlaw c) s).cur = s.cur ∧
    (l.foldl (State.foundFlaw c) s).flaws = s.flaws ∧
    ∀ k, mget (l.foldl (State.foundFlaw c) s).mem k = mget s.mem k ∨
      (∃ f ∈ l, k = scaleKey f.1) ∧ mget (l.foldl (State.foundFlaw c) s).mem k = 255 := by
  induction l generalizing s with
  | nil => exact ⟨Kept.refl s, rfl, rfl, fun _ => .inl rfl⟩
  | cons f l ih =>
    let t : State := { s with mem := mput s.mem (scaleKey f.1) 255 }
    have h1 : Looked t (s.foundFlaw c f) := Looked.memoryError t c f.1
    have hf : (s.foundFlaw c f).flaws = s.flaws := by
      unfold State.foundFlaw State.memoryError State.memoryErrorOf; dsimp only; split <;> rfl
    have hm : (s.foundFlaw c f).mem = mput s.mem (scaleKey f.1) 255 := by
      unfold State.foundFlaw State.memoryError State.memoryErrorOf; dsimp only; split <;> rfl
    have h2 : Kept s t := Kept.of_fields rfl rfl rfl rfl rfl rfl rfl
    obtain ⟨a1, a2, a3, a4⟩ := ih (s.foundFlaw c f)
    refine ⟨(h2.trans h1.kept).trans a1, a2.trans h1.cur, a3.trans hf, fun k => ?_⟩
    have hk : mget (s.foundFlaw c f).mem k = if k = scaleKey f.1 then 255 else mget s.mem k := by rw [hm, mget_mput]
    obtain e | ⟨⟨g, hg, hg2⟩, e⟩ := a4 k
    · by_cases hs : k = scaleKey f.1
      · exact .inr ⟨⟨f, by simp, hs⟩, e.trans (by rw [hk, if_pos hs])⟩
      · exact .inl (e.trans (by rw [hk, if_neg hs]))
    · exact .inr ⟨⟨g, by simp [hg], hg2⟩, e⟩

/-- A READ finds the uncorrectable errors of what it reads (09 R191, R193). -/
theorem Looked.sense (s : State) (c k n : Nat) : Looked s (s.sense c k n) := by
  obtain ⟨a1, a2, a3, a4⟩ := foundFlaw_all c (s.flaws.filter fun f => f.2 && onFlaw k n f)
    { s with flaws := s.flaws.filter fun f => !(f.2 && onFlaw k n f) }
  have h0 : Kept s { s with flaws := s.flaws.filter fun f => !(f.2 && onFlaw k n f) } := Kept.of_fields rfl rfl rfl rfl rfl rfl rfl
  refine ⟨h0.trans a1, a2, fun j => ?_, fun e h => ?_⟩
  · obtain e | ⟨⟨f, hf, hf2⟩, e⟩ := a4 j
    · exact .inl e
    · refine .inr ⟨⟨f, (List.mem_filter.mp hf).1, ?_, hf2⟩, e⟩
      have := (List.mem_filter.mp hf).2
      revert this; cases f.2 <;> simp
  · rw [State.sense, a3] at h
    exact (List.mem_filter.mp h).1

/-! Operands. -/

/-- Evaluating a specifier steps at most its pointer (03 R27 to R29). -/
theorem Kept.operand (s : State) (sp : Spec) (i : Int) (size : Nat) : Kept s (s.operand sp i size).1 := by
  cases sp <;> first | exact Kept.refl s | exact Kept.setPtr s _ _

@[simp] theorem State.operand_mem (s : State) (sp : Spec) (i : Int) (size : Nat) : (s.operand sp i size).1.mem = s.mem := by
  cases sp <;> rfl

@[simp] theorem State.operand_flaws (s : State) (sp : Spec) (i : Int) (size : Nat) :
    (s.operand sp i size).1.flaws = s.flaws := by
  cases sp <;> rfl

theorem bind_ok {ε α β : Type} {x : Except ε α} {f : α → Except ε β} {b : β} (h : x >>= f = .ok b) :
    ∃ a, x = .ok a ∧ f a = .ok b := by
  cases x with
  | error e => cases h
  | ok a => exact ⟨a, rfl, h⟩

theorem map_ok {ε α β : Type} {x : Except ε α} {f : α → β} {b : β} (h : x.map f = .ok b) : ∃ a, x = .ok a ∧ f a = b := by
  cases x with
  | error e => cases h
  | ok a => cases h; exact ⟨a, rfl, rfl⟩

/-- Reading a port takes entries from it and leaves the slot as it was (03 R32). -/
theorem popPort_looked {s t : State} {p n : Nat} {ws : List Word} (h : s.popPort p n = .ok (t, ws)) : Looked s t := by
  unfold State.popPort at h
  dsimp only at h
  split at h
  · cases h
  · cases h
    split
    · exact ⟨Kept.setQueue .., State.cur_setQueue .., SameBytes.of_mem rfl, fun _ h => h⟩
    · exact ⟨Kept.setRing .., State.cur_setRing .., SameBytes.of_mem rfl, fun _ h => h⟩

/-- Writing a port adds entries to it and leaves the slot as it was (03 R32). -/
theorem pushPort_looked {s t : State} {p : Nat} {ws : List Word} (h : s.pushPort p ws = .ok t) : Looked s t := by
  unfold State.pushPort at h
  dsimp only at h
  split at h
  · cases h
  · cases h
    split
    · exact ⟨Kept.setQueue .., State.cur_setQueue .., SameBytes.of_mem rfl, fun _ h => h⟩
    · exact ⟨Kept.setRing .., State.cur_setRing .., SameBytes.of_mem rfl, fun _ h => h⟩

/-- An instruction whose ports can complete claims them and changes nothing else (03 R32). -/
theorem needPorts_looked {s t : State} {us : List PortUse} (h : s.needPorts us = .ok t) : Looked s t := by
  unfold State.needPorts at h
  dsimp only at h
  repeat' split at h
  all_goals first
    | cases h; exact Looked.of_fields rfl rfl rfl rfl rfl rfl rfl rfl rfl
    | cases h

/-- What an access does that completes: it has the answer from the log, or makes the access now. -/
theorem access_looked {s t : State} {p : Option (Reason × Resource)} {now : State → State × Reply} {r : Reply}
    (h : s.access p now = .ok (t, r)) (k : Looked s (now s).1) : Looked s t := by
  unfold State.access at h
  dsimp only at h
  repeat' split at h
  all_goals first
    | cases h; first
      | exact Looked.note s _
      | exact k.trans (Looked.note _ _)
    | cases h

/-- An address that is accepted leaves all as it was (04 R51). -/
theorem locate_looked {s t : State} {a : Word} {size align : Nat} {k : AccKind} {al : Nat → Bool} {o n : Bool} {l : Loc}
    (h : s.locate a size align k al o n = .ok (t, l)) : Looked s t := by
  unfold State.locate State.touched at h
  repeat' split at h
  all_goals first
    | cases h; exact Looked.note s _
    | cases h

/-- A read through a station finds the line it holds, or looks and then holds it (09 R169). -/
theorem lineRead_looked {s : State} {die va : Nat} {e : PageEntry} {fresh : State → State × Block} (k : Looked s (fresh s).1) :
    Looked s (s.lineRead die e va fresh).1 := by
  unfold State.lineRead
  repeat' split
  all_goals first
    | exact Looked.refl s
    | exact k.trans (Looked.fillCache ..)
    | exact k

/-- The block behind a route is read without any change to registers (09 R169, R172). -/
theorem readRoute_looked {s t : State} {r : Route} {e : PageEntry} {va : Nat} {b : Block}
    (h : s.readRoute r e va = .ok (t, b)) : Looked s t := by
  unfold State.readRoute at h
  cases r with
  | here pa =>
    obtain ⟨x, h1, h2⟩ := map_ok h
    cases h2
    exact access_looked h1 (lineRead_looked ((Looked.charge s e).trans (Looked.sense _ _ _ _)))
  | host l a =>
    obtain ⟨x, h1, h2⟩ := map_ok h
    cases h2
    exact access_looked h1 (lineRead_looked (Looked.charge s e))
  | chip c pa =>
    dsimp only at h
    repeat' split at h
    all_goals first
      | obtain ⟨x, h1, h2⟩ := map_ok h
        cases h2
        exact access_looked h1 (Looked.refl s)
      | cases h

/-- A load changes no register (04 R51, R59). -/
theorem loadLoc_looked {s t : State} {a : Word} {size v : Nat} {l : Loc} (h : s.loadLoc a size l = .ok (t, v)) : Looked s t := by
  cases l with
  | sys n =>
    unfold State.loadLoc at h
    dsimp only at h
    split at h
    · cases h; exact Looked.note s _
    · obtain ⟨w, -, e⟩ := map_ok h
      cases e; exact Looked.note s _
  | buf win b g off =>
    obtain ⟨x, h1, h2⟩ := map_ok h
    cases h2
    exact access_looked h1 (Looked.sense ..)
  | glob r e va =>
    obtain ⟨⟨u, b⟩, h1, h2⟩ := bind_ok h
    dsimp only at h2
    split at h2
    · cases h2
    · cases h2; exact readRoute_looked h1

theorem load_looked {s t : State} {a : Word} {size v : Nat} (h : s.load a size = .ok (t, v)) : Looked s t := by
  obtain ⟨⟨u, l⟩, h1, h2⟩ := bind_ok h
  exact (locate_looked h1).trans (loadLoc_looked h2)

/-- Reading through an operand changes no register (04 R50). -/
theorem readRef_looked {s t : State} {r : Ref} {size : Nat} {x : Word} (h : s.readRef r size = .ok (t, x)) : Looked s t := by
  cases r with
  | ptr n => cases h; exact Looked.refl s
  | acc => cases h; exact Looked.refl s
  | imm v => cases h; exact Looked.refl s
  | mem a =>
    obtain ⟨w, h1, h2⟩ := map_ok h
    cases h2
    exact load_looked h1
  | port p =>
    obtain ⟨w, h1, h2⟩ := map_ok h
    cases h2
    exact popPort_looked (ws := w.2) h1

/-- Reading a scalar source steps at most its pointer, pops at most its port, and leaves the rest (03 R27 to R34, 04 R50). -/
theorem source_looked {s t : State} {sp : Spec} {i : Int} {size : Nat} {x : Word} (h : s.source sp i size = .ok (t, x)) :
    Looked (s.operand sp i size).1 t := by
  obtain ⟨u, h1, h2⟩ := bind_ok h
  exact (needPorts_looked h1).trans (readRef_looked h2)

theorem source_kept {s t : State} {sp : Spec} {i : Int} {size : Nat} {x : Word} (h : s.source sp i size = .ok (t, x)) :
    Kept s t ∧ t.cur = (s.operand sp i size).1.cur ∧ SameBytes s t := by
  have k := source_looked h
  refine ⟨(Kept.operand s sp i size).trans k.kept, k.cur, fun j => ?_⟩
  have := k.bytes j
  simpa only [SameByte, State.spoilt, State.operand_mem, State.operand_flaws] using this

/-- What stepping a pointer leaves of its slot. -/
theorem operand_cur (s : State) (sp : Spec) (i : Int) (size : Nat) :
    ∃ n v, (s.operand sp i size).1.cur = s.cur ∨ (s.operand sp i size).1.cur = s.cur.setPtr n v := by
  cases sp <;> first
    | exact ⟨0, 0, .inl rfl⟩
    | exact ⟨_, _, .inr (State.cur_setPtr ..)⟩

theorem operand_cur_acc (s : State) (sp : Spec) (i : Int) (size : Nat) : (s.operand sp i size).1.cur.acc = s.cur.acc := by
  obtain ⟨n, v, h | h⟩ := operand_cur s sp i size <;> simp [h]

theorem operand_cur_flags (s : State) (sp : Spec) (i : Int) (size : Nat) :
    (s.operand sp i size).1.cur.flags = s.cur.flags := by
  obtain ⟨n, v, h | h⟩ := operand_cur s sp i size <;> simp [h]

theorem operand_cur_live (s : State) (sp : Spec) (i : Int) (size : Nat) : (s.operand sp i size).1.cur.live = s.cur.live := by
  obtain ⟨n, v, h | h⟩ := operand_cur s sp i size <;> simp [h]

theorem operand_cur_priv (s : State) (sp : Spec) (i : Int) (size : Nat) : (s.operand sp i size).1.cur.priv = s.cur.priv := by
  obtain ⟨n, v, h | h⟩ := operand_cur s sp i size <;> simp [h]

theorem operand_cur_pc (s : State) (sp : Spec) (i : Int) (size : Nat) : (s.operand sp i size).1.cur.pc = s.cur.pc := by
  obtain ⟨n, v, h | h⟩ := operand_cur s sp i size <;> simp [h]

/-! Completion. -/

/-- A live slot that completes: pc past the word, its spacing begins, its park is over. -/
theorem complete_cur (s : State) (len delay : Nat) (h : s.cur.live = true) :
    (s.complete len delay).cur = s.cur.done s.curCoreOf.cycle len delay := by
  rw [State.complete, if_pos h]
  exact State.cur_setCur s _

theorem Kept.complete (s : State) (len delay : Nat) : Kept s (s.complete len delay) := by
  unfold State.complete
  split
  · exact (Kept.setCur s _).trans (Looked.clear _).kept
  · exact (Looked.clear s).kept

@[simp] theorem State.complete_mem (s : State) (len delay : Nat) : (s.complete len delay).mem = s.mem := by
  unfold State.complete; split <;> rfl

/-- The cycle of a core that is kept. -/
theorem Kept.cycle {s t : State} (h : Kept s t) : t.curCoreOf.cycle = s.curCoreOf.cycle := by
  have e := congrArg Core.cycle (h.cores s.curCore)
  simpa [State.curCoreOf, h.curCore] using e

end Sys2Proof.Machine
end

