-- ==== Sys2Proof/Laws/PerInstr.lean ====
section
/-!
SUPPORT. Statements about every instruction, one lemma for each constructor. EncodedLength: bit 0 of the first byte says how
long the word is (03 R19).
-/
namespace Sys2Proof.Laws.EncodedLength

/-- A word is 32 bits long when bit 0 of its first byte is 1, else 16; an event row has no word. -/
def Statement (i : Instr) : Prop :=
  match (encode i).bytes with
  | [] => True
  | b :: bs => bs.length = if b.getLsbD 0 then 3 else 1

theorem of_none {i : Instr} (h : encode i = .none) : Statement i := by
  simp [Statement, h, Encoded.bytes]

theorem of_full {i : Instr} (x : BitVec 31) (h : encode i = .full (x ++ 1#1)) : Statement i := by
  have e : (x ++ 1#1).getLsbD 0 = true := by rw [BitVec.getLsbD_append]; rfl
  simp [Statement, h, Encoded.bytes, leBytes]
  exact e

theorem of_short {i : Instr} (x : BitVec 14) (y : BitVec 2) (hy : y.getLsbD 0 = false) (h : encode i = .half (x ++ y)) :
    Statement i := by
  have e : (x ++ y).getLsbD 0 = false := by rw [BitVec.getLsbD_append]; simpa using hy
  simp [Statement, h, Encoded.bytes, leBytes]
  exact e

theorem add : ∀ sp im, Statement (.add sp im) := fun _ _ => of_full _ rfl
theorem adc : ∀ sp im, Statement (.adc sp im) := fun _ _ => of_full _ rfl
theorem sub : ∀ sp im, Statement (.sub sp im) := fun _ _ => of_full _ rfl
theorem sbc : ∀ sp im, Statement (.sbc sp im) := fun _ _ => of_full _ rfl
theorem rsub : ∀ sp im, Statement (.rsub sp im) := fun _ _ => of_full _ rfl
theorem and : ∀ sp im, Statement (.and sp im) := fun _ _ => of_full _ rfl
theorem or : ∀ sp im, Statement (.or sp im) := fun _ _ => of_full _ rfl
theorem xor : ∀ sp im, Statement (.xor sp im) := fun _ _ => of_full _ rfl
theorem andn : ∀ sp im, Statement (.andn sp im) := fun _ _ => of_full _ rfl
theorem shl : ∀ sp im, Statement (.shl sp im) := fun _ _ => of_full _ rfl
theorem shr : ∀ sp im, Statement (.shr sp im) := fun _ _ => of_full _ rfl
theorem sar : ∀ sp im, Statement (.sar sp im) := fun _ _ => of_full _ rfl
theorem rol : ∀ sp im, Statement (.rol sp im) := fun _ _ => of_full _ rfl
theorem min : ∀ sp im, Statement (.min sp im) := fun _ _ => of_full _ rfl
theorem max : ∀ sp im, Statement (.max sp im) := fun _ _ => of_full _ rfl
theorem minn : ∀ sp im, Statement (.minn sp im) := fun _ _ => of_full _ rfl
theorem maxn : ∀ sp im, Statement (.maxn sp im) := fun _ _ => of_full _ rfl
theorem cmp : ∀ sp im, Statement (.cmp sp im) := fun _ _ => of_full _ rfl
theorem tst : ∀ sp im, Statement (.tst sp im) := fun _ _ => of_full _ rfl
theorem neg : ∀ sp im, Statement (.neg sp im) := fun _ _ => of_full _ rfl
theorem not : ∀ sp im, Statement (.not sp im) := fun _ _ => of_full _ rfl
theorem mul : ∀ sp im, Statement (.mul sp im) := fun _ _ => of_full _ rfl
theorem mulh : ∀ sp im, Statement (.mulh sp im) := fun _ _ => of_full _ rfl
theorem mulhn : ∀ sp im, Statement (.mulhn sp im) := fun _ _ => of_full _ rfl
theorem div : ∀ sp im, Statement (.div sp im) := fun _ _ => of_full _ rfl
theorem divn : ∀ sp im, Statement (.divn sp im) := fun _ _ => of_full _ rfl
theorem rem : ∀ sp im, Statement (.rem sp im) := fun _ _ => of_full _ rfl
theorem remn : ∀ sp im, Statement (.remn sp im) := fun _ _ => of_full _ rfl
theorem clz : ∀ sp im, Statement (.clz sp im) := fun _ _ => of_full _ rfl
theorem ctz : ∀ sp im, Statement (.ctz sp im) := fun _ _ => of_full _ rfl
theorem popc : ∀ sp im, Statement (.popc sp im) := fun _ _ => of_full _ rfl
theorem bswap : ∀ sp im, Statement (.bswap sp im) := fun _ _ => of_full _ rfl
theorem sext : ∀ sp im, Statement (.sext sp im) := fun _ _ => of_full _ rfl
theorem zext : ∀ sp im, Statement (.zext sp im) := fun _ _ => of_full _ rfl
theorem bext : ∀ sp im, Statement (.bext sp im) := fun _ _ => of_full _ rfl
theorem bins : ∀ sp im, Statement (.bins sp im) := fun _ _ => of_full _ rfl
theorem ldB : ∀ sp im, Statement (.ldB sp im) := fun _ _ => of_full _ rfl
theorem ldH : ∀ sp im, Statement (.ldH sp im) := fun _ _ => of_full _ rfl
theorem ldW : ∀ sp im, Statement (.ldW sp im) := fun _ _ => of_full _ rfl
theorem ldD : ∀ sp im, Statement (.ldD sp im) := fun _ _ => of_full _ rfl
theorem ldSb : ∀ sp im, Statement (.ldSb sp im) := fun _ _ => of_full _ rfl
theorem ldSh : ∀ sp im, Statement (.ldSh sp im) := fun _ _ => of_full _ rfl
theorem ldSw : ∀ sp im, Statement (.ldSw sp im) := fun _ _ => of_full _ rfl
theorem stB : ∀ sp im, Statement (.stB sp im) := fun _ _ => of_full _ rfl
theorem stH : ∀ sp im, Statement (.stH sp im) := fun _ _ => of_full _ rfl
theorem stW : ∀ sp im, Statement (.stW sp im) := fun _ _ => of_full _ rfl
theorem stD : ∀ sp im, Statement (.stD sp im) := fun _ _ => of_full _ rfl
theorem xch : ∀ sp im, Statement (.xch sp im) := fun _ _ => of_full _ rfl
theorem lea : ∀ sp im, Statement (.lea sp im) := fun _ _ => of_full _ rfl
theorem li : ∀ d im, Statement (.li d im) := fun _ _ => of_full _ rfl
theorem lsh : ∀ d im, Statement (.lsh d im) := fun _ _ => of_full _ rfl
theorem addi : ∀ d im, Statement (.addi d im) := fun _ _ => of_full _ rfl
theorem pstep : ∀ n im, Statement (.pstep n im) := fun _ _ => of_full _ rfl
theorem padd : ∀ n, Statement (.padd n) := fun _ => of_full _ rfl
theorem pspc : ∀ n, Statement (.pspc n) := fun _ => of_full _ rfl
theorem pinc : ∀ n, Statement (.pinc n) := fun _ => of_full _ rfl
theorem sget : ∀ n, Statement (.sget n) := fun _ => of_full _ rfl
theorem b : ∀ d, Statement (.b d) := fun _ => of_full _ rfl
theorem bz : ∀ d, Statement (.bz d) := fun _ => of_full _ rfl
theorem bnz : ∀ d, Statement (.bnz d) := fun _ => of_full _ rfl
theorem bn : ∀ d, Statement (.bn d) := fun _ => of_full _ rfl
theorem bnn : ∀ d, Statement (.bnn d) := fun _ => of_full _ rfl
theorem bc : ∀ d, Statement (.bc d) := fun _ => of_full _ rfl
theorem bnc : ∀ d, Statement (.bnc d) := fun _ => of_full _ rfl
theorem bv : ∀ d, Statement (.bv d) := fun _ => of_full _ rfl
theorem bnv : ∀ d, Statement (.bnv d) := fun _ => of_full _ rfl
theorem bf : ∀ d, Statement (.bf d) := fun _ => of_full _ rfl
theorem bnf : ∀ d, Statement (.bnf d) := fun _ => of_full _ rfl
theorem bgt : ∀ d, Statement (.bgt d) := fun _ => of_full _ rfl
theorem ble : ∀ d, Statement (.ble d) := fun _ => of_full _ rfl
theorem bge : ∀ d, Statement (.bge d) := fun _ => of_full _ rfl
theorem blt : ∀ d, Statement (.blt d) := fun _ => of_full _ rfl
theorem call : ∀ d, Statement (.call d) := fun _ => of_full _ rfl
theorem loop : ∀ d, Statement (.loop d) := fun _ => of_full _ rfl
theorem jmp : ∀ sp im, Statement (.jmp sp im) := fun _ _ => of_full _ rfl
theorem jsr : ∀ sp im, Statement (.jsr sp im) := fun _ _ => of_full _ rfl
theorem lcset : ∀ sp im, Statement (.lcset sp im) := fun _ _ => of_full _ rfl
theorem start : ∀ sp im, Statement (.start sp im) := fun _ _ => of_full _ rfl
theorem idr : ∀ n, Statement (.idr n) := fun _ => of_full _ rfl
theorem vadd : ∀ d a b, Statement (.vadd d a b) := fun _ _ _ => of_full _ rfl
theorem vsub : ∀ d a b, Statement (.vsub d a b) := fun _ _ _ => of_full _ rfl
theorem vmul : ∀ d a b, Statement (.vmul d a b) := fun _ _ _ => of_full _ rfl
theorem vfma : ∀ d a b, Statement (.vfma d a b) := fun _ _ _ => of_full _ rfl
theorem vfms : ∀ d a b, Statement (.vfms d a b) := fun _ _ _ => of_full _ rfl
theorem vmin : ∀ d a b, Statement (.vmin d a b) := fun _ _ _ => of_full _ rfl
theorem vmax : ∀ d a b, Statement (.vmax d a b) := fun _ _ _ => of_full _ rfl
theorem vabs : ∀ d a, Statement (.vabs d a) := fun _ _ => of_full _ rfl
theorem vneg : ∀ d a, Statement (.vneg d a) := fun _ _ => of_full _ rfl
theorem vaxpy : ∀ d a b, Statement (.vaxpy d a b) := fun _ _ _ => of_full _ rfl
theorem vscl : ∀ d a, Statement (.vscl d a) := fun _ _ => of_full _ rfl
theorem vdiv : ∀ d a b, Statement (.vdiv d a b) := fun _ _ _ => of_full _ rfl
theorem vsqrt : ∀ d a, Statement (.vsqrt d a) := fun _ _ => of_full _ rfl
theorem vand : ∀ d a b, Statement (.vand d a b) := fun _ _ _ => of_full _ rfl
theorem vor : ∀ d a b, Statement (.vor d a b) := fun _ _ _ => of_full _ rfl
theorem vxor : ∀ d a b, Statement (.vxor d a b) := fun _ _ _ => of_full _ rfl
theorem vandn : ∀ d a b, Statement (.vandn d a b) := fun _ _ _ => of_full _ rfl
theorem vshl : ∀ d a b, Statement (.vshl d a b) := fun _ _ _ => of_full _ rfl
theorem vshr : ∀ d a b, Statement (.vshr d a b) := fun _ _ _ => of_full _ rfl
theorem vsar : ∀ d a b, Statement (.vsar d a b) := fun _ _ _ => of_full _ rfl
theorem vceq : ∀ d a b, Statement (.vceq d a b) := fun _ _ _ => of_full _ rfl
theorem vclt : ∀ d a b, Statement (.vclt d a b) := fun _ _ _ => of_full _ rfl
theorem vcle : ∀ d a b, Statement (.vcle d a b) := fun _ _ _ => of_full _ rfl
theorem vsel : ∀ d a b, Statement (.vsel d a b) := fun _ _ _ => of_full _ rfl
theorem vmov : ∀ d a, Statement (.vmov d a) := fun _ _ => of_full _ rfl
theorem vbcast : ∀ d a, Statement (.vbcast d a) := fun _ _ => of_full _ rfl
theorem vmsk : ∀ a, Statement (.vmsk a) := fun _ => of_full _ rfl
theorem vexp2 : ∀ d a, Statement (.vexp2 d a) := fun _ _ => of_full _ rfl
theorem vlog2 : ∀ d a, Statement (.vlog2 d a) := fun _ _ => of_full _ rfl
theorem vrcp : ∀ d a, Statement (.vrcp d a) := fun _ _ => of_full _ rfl
theorem vrsqrt : ∀ d a, Statement (.vrsqrt d a) := fun _ _ => of_full _ rfl
theorem vsinpi : ∀ d a, Statement (.vsinpi d a) := fun _ _ => of_full _ rfl
theorem vcospi : ∀ d a, Statement (.vcospi d a) := fun _ _ => of_full _ rfl
theorem vtanh : ∀ d a, Statement (.vtanh d a) := fun _ _ => of_full _ rfl
theorem vsigm : ∀ d a, Statement (.vsigm d a) := fun _ _ => of_full _ rfl
theorem verf : ∀ d a, Statement (.verf d a) := fun _ _ => of_full _ rfl
theorem vradd : ∀ d a, Statement (.vradd d a) := fun _ _ => of_full _ rfl
theorem vrmax : ∀ d a, Statement (.vrmax d a) := fun _ _ => of_full _ rfl
theorem vrmin : ∀ d a, Statement (.vrmin d a) := fun _ _ => of_full _ rfl
theorem vdot : ∀ d a b, Statement (.vdot d a b) := fun _ _ _ => of_full _ rfl
theorem vperm : ∀ d a b, Statement (.vperm d a b) := fun _ _ _ => of_full _ rfl
theorem vgath : ∀ d a b, Statement (.vgath d a b) := fun _ _ _ => of_full _ rfl
theorem vscat : ∀ d a b, Statement (.vscat d a b) := fun _ _ _ => of_full _ rfl
theorem vcmpr : ∀ d a, Statement (.vcmpr d a) := fun _ _ => of_full _ rfl
theorem vcvt : ∀ d a, Statement (.vcvt d a) := fun _ _ => of_full _ rfl
theorem vscal : ∀ d a, Statement (.vscal d a) := fun _ _ => of_full _ rfl
theorem vqnt : ∀ d a b, Statement (.vqnt d a b) := fun _ _ _ => of_full _ rfl
theorem vdeq : ∀ d a b, Statement (.vdeq d a b) := fun _ _ _ => of_full _ rfl
theorem vpack : ∀ d a, Statement (.vpack d a) := fun _ _ => of_full _ rfl
theorem vunpk : ∀ d a, Statement (.vunpk d a) := fun _ _ => of_full _ rfl
theorem dget : ∀ sp im, Statement (.dget sp im) := fun _ _ => of_full _ rfl
theorem dset : ∀ sp im, Statement (.dset sp im) := fun _ _ => of_full _ rfl
theorem dchk : ∀ sp im, Statement (.dchk sp im) := fun _ _ => of_full _ rfl
theorem fset : ∀ sp im, Statement (.fset sp im) := fun _ _ => of_full _ rfl
theorem qsub : ∀ k sp im, Statement (.qsub k sp im) := fun _ _ _ => of_full _ rfl
theorem qstat : ∀ k, Statement (.qstat k) := fun _ => of_full _ rfl
theorem tld : ∀ x p n, Statement (.tld x p n) := fun _ _ _ => of_full _ rfl
theorem tstTile : ∀ x p n, Statement (.tstTile x p n) := fun _ _ _ => of_full _ rfl
theorem tcfg : ∀ x, Statement (.tcfg x) := fun _ => of_full _ rfl
theorem tcfr : ∀ x, Statement (.tcfr x) := fun _ => of_full _ rfl
theorem tzero : ∀ x, Statement (.tzero x) := fun _ => of_full _ rfl
theorem tmov : ∀ x y, Statement (.tmov x y) := fun _ _ => of_full _ rfl
theorem mm : ∀ c x y r, Statement (.mm c x y r) := fun _ _ _ _ => of_full _ rfl
theorem mmx : ∀ c x y r a b, Statement (.mmx c x y r a b) := fun _ _ _ _ _ _ => of_full _ rfl
theorem cclr : ∀ c f, Statement (.cclr c f) := fun _ _ => of_full _ rfl
theorem crd : ∀ c p q n, Statement (.crd c p q n) := fun _ _ _ _ => of_full _ rfl
theorem cwr : ∀ c p q n, Statement (.cwr c p q n) := fun _ _ _ _ => of_full _ rfl
theorem cadd : ∀ c x r, Statement (.cadd c x r) := fun _ _ _ => of_full _ rfl
theorem cstat : ∀ c, Statement (.cstat c) := fun _ => of_full _ rfl
theorem cstatR : ∀ c, Statement (.cstatR c) := fun _ => of_full _ rfl
theorem cstatC : ∀ c, Statement (.cstatC c) := fun _ => of_full _ rfl
theorem cscl : ∀ c e, Statement (.cscl c e) := fun _ _ => of_full _ rfl
theorem gldv : ∀ sp im, Statement (.gldv sp im) := fun _ _ => of_full _ rfl
theorem gstv : ∀ sp im, Statement (.gstv sp im) := fun _ _ => of_full _ rfl
theorem gpref : ∀ sp im, Statement (.gpref sp im) := fun _ _ => of_full _ rfl
theorem cpy : ∀ k sp im, Statement (.cpy k sp im) := fun _ _ _ => of_full _ rfl
theorem cpyr : ∀ k sp im, Statement (.cpyr k sp im) := fun _ _ _ => of_full _ rfl
theorem wtok : ∀ m, Statement (.wtok m) := fun _ => of_full _ rfl
theorem ttok : ∀ k, Statement (.ttok k) := fun _ => of_full _ rfl
theorem tokr : ∀ k, Statement (.tokr k) := fun _ => of_full _ rfl
theorem aadd : ∀ sp im, Statement (.aadd sp im) := fun _ _ => of_full _ rfl
theorem aand : ∀ sp im, Statement (.aand sp im) := fun _ _ => of_full _ rfl
theorem aor : ∀ sp im, Statement (.aor sp im) := fun _ _ => of_full _ rfl
theorem axor : ∀ sp im, Statement (.axor sp im) := fun _ _ => of_full _ rfl
theorem amin : ∀ sp im, Statement (.amin sp im) := fun _ _ => of_full _ rfl
theorem amax : ∀ sp im, Statement (.amax sp im) := fun _ _ => of_full _ rfl
theorem aminn : ∀ sp im, Statement (.aminn sp im) := fun _ _ => of_full _ rfl
theorem amaxn : ∀ sp im, Statement (.amaxn sp im) := fun _ _ => of_full _ rfl
theorem aswp : ∀ sp im, Statement (.aswp sp im) := fun _ _ => of_full _ rfl
theorem acas : ∀ sp im, Statement (.acas sp im) := fun _ _ => of_full _ rfl
theorem aaddf : ∀ sp im, Statement (.aaddf sp im) := fun _ _ => of_full _ rfl
theorem aaddW : ∀ sp im, Statement (.aaddW sp im) := fun _ _ => of_full _ rfl
theorem aandW : ∀ sp im, Statement (.aandW sp im) := fun _ _ => of_full _ rfl
theorem aorW : ∀ sp im, Statement (.aorW sp im) := fun _ _ => of_full _ rfl
theorem axorW : ∀ sp im, Statement (.axorW sp im) := fun _ _ => of_full _ rfl
theorem aminW : ∀ sp im, Statement (.aminW sp im) := fun _ _ => of_full _ rfl
theorem amaxW : ∀ sp im, Statement (.amaxW sp im) := fun _ _ => of_full _ rfl
theorem aminnW : ∀ sp im, Statement (.aminnW sp im) := fun _ _ => of_full _ rfl
theorem amaxnW : ∀ sp im, Statement (.amaxnW sp im) := fun _ _ => of_full _ rfl
theorem aswpW : ∀ sp im, Statement (.aswpW sp im) := fun _ _ => of_full _ rfl
theorem acasW : ∀ sp im, Statement (.acasW sp im) := fun _ _ => of_full _ rfl
theorem aaddfW : ∀ sp im, Statement (.aaddfW sp im) := fun _ _ => of_full _ rfl
theorem vaadd : ∀ d a, Statement (.vaadd d a) := fun _ _ => of_full _ rfl
theorem vamin : ∀ d a, Statement (.vamin d a) := fun _ _ => of_full _ rfl
theorem vamax : ∀ d a, Statement (.vamax d a) := fun _ _ => of_full _ rfl
theorem vaaddS : ∀ d a b, Statement (.vaaddS d a b) := fun _ _ _ => of_full _ rfl
theorem vaminS : ∀ d a b, Statement (.vaminS d a b) := fun _ _ _ => of_full _ rfl
theorem vamaxS : ∀ d a b, Statement (.vamaxS d a b) := fun _ _ _ => of_full _ rfl
theorem watch : ∀ sp im, Statement (.watch sp im) := fun _ _ => of_full _ rfl
theorem watchRm : ∀ sp im, Statement (.watchRm sp im) := fun _ _ => of_full _ rfl
theorem cbar : ∀ k, Statement (.cbar k) := fun _ => of_full _ rfl
theorem barr : ∀ sp im, Statement (.barr sp im) := fun _ _ => of_full _ rfl
theorem barw : ∀ sp im, Statement (.barw sp im) := fun _ _ => of_full _ rfl
theorem sig : ∀ sp im, Statement (.sig sp im) := fun _ _ => of_full _ rfl
theorem sigw : ∀ sp im, Statement (.sigw sp im) := fun _ _ => of_full _ rfl
theorem sigm : ∀ sp im, Statement (.sigm sp im) := fun _ _ => of_full _ rfl
theorem lk : ∀ k sp im, Statement (.lk k sp im) := fun _ _ _ => of_full _ rfl
theorem twait : ∀ k, Statement (.twait k) := fun _ => of_full _ rfl
theorem tread : ∀ k, Statement (.tread k) := fun _ => of_full _ rfl
theorem fence : ∀ o sp, Statement (.fence o sp) := fun _ _ => of_full _ rfl
theorem grant : ∀ k sp im, Statement (.grant k sp im) := fun _ _ _ => of_full _ rfl
theorem renew : ∀ sp im, Statement (.renew sp im) := fun _ _ => of_full _ rfl
theorem life : ∀ sp im, Statement (.life sp im) := fun _ _ => of_full _ rfl
theorem anchor : ∀ sp im, Statement (.anchor sp im) := fun _ _ => of_full _ rfl
theorem hinfo : ∀ sp im, Statement (.hinfo sp im) := fun _ _ => of_full _ rfl
theorem dsbind : ∀ k sp im, Statement (.dsbind k sp im) := fun _ _ _ => of_full _ rfl
theorem fsend : ∀ k, Statement (.fsend k) := fun _ => of_full _ rfl
theorem fsendv : ∀ k sp n, Statement (.fsendv k sp n) := fun _ _ _ => of_full _ rfl
theorem fseek : ∀ k, Statement (.fseek k) := fun _ => of_full _ rfl
theorem allw : ∀ k, Statement (.allw k) := fun _ => of_full _ rfl
theorem dsend : ∀ k sp im, Statement (.dsend k sp im) := fun _ _ _ => of_full _ rfl
theorem dmap : ∀ sp im, Statement (.dmap sp im) := fun _ _ => of_full _ rfl
theorem spull : ∀ sp im, Statement (.spull sp im) := fun _ _ => of_full _ rfl
theorem fsig : ∀ k sp im, Statement (.fsig k sp im) := fun _ _ _ => of_full _ rfl
theorem bal : ∀ k t d, Statement (.bal k t d) := fun _ _ _ => of_full _ rfl
theorem bnal : ∀ k t d, Statement (.bnal k t d) := fun _ _ _ => of_full _ rfl
theorem mfs : ∀ r, Statement (.mfs r) := fun _ => of_full _ rfl
theorem mts : ∀ r, Statement (.mts r) := fun _ => of_full _ rfl
theorem trap : ∀ n, Statement (.trap n) := fun _ => of_full _ rfl
theorem trc : ∀ n, Statement (.trc n) := fun _ => of_full _ rfl
theorem dbgh : ∀ n, Statement (.dbgh n) := fun _ => of_full _ rfl
theorem smpl : ∀ n, Statement (.smpl n) := fun _ => of_full _ rfl
theorem ldDShort : ∀ sp im, Statement (.ldDShort sp im) := fun _ _ => of_short _ _ (by decide) rfl
theorem stDShort : ∀ sp im, Statement (.stDShort sp im) := fun _ _ => of_short _ _ (by decide) rfl
theorem addShort : ∀ sp im, Statement (.addShort sp im) := fun _ _ => of_short _ _ (by decide) rfl
theorem subShort : ∀ sp im, Statement (.subShort sp im) := fun _ _ => of_short _ _ (by decide) rfl
theorem andShort : ∀ sp im, Statement (.andShort sp im) := fun _ _ => of_short _ _ (by decide) rfl
theorem orShort : ∀ sp im, Statement (.orShort sp im) := fun _ _ => of_short _ _ (by decide) rfl
theorem xorShort : ∀ sp im, Statement (.xorShort sp im) := fun _ _ => of_short _ _ (by decide) rfl
theorem cmpShort : ∀ sp im, Statement (.cmpShort sp im) := fun _ _ => of_short _ _ (by decide) rfl
theorem ldWShort : ∀ sp im, Statement (.ldWShort sp im) := fun _ _ => of_short _ _ (by decide) rfl
theorem stWShort : ∀ sp im, Statement (.stWShort sp im) := fun _ _ => of_short _ _ (by decide) rfl
theorem shlShort : ∀ sp im, Statement (.shlShort sp im) := fun _ _ => of_short _ _ (by decide) rfl
theorem shrShort : ∀ sp im, Statement (.shrShort sp im) := fun _ _ => of_short _ _ (by decide) rfl
theorem mulShort : ∀ sp im, Statement (.mulShort sp im) := fun _ _ => of_short _ _ (by decide) rfl
theorem xchShort : ∀ sp im, Statement (.xchShort sp im) := fun _ _ => of_short _ _ (by decide) rfl
theorem paddShort : ∀ n, Statement (.paddShort n) := fun _ => of_short _ _ (by decide) rfl
theorem vaddShort : ∀ d sp, Statement (.vaddShort d sp) := fun _ _ => of_short _ _ (by decide) rfl
theorem vsubShort : ∀ d sp, Statement (.vsubShort d sp) := fun _ _ => of_short _ _ (by decide) rfl
theorem vmulShort : ∀ d sp, Statement (.vmulShort d sp) := fun _ _ => of_short _ _ (by decide) rfl
theorem vfmaShort : ∀ d sp, Statement (.vfmaShort d sp) := fun _ _ => of_short _ _ (by decide) rfl
theorem vminShort : ∀ d sp, Statement (.vminShort d sp) := fun _ _ => of_short _ _ (by decide) rfl
theorem vmaxShort : ∀ d sp, Statement (.vmaxShort d sp) := fun _ _ => of_short _ _ (by decide) rfl
theorem vmovShort : ∀ d sp, Statement (.vmovShort d sp) := fun _ _ => of_short _ _ (by decide) rfl
theorem vandShort : ∀ d sp, Statement (.vandShort d sp) := fun _ _ => of_short _ _ (by decide) rfl
theorem vorShort : ∀ d sp, Statement (.vorShort d sp) := fun _ _ => of_short _ _ (by decide) rfl
theorem vxorShort : ∀ d sp, Statement (.vxorShort d sp) := fun _ _ => of_short _ _ (by decide) rfl
theorem vabsShort : ∀ d sp, Statement (.vabsShort d sp) := fun _ _ => of_short _ _ (by decide) rfl
theorem vnegShort : ∀ d sp, Statement (.vnegShort d sp) := fun _ _ => of_short _ _ (by decide) rfl
theorem vselShort : ∀ d sp, Statement (.vselShort d sp) := fun _ _ => of_short _ _ (by decide) rfl
theorem vcvtShort : ∀ d sp, Statement (.vcvtShort d sp) := fun _ _ => of_short _ _ (by decide) rfl
theorem vshlShort : ∀ d sp, Statement (.vshlShort d sp) := fun _ _ => of_short _ _ (by decide) rfl
theorem vshrShort : ∀ d sp, Statement (.vshrShort d sp) := fun _ _ => of_short _ _ (by decide) rfl
theorem ret : Statement .ret := of_full _ rfl
theorem endSlot : Statement .endSlot := of_full _ rfl
theorem yield : Statement .yield := of_full _ rfl
theorem live : Statement .live := of_full _ rfl
theorem fget : Statement .fget := of_full _ rfl
theorem watchClr : Statement .watchClr := of_full _ rfl
theorem sleep : Statement .sleep := of_full _ rfl
theorem bfence : Statement .bfence := of_full _ rfl
theorem isync : Statement .isync := of_full _ rfl
theorem hgen : Statement .hgen := of_full _ rfl
theorem rti : Statement .rti := of_full _ rfl
theorem wfi : Statement .wfi := of_full _ rfl
theorem icinv : Statement .icinv := of_full _ rfl
theorem icinvAll : Statement .icinvAll := of_full _ rfl
theorem ssave : Statement .ssave := of_full _ rfl
theorem srest : Statement .srest := of_full _ rfl
theorem brk : Statement .brk := of_short 0x3FFF#14 2#2 (by decide) rfl
theorem abortWrite : ∀ v, Statement (.abortWrite v) := fun _ => of_none rfl
theorem bellWrite : ∀ v, Statement (.bellWrite v) := fun _ => of_none rfl
theorem debugRequestWrite : Statement .debugRequestWrite := of_none rfl
theorem traceControlWrite : ∀ v, Statement (.traceControlWrite v) := fun _ => of_none rfl
theorem traceCountRead : Statement .traceCountRead := of_none rfl
theorem traceSample : ∀ core, Statement (.traceSample core) := fun _ => of_none rfl
theorem watchpointRemoteHalt : ∀ hit, Statement (.watchpointRemoteHalt hit) := fun _ => of_none rfl
theorem stepCountHalt : ∀ cluster, Statement (.stepCountHalt cluster) := fun _ => of_none rfl
theorem queueKick : ∀ link q, Statement (.queueKick link q) := fun _ _ => of_none rfl
theorem queuePoll : ∀ link q, Statement (.queuePoll link q) := fun _ _ => of_none rfl
theorem queueEnable : ∀ link q v, Statement (.queueEnable link q v) := fun _ _ _ => of_none rfl
theorem queueDisable : ∀ link q, Statement (.queueDisable link q) := fun _ _ => of_none rfl
theorem completionHeadWrite : ∀ link q v, Statement (.completionHeadWrite link q v) := fun _ _ _ => of_none rfl
theorem bar0RegisterWrite : ∀ link off v, Statement (.bar0RegisterWrite link off v) := fun _ _ _ => of_none rfl
theorem completionEntryWrite : ∀ link q, Statement (.completionEntryWrite link q) := fun _ _ => of_none rfl
theorem msixCoalesceTimeout : ∀ link q, Statement (.msixCoalesceTimeout link q) := fun _ _ => of_none rfl
theorem contextGrant : ∀ k, Statement (.contextGrant k) := fun _ => of_none rfl
theorem contextRenew : ∀ k, Statement (.contextRenew k) := fun _ => of_none rfl
theorem contextEnd : ∀ k, Statement (.contextEnd k) := fun _ => of_none rfl
theorem memoryGrantNew : ∀ k, Statement (.memoryGrantNew k) := fun _ => of_none rfl
theorem memoryGrantChange : ∀ k, Statement (.memoryGrantChange k) := fun _ => of_none rfl
theorem launchGraph : ∀ k, Statement (.launchGraph k) := fun _ => of_none rfl
theorem copyPacket : ∀ k, Statement (.copyPacket k) := fun _ => of_none rfl
theorem signalAdd : ∀ k, Statement (.signalAdd k) := fun _ => of_none rfl
theorem signalWait : ∀ k, Statement (.signalWait k) := fun _ => of_none rfl
theorem signalWaitTimeout : ∀ k, Statement (.signalWaitTimeout k) := fun _ => of_none rfl
theorem debugHold : ∀ k, Statement (.debugHold k) := fun _ => of_none rfl
theorem debugRelease : ∀ k, Statement (.debugRelease k) := fun _ => of_none rfl
theorem fwAttest : ∀ k, Statement (.fwAttest k) := fun _ => of_none rfl
theorem fwTimeSlice : ∀ k, Statement (.fwTimeSlice k) := fun _ => of_none rfl
theorem fwPowerPolicySet : ∀ k, Statement (.fwPowerPolicySet k) := fun _ => of_none rfl
theorem fwPowerStatus : ∀ k, Statement (.fwPowerStatus k) := fun _ => of_none rfl
theorem fwRouteTable : ∀ k, Statement (.fwRouteTable k) := fun _ => of_none rfl
theorem fwIslandService : ∀ k, Statement (.fwIslandService k) := fun _ => of_none rfl
theorem fwIdentity : ∀ k, Statement (.fwIdentity k) := fun _ => of_none rfl
theorem fwFirmwareUpdate : ∀ k, Statement (.fwFirmwareUpdate k) := fun _ => of_none rfl
theorem fwGingham : ∀ k, Statement (.fwGingham k) := fun _ => of_none rfl
theorem ginghamLatch : Statement .ginghamLatch := of_none rfl
theorem bar2Read : ∀ link off n, Statement (.bar2Read link off n) := fun _ _ _ => of_none rfl
theorem bar2Write : ∀ link off bs, Statement (.bar2Write link off bs) := fun _ _ _ => of_none rfl
theorem nodeReady : ∀ graph node, Statement (.nodeReady graph node) := fun _ _ => of_none rfl
theorem gangPlace : ∀ die, Statement (.gangPlace die) := fun _ => of_none rfl
theorem timeSliceExpiry : ∀ die ctx, Statement (.timeSliceExpiry die ctx) := fun _ _ => of_none rfl
theorem preemptRequest : ∀ gang reason, Statement (.preemptRequest gang reason) := fun _ _ => of_none rfl
theorem preemptDrainEnd : ∀ gang, Statement (.preemptDrainEnd gang) := fun _ => of_none rfl
theorem saveImageComplete : ∀ gang, Statement (.saveImageComplete gang) := fun _ => of_none rfl
theorem gangRestore : ∀ gang, Statement (.gangRestore gang) := fun _ => of_none rfl
theorem leaseLapse : ∀ unit idx, Statement (.leaseLapse unit idx) := fun _ _ => of_none rfl
theorem homeRequest : ∀ r, Statement (.homeRequest r) := fun _ => of_none rfl
theorem homeReply : ∀ core slot r, Statement (.homeReply core slot r) := fun _ _ _ => of_none rfl
theorem revocationApply : ∀ unit ctx, Statement (.revocationApply unit ctx) := fun _ _ => of_none rfl
theorem rangeScrubDone : ∀ unit idx, Statement (.rangeScrubDone unit idx) := fun _ _ => of_none rfl
theorem dtBeacon : ∀ adj, Statement (.dtBeacon adj) := fun _ => of_none rfl
theorem pathSourceDiscard : ∀ h, Statement (.pathSourceDiscard h) := fun _ => of_none rfl
theorem memoryReply : ∀ core slot r, Statement (.memoryReply core slot r) := fun _ _ _ => of_none rfl
theorem stationAccess : ∀ r, Statement (.stationAccess r) := fun _ => of_none rfl
theorem pageMigration : ∀ ctx va frame, Statement (.pageMigration ctx va frame) := fun _ _ _ => of_none rfl
theorem migrationWbTimeout : ∀ ctx va, Statement (.migrationWbTimeout ctx va) := fun _ _ => of_none rfl
theorem patrolScrub : ∀ line err, Statement (.patrolScrub line err) := fun _ _ => of_none rfl
theorem copyAccept : ∀ id, Statement (.copyAccept id) := fun _ => of_none rfl
theorem copySector : ∀ id, Statement (.copySector id) := fun _ => of_none rfl
theorem copyComplete : ∀ id, Statement (.copyComplete id) := fun _ => of_none rfl
theorem quantCommandRun : ∀ die, Statement (.quantCommandRun die) := fun _ => of_none rfl
theorem quantCommandComplete : ∀ die, Statement (.quantCommandComplete die) := fun _ => of_none rfl
theorem faultRecordForward : ∀ ctx, Statement (.faultRecordForward ctx) := fun _ => of_none rfl
theorem supervisorMessage : ∀ core, Statement (.supervisorMessage core) := fun _ => of_none rfl
theorem mirrorWrite : ∀ m, Statement (.mirrorWrite m) := fun _ => of_none rfl
theorem icacheFill : ∀ core addr, Statement (.icacheFill core addr) := fun _ _ => of_none rfl
theorem icacheInvalidateArrival : ∀ cluster, Statement (.icacheInvalidateArrival cluster) := fun _ => of_none rfl
theorem chunkStepComplete : ∀ core, Statement (.chunkStepComplete core) := fun _ => of_none rfl
theorem residueReplay : ∀ core slot again, Statement (.residueReplay core slot again) := fun _ _ _ => of_none rfl
theorem damaskStep : ∀ core slot n c x y r a b, Statement (.damaskStep core slot n c x y r a b) := fun _ _ _ _ _ _ _ _ _ => of_none rfl
theorem flitReceive : ∀ f, Statement (.flitReceive f) := fun _ => of_none rfl
theorem remoteRequestArrival : ∀ r, Statement (.remoteRequestArrival r) := fun _ => of_none rfl
theorem unorderedResendTimeout : ∀ id, Statement (.unorderedResendTimeout id) := fun _ => of_none rfl
theorem pathMessageArrival : ∀ m, Statement (.pathMessageArrival m) := fun _ => of_none rfl
theorem fsigArrival : ∀ m, Statement (.fsigArrival m) := fun _ => of_none rfl
theorem stubOfferArrival : ∀ m, Statement (.stubOfferArrival m) := fun _ => of_none rfl
theorem ackArrival : ∀ a, Statement (.ackArrival a) := fun _ => of_none rfl
theorem goBackArrival : ∀ path seq, Statement (.goBackArrival path seq) := fun _ _ => of_none rfl
theorem holdNoticeArrival : ∀ path, Statement (.holdNoticeArrival path) := fun _ => of_none rfl
theorem pathResendTimeout : ∀ path, Statement (.pathResendTimeout path) := fun _ => of_none rfl
theorem pullRequestArrival : ∀ h tile chip, Statement (.pullRequestArrival h tile chip) := fun _ _ _ => of_none rfl
theorem pullDataArrival : ∀ h tile bs tagOk, Statement (.pullDataArrival h tile bs tagOk) := fun _ _ _ _ => of_none rfl
theorem stubLinkArrival : ∀ h e, Statement (.stubLinkArrival h e) := fun _ _ => of_none rfl
theorem pinCompletionArrival : ∀ h, Statement (.pinCompletionArrival h) := fun _ => of_none rfl
theorem pinExpiry : ∀ h, Statement (.pinExpiry h) := fun _ => of_none rfl
theorem coldReset : Statement .coldReset := of_none rfl
theorem functionLevelReset : ∀ link, Statement (.functionLevelReset link) := fun _ => of_none rfl
theorem powerPeriod : ∀ watts, Statement (.powerPeriod watts) := fun _ => of_none rfl
theorem thermalPeriod : ∀ temps, Statement (.thermalPeriod temps) := fun _ => of_none rfl
theorem islandStepChange : ∀ island step, Statement (.islandStepChange island step) := fun _ _ => of_none rfl
theorem tileTransferComplete : ∀ core slot, Statement (.tileTransferComplete core slot) := fun _ _ => of_none rfl
theorem reservedEncodingIssue : Statement .reservedEncodingIssue := of_none rfl
theorem fetchSpaceFault : Statement .fetchSpaceFault := of_none rfl

end Sys2Proof.Laws.EncodedLength
end

