-- ==== Sys2Proof/Tests/Slice0.lean ====
section
/-!
SUPPORT. The model's own tests: ill-formed terms refused, words written out from the encodings of 03, single steps with results
worked out from the rules by hand, and for each statement about states a concrete state and operands that meet its hypotheses.
-/
namespace Sys2Proof.Tests
open Sys2Proof Sys2Proof.Machine Sys2Proof.Claims

set_option Elab.async false

/-! ## Ill-formed terms (03 R28, R34, R42) -/

theorem test_wf_unused_immediate : wfBool (.add (.ptr 1) 4) = false ∧ wfBool (.add (.disp 1) 4) = true := by decide

theorem test_wf_store_to_immediate : wfBool (.stD .imm 0) = false ∧ wfBool (.xchShort .imm 0) = false := by decide

theorem test_wf_address_of_a_register : wfBool (.lea (.ptr 1) 0) = false ∧ wfBool (.aadd .acc 0) = false ∧
    wfBool (.dget (.queue 0) 0) = false ∧ wfBool (.cpy 0 .nxt 0) = false := by decide

theorem test_wf_lane_roles : wfBool (.vadd .acc (.mem 1) (.mem 1)) = false ∧ wfBool (.vadd (.mem 1) (.ptr 1) (.mem 1)) = false ∧
    wfBool (.vadd (.mem 1) (.disp 1) (.mem 1)) = false ∧ wfBool (.vadd (.mem 1) .acc (.queue 0)) = true := by decide

theorem test_wf_numbers : wfBool (.idr 19) = false ∧ wfBool (.idr 18) = true ∧ wfBool (.mfs 0x003) = false ∧
    wfBool (.mfs 0x415) = true ∧ wfBool (.fence 0 5) = false ∧ wfBool (.fence 3 4) = true := by decide

/-! ## Words of the formats, written out from 03 R22, R24, R25, R27, R35, R37 -/

theorem test_decode_scalar :
    decode (leBytes 4 0x00000683) = some (.add (.mem 5) 0, 4) ∧
    decode (leBytes 4 0x00006485) = some (.div (.mem 1) 0, 4) ∧
    decode (leBytes 4 0x0000D207) = some (.ldSw (.pre 4) 0, 4) ∧
    decode (leBytes 4 0x00280D89) = some (.stB (.disp 3) 5, 4) ∧
    decode (leBytes 4 0x0000E98D) = some (.lsh (.ptr 2) 7, 4) ∧
    decode (leBytes 4 0xFFFFE00D) = some (.li .acc 0x7FFFF#19, 4) ∧
    decode (leBytes 4 0x0000430F) = some (.pspc 6, 4) := by decide +kernel

theorem test_decode_control :
    decode (leBytes 4 0x00005091) = some (.bz 10, 4) ∧
    decode (leBytes 4 0x00003813) = some (.call 7, 4) ∧
    decode (leBytes 4 0xFFFFF015) = some (.loop 0x1FFFFE#21, 4) ∧
    decode (leBytes 4 0x00004B97) = some (.ret, 4) ∧
    decode (leBytes 4 0x00002197) = some (.jsr (.ptr 3) 0, 4) ∧
    decode (leBytes 4 0x00A01719) = some (.start .acc 20, 4) ∧
    decode (leBytes 4 0x00486019) = some (.idr 9, 4) ∧
    decode (leBytes 4 0xFFFEE953) = some (.bnal 2 5 0x1FFFD#17, 4) := by decide +kernel

theorem test_decode_lanes :
    decode (leBytes 4 0x076244A1) = some (.vfma (.mem 1) (.post 2) .nxt, 4) ∧
    decode (leBytes 4 0x1A012023) = some (.vmsk (.mem 1), 4) ∧
    decode (leBytes 4 0x000144A5) = some (.vexp2 (.mem 1) (.mem 2), 4) ∧
    decode (leBytes 4 0x0A5944A7) = some (.vgath (.mem 1) (.mem 2) (.mem 3), 4) ∧
    decode (leBytes 4 0x045944A9) = some (.vqnt (.mem 1) (.mem 2) (.mem 3), 4) ∧
    decode (leBytes 4 0x02002DAB) = some (.dset (.disp 3) 64, 4) ∧
    decode (leBytes 4 0x085944C3) = some (.vaminS (.mem 1) (.mem 2) (.mem 3), 4) := by decide +kernel

theorem test_decode_tiles_and_copies :
    decode (leBytes 4 0x03400C31) = some (.tld 3 true 5, 4) ∧
    decode (leBytes 4 0x0ACC40B3) = some (.mmx 1 0 2 4 3 5, 4) ∧
    decode (leBytes 4 0x17080135) = some (.crd 2 true 4 5, 4) ∧
    decode (leBytes 4 0x00800D39) = some (.gldv (.disp 2) 16, 4) ∧
    decode (leBytes 4 0x8108003B) = some (.wtok 0x81, 4) ∧
    decode (leBytes 4 0x000045AD) = some (.qsub 2 (.mem 3) 0, 4) := by decide +kernel

theorem test_decode_order_and_fabric :
    decode (leBytes 4 0x00032641) = some (.acasW (.mem 4) 0, 4) ∧
    decode (leBytes 4 0x00002945) = some (.watchRm (.post 2) 0, 4) ∧
    decode (leBytes 4 0x00000647) = some (.fence 1 4, 4) ∧
    decode (leBytes 4 0x000064C9) = some (.grant 3 (.mem 1) 0, 4) ∧
    decode (leBytes 4 0x0308A551) = some (.fsendv 5 (.mem 2) 3, 4) := by decide +kernel

theorem test_decode_system :
    decode (leBytes 4 0x00084461) = some (.mts 0x088#12, 4) ∧
    decode (leBytes 4 0x0A100061) = some (.trap 5, 4) ∧
    decode (leBytes 4 0x0A000063) = some (.trc 5, 4) := by decide +kernel

theorem test_decode_short :
    decode (leBytes 2 0x168E) = some (.subShort (.disp 2) 1, 2) ∧
    decode (leBytes 2 0x02F2) = some (.mulShort (.mem 3) 0, 2) ∧
    decode (leBytes 2 0x9240) = some (.vaddShort (.post 1) (.pre 2), 2) ∧
    decode (leBytes 2 0x0ACC) = some (.vfmaShort (.post 3) (.mem 1), 2) ∧
    decode (leBytes 2 0x4ACC) = some (.vfmaShort (.post 3) (.post 1), 2) ∧
    decode (leBytes 2 0xFFFE) = some (.brk, 2) := by decide +kernel

theorem test_decode_refuses : decode (leBytes 4 0x0000007F) = none ∧ decode (leBytes 4 0x00080683) = none ∧
    decode (leBytes 4 0x00001809) = none ∧ decode (leBytes 4 0x00986019) = none ∧ decode (leBytes 4 0x00003C03) = none ∧
    decode [0x03] = none := by decide +kernel

theorem test_table_word : decodeTableWord 32 0x00000003 = some (.add (.ptr 0) 0) ∧
    decodeTableWord 16 0xFFFE = some .brk := by decide +kernel


/-- The state that an instruction leaves, here one that waits. -/
def after (i : Instr) (s : State) : State :=
  match exec i s with
  | .next t => t
  | .fault _ => s
  | .refused _ => s

/-- An instruction that waits, and is run again when its wait has ended. -/
def again (i : Instr) (s : State) : Host.Outcome State Fault Refusal := exec i (after i s)
/-! ## Small states -/

/-- A slot that runs at 0x400. -/
def slotA : Slot :=
  { Slot.reset with live := true, pc := 0x400, a := 5, lc := 2,
                    p := [(1, 0x100), (2, 0x240), (3, 0x280), (6, 0x2C0), (7, 0x35000)], step := [(1, 8)] }

/-- Slot 0 of core 0 runs. -/
def stA : State := State.reset.setSlot 0 0 slotA

/-- The same slot with its registers changed. -/
def stWith (f : Slot → Slot) : State := stA.setSlot 0 0 (f slotA)

/-- Pointer 1 is not a multiple of 8. -/
def stOdd : State := stWith fun x => { x with p := [(1, 0x104)] }

def accOf : Host.Outcome State Fault Refusal → Option Word
  | .next s => some s.acc
  | .fault _ => none
  | .refused _ => none

def flagsOf : Host.Outcome State Fault Refusal → Option (BitVec 7)
  | .next s => some s.flags
  | .fault _ => none
  | .refused _ => none

/-- What a test looks at in the next state. -/
def look {α : Type} (f : State → α) : Host.Outcome State Fault Refusal → Option α
  | .next s => some (f s)
  | .fault _ => none
  | .refused _ => none

/-! ## Single steps: scalar instructions and control flow (04, 05) -/

theorem test_add_carry : accOf (exec (.add .imm 1) (stWith fun x => { x with a := 0xFFFFFFFFFFFFFFFF#64 })) = some 0 ∧
    flagsOf (exec (.add .imm 1) (stWith fun x => { x with a := 0xFFFFFFFFFFFFFFFF#64 })) = some 0b0000101#7 := by decide

theorem test_sub_borrow : accOf (exec (.sub .imm 7) stA) = some 0xFFFFFFFFFFFFFFFE#64 ∧
    flagsOf (exec (.sub .imm 7) stA) = some 0b0000110#7 := by decide

theorem test_shl_by_64 : accOf (exec (.shl .imm 64) stA) = some 0 ∧ flagsOf (exec (.shl .imm 64) stA) = some 0b0000101#7 := by
  decide

theorem test_neg_of_the_least : accOf (exec (.neg (.ptr 1) 0) (stWith fun x => { x with p := [(1, 0x8000000000000000#64)] })) =
      some 0x8000000000000000#64 ∧
    flagsOf (exec (.neg (.ptr 1) 0) (stWith fun x => { x with p := [(1, 0x8000000000000000#64)] })) = some 0b0001110#7 := by
  decide

theorem test_div_by_zero : accOf (exec (.div .imm 0) stA) = some 0x7FFFFFFFFFFFFFFF#64 ∧
    flagsOf (exec (.div .imm 0) stA) = some 0b0001000#7 := by decide

theorem test_mulh_of_negatives : accOf (exec (.mulh .imm 0x1FFF#13) stA) = some 0xFFFFFFFFFFFFFFFF#64 := by decide

theorem test_ld_sb_extends : accOf (exec (.ldSb (.post 1) 0) (stA.write (lKey 0 0x100) 1 0x80)) =
      some 0xFFFFFFFFFFFFFF80#64 ∧
    look (fun s => s.ptr 1) (exec (.ldSb (.post 1) 0) (stA.write (lKey 0 0x100) 1 0x80)) = some 0x108 := by decide

theorem test_st_w_lowest_byte_first :
    look (fun s => mgets s.mem (lKey 0 0x100) 4) (exec (.stW (.mem 1) 0) (stWith fun x => { x with a := 0x1122334455667788#64 })) =
      some [0x88, 0x77, 0x66, 0x55] := by decide

theorem test_ld_d_misaligned : look (fun s => (s.cur.cause, s.cur.faddr, s.cur.epc, s.cur.pc)) (exec (.ldD (.disp 1) 1) stOdd) =
    some (3, 0x10C, 0x400, 0x30000) := by decide

theorem test_xch_swaps : accOf (exec (.xch (.ptr 2) 0) stA) = some 0x240 ∧
    look (fun s => s.ptr 2) (exec (.xch (.ptr 2) 0) stA) = some 5 := by decide

theorem test_addi_keeps_the_tag : look (fun s => s.ptr 1) (exec (.addi (.ptr 1) 0x7FFFF#19)
    (stWith fun x => { x with p := [(1, 0x8000000000000000#64)] })) = some 0x8FFFFFFFFFFFFFFF#64 := by decide

theorem test_loop_counts : look (fun s => (s.cur.lc, s.cur.pc)) (exec (.loop 0x1FFFFE#21) stA) = some (1, 0x3FC) ∧
    look (fun s => (s.cur.lc, s.cur.pc)) (exec (.loop 0x1FFFFE#21) (stWith fun x => { x with lc := 1 })) = some (0, 0x404) := by
  decide

theorem test_call_pushes : look (fun s => (s.cur.pc, s.ptr 7, mread s.mem (lKey 0 0x34FF8) 8)) (exec (.call 7) stA) =
    some (0x40E, 0x34FF8, 0x404) := by decide

theorem test_bgt_signed : look (fun s => s.cur.pc) (exec (.bgt 4) (stWith fun x => { x with f := 0b0001010#7 })) = some 0x408 ∧
    look (fun s => s.cur.pc) (exec (.bgt 4) (stWith fun x => { x with f := 0b0000010#7 })) = some 0x404 := by decide

theorem test_trap_enters : look (fun s => (s.cur.cause, s.cur.epc, s.cur.pc, s.cur.priv)) (exec (.trap 5) stA) =
    some (0x50B, 0x404, 0x30000, true) := by decide

theorem test_first_step_after_reset :
    look (fun s => (s.slot 0 0).a) (step (State.reset.withFetchWord 32 0xFFFFE00D)) = some 0xFFFFFFFFFFFFFFFF#64 := by
  decide +kernel

/-! ## Witnesses: states and operands that meet the hypotheses of the statements -/

theorem witness_alu : aluForm (.shl .imm 64) = some (.shl, false, ⟨4, 4, .imm, 64⟩) ∧
    aluForm (.cmpShort (.post 1) 0) = some (.sub, true, ⟨2, 4, .post 1, 0⟩) ∧ stA.cur.live = true ∧
    (∃ t, stA.source .imm 64 8 = .ok (t, 64)) ∧ ∃ t, stA.source (.post 1) 0 8 = .ok (t, 0) :=
  ⟨rfl, rfl, by decide, ⟨_, rfl⟩, _, rfl⟩

theorem witness_mulbit : mulForm (.div .imm 0) = some (.div, ⟨4, 20, .imm, 0⟩) ∧ stA.cur.live = true ∧
    ∃ t, stA.source .imm 0 8 = .ok (t, 0) := ⟨rfl, by decide, _, rfl⟩

theorem witness_load : loadForm (.ldSb (.mem 1) 0) = some (1, true, ⟨4, 4, .mem 1, 0⟩) ∧ stA.cur.live = true ∧
    (∃ t, stA.source (.mem 1) 0 1 = .ok (t, 0)) ∧
    ∃ z, stA.locate 0x100 8 8 .read tagLoad true false = .ok (z, .buf false 0 0 0x100) ∧ z.recall = none ∧ stA.flaws = [] ∧
      poisoned stA.mem (bufKey 0 0 0x100) = false := ⟨rfl, by decide, ⟨_, rfl⟩, _, rfl, rfl, rfl, by decide⟩

/-- The slot waits; its log says that its access has been made. -/
def withLog (s : State) (l : List Reply) : State := s.setCur { s.cur with replies := l }

theorem witness_store_and_exchange : storeForm (.stB (.ptr 1) 0) = some (1, ⟨4, 4, .ptr 1, 0⟩) ∧
    storeForm (.stDShort .acc 0) = some (8, ⟨2, 4, .acc, 0⟩) ∧ storeForm (.stH (.queue 3) 0) = some (2, ⟨4, 4, .queue 3, 0⟩) ∧
    stA.cur.live = true ∧ stA.behind (.port 3 true) = false ∧ (stA.queueList 0 3).length < 8 ∧
    (stA.behind (.port 4 true) = false ∧ (stA.ringList 0 (ringOut 0 4)).length < 8) ∧
    (∃ y q t w, stA.operand (.ptr 2) 0 8 = (y, .ptr 2) ∧
      y.needPorts (Ref.uses (.ptr 2) false 1 ++ Ref.uses (.ptr 2) true 1) = .ok q ∧ q.readRef (.ptr 2) 8 = .ok (t, 0x240) ∧
      t.writeRef (.ptr 2) 8 5 = .ok w) ∧
    ∃ y q l m t w, stA.operand (.mem 1) 0 8 = (y, .mem 0x100) ∧ y.xchPlace 0x100 = .ok (q, l, m) ∧
      q.loadLoc 0x100 8 l = .ok (t, 0) ∧ t.storeAt false 0x100 8 5 m = .ok w ∧ Loc.spot m = some (lKey 0 0x100) ∧ t.recall = none :=
  ⟨rfl, rfl, rfl, by decide, by decide, by decide, by decide, ⟨_, _, _, _, rfl, rfl, rfl, rfl⟩,
    _, _, _, _, _, _, rfl, rfl, rfl, rfl, rfl, rfl⟩

theorem witness_exchange_goes_on :
    ∃ q l m t w, (withLog stA [.place (.buf true 0 0 0x100) true, .place (.buf true 0 0 0x100) false, .num 7, .done]).xchPlace 0x100 =
        .ok (q, l, m) ∧ q.loadLoc 0x100 8 l = .ok (t, 7) ∧ t.storeAt false 0x100 8 5 m = .ok w ∧ t.recall ≠ none :=
  ⟨_, _, _, _, _, rfl, rfl, rfl, by decide⟩

theorem witness_store_writes : storeForm (.stD (.mem 1) 0) = some (8, ⟨4, 4, .mem 1, 0⟩) ∧ stA.cur.live = true ∧
    ∃ y z, stA.operand (.mem 1) 0 8 = (y, .mem 0x100) ∧
      y.locate 0x100 8 8 .write tagStore true false = .ok (z, .buf false 0 0 0x100) ∧ z.recall = none ∧
      y.strikes 0 0 0x100 8 = false :=
  ⟨rfl, by decide, _, _, rfl, rfl, rfl, by decide⟩

/-- The slot is privileged, and pointer 1 leads to register 0x402, the step of its pointer 7. -/
def stSysPtr : State := stWith fun x => { x with priv := true, p := [(1, 0xF000000000002010#64)] }

theorem witness_store_to_a_register : stSysPtr.cur.live = true ∧
    ∃ y z w, stSysPtr.operand (.mem 1) 0 8 = (y, .mem 0xF000000000002010#64) ∧
      y.locate 0xF000000000002010#64 8 8 .write tagStore true false = .ok (z, .sys 0x402) ∧
      ({ z with claims := [] }).sysWrite 0x402 (lowBytes 8 5) = .ok w ∧ w.cur.live = true :=
  ⟨by decide, _, _, _, rfl, rfl, rfl, rfl⟩

/-- A load through X, asked and answered, and one of a system register. -/
theorem witness_load_elsewhere :
    (∃ z, stA.locate 0x4000000000000100#64 8 8 .read tagLoad true false = .ok (z, .buf true 0 0 0x100) ∧ z.recall = none ∧
      stA.flaws = [] ∧ poisoned stA.mem (bufKey 0 0 0x100) = false) ∧
    (∃ z, (withLog stA [.place (.buf true 0 0 0x100) false, .num 7]).locate 0x4000000000000100#64 8 8 .read tagLoad true false =
      .ok (z, .buf true 0 0 0x100) ∧ z.recall = some (.num 7)) ∧
    ∃ z, stSysPtr.locate 0xF000000000002010#64 8 8 .read tagLoad true false = .ok (z, .sys 0x402) ∧ z.recall = none ∧
      (z.sysRead 0x402).toOption = some 0 :=
  ⟨⟨_, rfl, rfl, rfl, by decide⟩, ⟨_, rfl, by decide⟩, _, rfl, rfl, by decide⟩

theorem witness_failed_checks : stA.recall = none ∧ (tagOf 0xF000000000000000#64 = 15 ∧ stA.cur.priv = false) ∧
    tagOf 0x1000000000000000#64 ∈ [1, 3, 5, 6, 7, 9, 10, 11, 12, 13, 14] ∧ tagOf 0x2000000000000000#64 = 2 ∧
    (tagOf 0x40000#64 = 0 ∧ 0x40000 ≤ offOf 0x40000#64) ∧
    (tagOf 0x3FFFF#64 = 0 ∧ offOf 0x3FFFF#64 < 0x40000 ∧ offOf 0x3FFFF#64 % 2 ≠ 0) ∧
    (tagOf 0x3FFFE#64 = 0 ∧ offOf 0x3FFFE#64 < 0x40000 ∧ offOf 0x3FFFE#64 % 2 = 0 ∧
      poisoned (mput stA.mem (scaleKey (lKey 0 0x3FFFE)) 255) (lKey 0 0x3FFFE) = true ∧ stA.flaws = []) ∧
    (tagOf 0x8200000000000000#64 = 8 ∧ 2 ^ 57 ≤ offOf 0x8200000000000000#64) ∧
    (tagOf 0x81FFFFFFFFFFFFFF#64 = 8 ∧ offOf 0x81FFFFFFFFFFFFFF#64 < 2 ^ 57 ∧ offOf 0x81FFFFFFFFFFFFFF#64 % 4 ≠ 0) := by
  decide

theorem witness_failed_operand :
    stOdd.source (.disp 1) 1 8 = .error (.trap 3 0x10C) ∧ loadForm (.ldD (.disp 1) 1) = some (8, false, ⟨4, 4, .disp 1, 1⟩) ∧
    aluForm (.add (.disp 1) 1) = some (.add, false, ⟨4, 4, .disp 1, 1⟩) ∧
    mulForm (.mul (.disp 1) 1) = some (.mul, ⟨4, 4, .disp 1, 1⟩) ∧ storeForm (.stD (.disp 1) 1) = some (8, ⟨4, 4, .disp 1, 1⟩) ∧
    (∃ y, stOdd.operand (.disp 1) 1 8 = (y, .mem 0x10C) ∧
      y.locate 0x10C 8 8 .write tagStore true false = .error (.trap 3 0x10C)) ∧
    stA.cur.priv = false ∧ GoodVector stA.curCoreOf.tvec ∧ GoodVector stA.curCoreOf.kstk :=
  ⟨rfl, rfl, rfl, rfl, rfl, ⟨_, rfl, rfl⟩, by decide, ⟨by decide, by decide⟩, by decide, by decide⟩

theorem witness_register_forms : stA.cur.live = true ∧
    registerForm stA.cur (.li .lc 3) = some (4, { stA.cur with lc := 3 }) ∧
    registerForm stA.cur (.lea (.mem 1) 0) = some (4, stA.cur.setAcc 0x100) ∧ stA.recall = none ∧ stA.cur.banks = 0 ∧
    (stWith fun x => { x with banks := 4 }).cur.banks = 4 := ⟨by decide, rfl, rfl, rfl, rfl, rfl⟩

/-- Destination slot 3 of core 0 is bound to a path to chip 9. -/
def stBound : State :=
  stA.setCore 0 { stA.core 0 with ds := [(3, { DSlot.reset with bound := true, path := mkHandle 1 6 0 9 2 })] }

theorem witness_branches : (∃ p, branchForm (.bgt 4) = some (p, 4)) ∧ stA.cur.live = true ∧ stA.cur.lc ≠ 1 ∧
    (stWith fun x => { x with lc := 1 }).cur.lc = 1 ∧ 2 ^ 4 ≤ (stBound.dslot 0 3).allowance ∧ (stBound.dslot 0 3).allowance < 2 ^ 5 ∧ stBound.cur.live = true :=
  ⟨⟨_, rfl⟩, by decide⟩

theorem witness_calls : stA.cur.live = true ∧ (∃ w, stA.store (stackAt stA (-8)) 8 (stA.cur.pc + 4).toNat = .ok w ∧
      w.cur.live = true) ∧
    (∃ t w, stA.source (.ptr 1) 0 8 = .ok (t, 0x100) ∧ t.store (stackAt t (-8)) 8 (stA.cur.pc + 4).toNat = .ok w ∧
      w.cur.live = true) ∧
    ∃ z w, stA.locate 0x100 8 8 .write tagStore true false = .ok (z, .buf false 0 0 0x100) ∧
      Loc.spot (.buf false 0 0 0x100) = some (lKey 0 0x100) ∧ z.recall = none ∧ stA.store 0x100 8 9 = .ok w :=
  ⟨by decide, ⟨_, rfl, rfl⟩, ⟨_, _, rfl, rfl, rfl⟩, _, _, rfl, rfl, rfl, rfl⟩

theorem witness_jumps : (∃ t, stA.source (.ptr 1) 0 8 = .ok (t, 0x100)) ∧
    (∃ t, (stA.write (lKey 0 0x35000) 8 0x3FFFE).load (stA.ptr 7) 8 = .ok (t, 0x3FFFE)) ∧
    (∃ t, (stA.write (lKey 0 0x35000) 8 0x40000).load (stA.ptr 7) 8 = .ok (t, 0x40000)) ∧
    (∃ t, (stA.write (lKey 0 0x35000) 8 0x3FFFF).load (stA.ptr 7) 8 = .ok (t, 0x3FFFF)) ∧
    (∃ t, (stWith fun x => { x with p := [(1, 0x40000)] }).source (.ptr 1) 0 8 = .ok (t, 0x40000)) ∧
    ∃ t, (stWith fun x => { x with p := [(1, 0x3FFFF)] }).source (.ptr 1) 0 8 = .ok (t, 0x3FFFF) :=
  ⟨⟨_, rfl⟩, ⟨_, rfl⟩, ⟨_, rfl⟩, ⟨_, rfl⟩, ⟨_, rfl⟩, _, rfl⟩

/-- Every slot of core 0 is live. -/
def stFull : State := stA.setCore 0 { stA.core 0 with slots := (List.range 11).map fun k => (k, slotA) }

theorem witness_start : stA.cur.live = true ∧ (∃ t, stA.source .acc 0 8 = .ok (t, 5)) ∧ LowestFree stA 1 ∧
    (∃ t, stFull.source .acc 0 8 = .ok (t, 5)) ∧ ∀ k, 1 ≤ k → k ≤ 10 → (stFull.slot stFull.curCore k).live = true :=
  ⟨by decide, ⟨_, rfl⟩, ⟨by decide, by decide, by decide, by omega⟩, ⟨_, rfl⟩,
    fun k h1 h2 => (by decide : ∀ k : Fin 11, (stFull.slot stFull.curCore k).live = true) ⟨k, by omega⟩⟩

/-- A gang runs on cluster 0, whose cores 1 to 3 are done. -/
def stLast : State :=
  ((((stA.setCore 1 { Core.reset with done := true }).setCore 2 { Core.reset with done := true }).setCore 3
    { Core.reset with done := true }).setCluster 0 { Cluster.reset with gang := some 7 })

/-- A word that the slot has sent to chip 9 waits at the router. -/
def stStuck : State :=
  { stA with stuck := [.path 9 { path := mkHandle 1 6 0 9 2, seq := 0, chip := 0, core := 0, slot := 0, ds := 3, off := 0,
                                 body := .word 5, tagOk := true, marked := false }] }

/-- A slot with a token busy. -/
def stTok : State := stWith fun x => { x with tok := [(2, { Tok.idle with busy := true })] }

theorem witness_end :
    (stStuck.cur.live = true ∧ stStuck.storesStuck stStuck.curCore stStuck.curSlot = true) ∧
    (stTok.storesStuck 0 0 = false ∧ stTok.cur.tokBusy = true) ∧ (stA.storesStuck 0 0 = false ∧ stA.cur.tokBusy = false) ∧
    (let s : State := { stFull with curSlot := 3 }; s.cur.live = true ∧ s.storesStuck 0 3 = false ∧ s.cur.tokBusy = false ∧
      s.curSlot ≠ 0) ∧
    (stFull.storesStuck 0 0 = false ∧ stFull.cur.tokBusy = false ∧ stFull.curSlot = 0 ∧ stFull.curCoreOf.othersLive 0 = true) ∧
    (stA.curCoreOf.othersLive 0 = false ∧ ∃ h ∈ coresOf (clusterOf stA.curCore), h ≠ stA.curCore ∧ (stA.core h).done = false) ∧
    (stLast.cur.live = true ∧ stLast.storesStuck 0 0 = false ∧ stLast.cur.tokBusy = false ∧ stLast.curSlot = 0 ∧
      stLast.curCoreOf.othersLive 0 = false ∧
      (∀ h ∈ coresOf (clusterOf stLast.curCore), h ≠ stLast.curCore → (stLast.core h).done = true) ∧
      (stLast.cluster (clusterOf stLast.curCore)).gang = some 7) := by decide

theorem witness_identity : stFull.cur.live = true ∧ stFull.curCoreOf.slots.Pairwise (fun a b => a.1 < b.1) ∧
    (18 : BitVec 13).toNat < 19 := by decide

/-! ## Lane instructions, descriptors and conversions (07, 08) -/

/-- A block in format f32: v in lane 0, zeros in the others. -/
def blockF (v : Nat) : Block := { data := leBytes 4 v ++ List.replicate 60 0, fmt := 0xC2, scale := 127 }

def putL (s : State) (off : Nat) (b : Block) : State := { s with mem := putBlock s.mem (lKey 0 off) b }

/-- 1.0 stands at L:0x240, 2.0 at L:0x280; results are f32 with scale 127. -/
def stF : State :=
  putL (putL (stWith fun x => { x with vf := BitVec.ofNat 19 (127 * 2048 + 0xC2) }) 0x240 (blockF 0x3F800000)) 0x280
    (blockF 0x40000000)

theorem test_vadd_adds : look (fun s => blockAt s.mem (lKey 0 0x100)) (exec (.vadd (.mem 1) (.mem 2) (.mem 3)) stF) =
    some (blockF 0x40400000) := by decide +kernel

theorem test_vfma_adds_to_d :
    look (fun s => blockAt s.mem (lKey 0 0x280)) (exec (.vfma (.mem 3) (.mem 2) (.mem 3)) stF) = some (blockF 0x40800000) := by
  decide +kernel

theorem test_vradd_sums : accOf (exec (.vradd (.mem 1) (.mem 2)) stF) = some 0x3F800000 := by decide +kernel

theorem test_vmsk_gathers : accOf (exec (.vmsk (.mem 2)) stF) = some 1#64 := by decide +kernel

theorem test_dget_reads : accOf (exec (.dget (.mem 2) 0) stF) = some 0x7FC2 := by decide +kernel

theorem test_vcvt_narrows :
    look (fun s => ((blockAt s.mem (lKey 0 0x100)).data.take 2, (blockAt s.mem (lKey 0 0x100)).fmt))
      (exec (.vcvt (.mem 1) (.mem 2)) (stF.setCur { stF.cur with vf := BitVec.ofNat 19 (127 * 2048 + 0xC1) })) =
      some ([0x80, 0x3F], 0xC1) := by decide +kernel

/-- The chain of reads that a statement names, with what it asks of their results: it succeeds, and all of that holds. -/
abbrev Meets (x : Except Stop Bool) : Prop := x.toOption = some true

/-- The destination a is the block at L:b, as DestBuffer asks. -/
def goodAt (u : State) (a : Word) (b : Nat) : Bool :=
  decide (u.recall = none) && decide (((u.laneLocate a).map Prod.snd).toOption = some (.buf false 0 0 b)) && !u.strikes 0 0 b 64 &&
    u.flaws.isEmpty

theorem good_at {u : State} {a : Word} {b : Nat} (h : goodAt u a b = true) : DestBuffer u (.mem a) (lKey 0 b) := by
  simp only [goodAt, Bool.and_eq_true, decide_eq_true_eq, Bool.not_eq_eq_eq_not, Bool.not_true, List.isEmpty_iff] at h
  obtain ⟨⟨⟨hr, hl⟩, hw⟩, hf⟩ := h
  cases he : u.laneLocate a with
  | error e => rw [he] at hl; cases hl
  | ok x =>
    obtain ⟨z, l⟩ := x
    rw [he] at hl
    cases hl
    exact ⟨a, z, false, 0, 0, b, rfl, hr, he, hw, rfl, by simp [hf]⟩

/-- What LaneReady and DestBuffer ask for, computed. -/
def laneTry (f : LaneForm) (s : State) (a : Word) (b : Nat) (p : List Src → Bool) : Bool :=
  match laneRefs f s with
  | (t, reads, d) =>
    match t.needPorts (blockUses reads d) with
    | .error _ => false
    | .ok q =>
      match checkedFirst f.short q d with
      | .error _ => false
      | .ok q' =>
        match q'.readSrcs f.chk [] reads with
        | .error _ => false
        | .ok (u, xs) => decide (d = .mem a) && goodAt u a b && p xs

theorem lane_witness {f : LaneForm} {s : State} {a : Word} {b : Nat} {p : List Src → Bool} (h : laneTry f s a b p = true) :
    ∃ u xs, LaneReady f s u (.mem a) xs ∧ DestBuffer u (.mem a) (lKey 0 b) ∧ p xs = true := by
  unfold laneTry at h
  rcases hr : laneRefs f s with ⟨t, reads, d⟩
  rw [hr] at h
  dsimp only at h
  split at h
  · cases h
  rename_i q hq
  split at h
  · cases h
  rename_i q' hq'
  split at h
  · cases h
  rename_i u xs hx
  simp only [Bool.and_eq_true, decide_eq_true_eq] at h
  obtain ⟨⟨rfl, hg⟩, hp⟩ := h
  exact ⟨u, xs, ⟨t, reads, q, q', hr, hq, hq', hx⟩, good_at hg, hp⟩

def formOf (i : Instr) : LaneForm := (laneForm i).getD ⟨checkNone, calcMov, 0, 0, false, [], .imm, false⟩

theorem witness_lane : laneForm (.vadd (.mem 1) (.mem 2) (.mem 3)) = some (formOf (.vadd (.mem 1) (.mem 2) (.mem 3))) ∧
    stF.cur.live = true ∧ lKey 0 0x100 + 64 ≤ descBase ∧
    ∃ u xs, LaneReady (formOf (.vadd (.mem 1) (.mem 2) (.mem 3))) stF u (.mem 0x100) xs ∧
      DestBuffer u (.mem 0x100) (lKey 0 0x100) ∧ decide (xs.length = 2) = true :=
  ⟨rfl, by decide, by decide, lane_witness (by decide +kernel)⟩

theorem witness_lane_to_a_port : Meets (do
    let f := formOf (.vadd (.queue 1) (.mem 2) (.mem 3))
    let r := laneRefs f stF
    let q ← r.1.needPorts (blockUses r.2.1 r.2.2)
    let x ← q.readSrcs f.chk [] r.2.1
    let _ ← (f.work x.1 x.2).1.pushPort 1 (blockWords (f.work x.1 x.2).2.data)
    .ok (decide (r.2.2 = .port 1))) := by decide +kernel

/-- The block at L:0x240 is poisoned. -/
def stPoison : State := putL stF 0x240 { blockF 0 with scale := 255 }

theorem witness_poison : laneForm (.vradd (.mem 1) (.mem 2)) = some (formOf (.vradd (.mem 1) (.mem 2))) ∧
    copiesPoison (.vradd (.mem 1) (.mem 2)) = false ∧ stPoison.cur.live = true ∧
    ∃ u xs, LaneReady (formOf (.vradd (.mem 1) (.mem 2))) stPoison u (.mem 0x100) xs ∧
      DestBuffer u (.mem 0x100) (lKey 0 0x100) ∧ (xs.any fun x => x.block.scale == 255) = true :=
  ⟨rfl, rfl, by decide, lane_witness (by decide +kernel)⟩

/-- Two sources, unpoisoned and no word of a. -/
def plainTwo (xs : List Src) : Bool :=
  xs.length == 2 && xs.all fun x => x.block.data.length == 64 && x.block.scale != 255 && !x.alpha

def plainOne (xs : List Src) : Bool := xs.length == 1 && xs.all fun x => x.block.data.length == 64 && x.block.scale != 255

theorem witness_bits : bitRow (.vandShort (.mem 2) (.mem 3)) ≠ none ∧
    laneForm (.vandShort (.mem 2) (.mem 3)) = some (formOf (.vandShort (.mem 2) (.mem 3))) ∧
    ∃ u xs, LaneReady (formOf (.vandShort (.mem 2) (.mem 3))) stF u (.mem 0x240) xs ∧
      DestBuffer u (.mem 0x240) (lKey 0 0x240) ∧ plainTwo xs = true :=
  ⟨by simp [bitRow], rfl, lane_witness (by decide +kernel)⟩

/-- S2 = a gives every lane of it the low bits of a. -/
theorem witness_bits_of_a : bitRow (.vand (.mem 1) (.mem 2) .acc) ≠ none ∧
    ∃ u xs, LaneReady (formOf (.vand (.mem 1) (.mem 2) .acc)) stF u (.mem 0x100) xs ∧ DestBuffer u (.mem 0x100) (lKey 0 0x100) ∧
      (xs.length == 2 && (xs.all fun x => x.block.data.length == 64 && x.block.scale != 255) && xs.any fun x => x.alpha) = true :=
  ⟨by simp [bitRow], lane_witness (by decide +kernel)⟩

/-- vf names f32 with a given scale, and the sources of a sum and of a comparison are not poisoned. -/
theorem witness_lane_values : (laneRow (.vadd (.mem 1) (.mem 2) (.mem 3))).isSome = true ∧
    (cmpRow (.vclt (.mem 1) (.mem 2) (.mem 3))).isSome = true ∧ (fmtOf (vfFmt stF.cur.vf)).isSome = true ∧
    vfAuto stF.cur.vf = false ∧ vfScale stF.cur.vf ≠ 255 ∧ stF.cur.live = true ∧
    (∃ u xs, LaneReady (formOf (.vadd (.mem 1) (.mem 2) (.mem 3))) stF u (.mem 0x100) xs ∧
      DestBuffer u (.mem 0x100) (lKey 0 0x100) ∧ plainTwo xs = true) ∧
    ∃ u xs, LaneReady (formOf (.vclt (.mem 1) (.mem 2) (.mem 3))) stF u (.mem 0x100) xs ∧
      DestBuffer u (.mem 0x100) (lKey 0 0x100) ∧ plainTwo xs = true :=
  ⟨rfl, rfl, by decide, by decide, by decide, by decide, lane_witness (by decide +kernel), lane_witness (by decide +kernel)⟩

/-- A sum of the lanes and a block to be scaled, not poisoned. -/
theorem witness_reduction : (∃ u xs, LaneReady (formOf (.vradd (.mem 1) (.mem 2))) stF u (.mem 0x100) xs ∧
      DestBuffer u (.mem 0x100) (lKey 0 0x100) ∧ plainOne xs = true) ∧
    ∃ u xs, LaneReady (formOf (.vscal (.mem 1) (.mem 2))) stF u (.mem 0x100) xs ∧
      DestBuffer u (.mem 0x100) (lKey 0 0x100) ∧ (plainOne xs && xs.all fun x => (fmtOf x.block.fmt.toNat).isSome) = true :=
  ⟨lane_witness (by decide +kernel), lane_witness (by decide +kernel)⟩

theorem witness_vcmpr_poison : ∃ u xs, LaneReady (formOf (.vcmpr (.mem 1) (.mem 2))) stPoison u (.mem 0x100) xs ∧
    DestBuffer u (.mem 0x100) (lKey 0 0x100) ∧ (xs.length == 1 && xs.all fun x => x.block.scale == 255) = true :=
  lane_witness (by decide +kernel)

theorem witness_vmov : copiesPoison (.vmov (.mem 1) (.mem 2)) = true ∧
    ∃ u xs, LaneReady (formOf (.vmov (.mem 1) (.mem 2))) stPoison u (.mem 0x100) xs ∧
      DestBuffer u (.mem 0x100) (lKey 0 0x100) ∧ (xs.length == 1 && xs.all fun x => x.block.data.length == 64) = true :=
  ⟨rfl, lane_witness (by decide +kernel)⟩

theorem witness_vbcast : ∃ u xs, LaneReady (formOf (.vbcast (.mem 1) (.mem 2))) stF u (.mem 0x100) xs ∧
    DestBuffer u (.mem 0x100) (lKey 0 0x100) ∧ plainOne xs = true := lane_witness (by decide +kernel)

theorem witness_vperm : ∃ u xs, LaneReady (formOf (.vperm (.mem 1) (.mem 2) (.mem 3))) stF u (.mem 0x100) xs ∧
    DestBuffer u (.mem 0x100) (lKey 0 0x100) ∧ plainTwo xs = true := lane_witness (by decide +kernel)

theorem witness_vcmpr : ∃ u xs, LaneReady (formOf (.vcmpr (.mem 1) (.mem 2))) stF u (.mem 0x100) xs ∧
    DestBuffer u (.mem 0x100) (lKey 0 0x100) ∧ plainOne xs = true := lane_witness (by decide +kernel)

/-- The chain of vmsk's reads, for a source that is poisoned or not. -/
def maskTry (s : State) (poison : Bool) : Except Stop Bool := do
  let x := s.operand (.mem 2) 0 64
  let q ← x.1.needPorts (x.2.uses false 8)
  let r ← q.readSrcs checkWidth [] [x.2]
  .ok (decide (r.2.length = 1) && r.2.all fun y => (y.block.scale == 255) == poison)

theorem witness_mask : Meets (maskTry stF false) ∧ Meets (maskTry stPoison true) := by decide +kernel

/-- The chain of a gather's reads, and whether some block of it is poisoned. -/
def gatherTry (s : State) (poison : Bool) : Except Stop Bool := do
    let e := evalRefs s [.mem 2, .mem 6, .mem 1]
    let q ← e.1.needPorts (blockUses [.mem 0x2C0] (.mem 0x100))
    let l ← q.locate 0x240 64 64 .read tagLaneRead false true
    let f ← l.1.tableFmt
    let i ← l.1.laneSource (.mem 0x2C0)
    let w ← i.1.readTable 0x240 (touchedBlocks f.width (indices (lanesOf f.width) i.2))
    .ok (decide (e.2 = [.mem 0x240, .mem 0x2C0, .mem 0x100]) && goodAt w.1 0x100 0x100 &&
      ((i.2 :: w.2.map Prod.snd).any fun x => x.block.scale == 255) == poison)

theorem witness_gather : Meets (gatherTry stF false) ∧ Meets (gatherTry stPoison true) := by decide +kernel

theorem witness_scatter : Meets (do
    let e := evalRefs stF [.mem 2, .mem 6, .mem 1]
    let q ← e.1.needPorts (blockUses [.mem 0x240, .mem 0x2C0] (.mem 0x100))
    let v ← q.laneSource (.mem 0x240)
    let f ← v.1.tableFmt
    let _ ← checkNum v.1 [] v.2
    let i ← v.1.laneSource (.mem 0x2C0)
    let l ← i.1.laneLocate 0x100
    let r ← l.1.scatterReads 0x100 (touchedBlocks f.width (indices (lanesOf f.width) i.2))
    .ok (decide (e.2 = [.mem 0x240, .mem 0x2C0, .mem 0x100]) && decide (r.1.recall = none) && (r.2.all fun o => match o.2.1 with
      | .buf _ n g off => !r.1.strikes n g off 64 && bufKey n g off % 64 == 0 && decide (bufKey n g off + 64 ≤ descBase)
      | _ => false) && r.1.flaws.isEmpty && r.2.length == 1)) := by decide +kernel

def convOf (i : Instr) : ConvForm := (convForm i).getD ⟨0, false, checkConv, false, [], .imm, checkFree, convPlain⟩

/-- The chain of a conversion's reads. -/
def convTry (i : Instr) (s : State) : Except Stop Bool := do
  let f := convOf i
  match convRefs f s with
  | (t, s1 :: s2, d) =>
    let q ← t.needPorts (blockUses (s1 :: s2) d)
    let q' ← checkedFirst f.short q d
    let r ← q'.readSrcs f.chk [] [s1]
    let g ← r.1.vfNum
    match r.2 with
    | [x] =>
      let v ← r.1.readSrcs f.chk [x] (restRefs s1 (srcCount (widthOf x.block.fmt.toNat) g.width))
      let ws ← s2.mapM fun z => do
        let w ← v.1.laneSource z
        f.chk2 w.1 (widthOf x.block.fmt.toNat) w.2
        .ok w.1
      .ok (decide (d.nth 0 = .mem 0x100) && goodAt (ws.headD v.1) 0x100 0x100 && decide (ws.length ≤ 1) &&
        (!f.needInt || g.kind == .integer) && dstCount (widthOf x.block.fmt.toNat) g.width == 1)
    | _ => .ok false
  | _ => .ok false

/-- Results are signed integers of 8 bits, as the block at L:0x280 is; four blocks of f32 stand from L:0x240 on. -/
def stQ : State :=
  let s := stF.setCur { stF.cur with vf := BitVec.ofNat 19 (127 * 2048 + 0x80), p := [(1, 0x100), (2, 0x240), (3, 0x400)] }
  putL (putL (putL (putL s 0x400 { blockF 0 with fmt := 0x80 }) 0x280 (blockF 0)) 0x2C0 (blockF 0)) 0x300 (blockF 0)

theorem witness_conversion : (convForm (.vcvt (.mem 1) (.mem 2))).isSome = true ∧ Meets (convTry (.vcvt (.mem 1) (.mem 2)) stF) ∧
    Meets (convTry (.vqnt (.mem 1) (.mem 2) (.mem 3)) stQ) := by decide +kernel

theorem witness_pack : Meets (do
    let e := evalRefs stF [.mem 2, .mem 1]
    let q ← e.1.needPorts (blockUses [] (.mem 0x100))
    let u ← q.descsFrom 0x240 0 32
    .ok (decide (e.2 = [.mem 0x240, .mem 0x100]) && goodAt u.1 0x100 0x100)) := by decide +kernel

/-- The place j of vunpk's targets is the block j after L:0x100. -/
def targetAt (ls : List (Nat × Loc)) (j : Nat) : Bool := decide (ls[j]? = some (j, .buf false 0 0 (0x100 + 64 * j)))

theorem witness_unpack : Meets (do
    let e := evalRefs stF [.mem 6, .mem 1]
    let q ← e.1.needPorts (Ref.uses (.mem 0x2C0) false 8)
    let v ← q.laneSource (.mem 0x2C0)
    let r ← v.1.descTargets 0x100 0 32
    let w ← r.1.descsOut 0x100 v.2.block.data false r.2
    let _ ← w.descsDone (r.2.map Prod.snd)
    .ok (decide (e.2 = [.mem 0x2C0, .mem 0x100]) && v.2.block.scale != 255 && !fmtReserved v.2.block.fmt.toNat &&
      (reservedIn v.2.block.data).isNone && (r.2.all fun p => !r.1.strikesLoc p.2) && decide (r.1.recall = none) &&
      lKey 0 0x100 % 64 == 0 && decide (lKey 0 0x100 + 2048 ≤ descBase) && (List.range 32).all (targetAt r.2))) := by
  decide +kernel

theorem witness_descriptors : Meets (do
    let x ← stF.address (.mem 2) 0 64
    let _ ← x.1.descRead 0x240
    let l ← x.1.locate 0x240 64 64 .write tagDescWrite false false
    let w ← l.1.descLoc 0x240 (some 0xC2) 127 l.2
    let _ ← w.descsDone [l.2]
    .ok (x.2 == 0x240 && decide (l.2 = .buf false 0 0 0x240) && decide (l.1.recall = none) && !l.1.strikes 0 0 0x240 64)) ∧
    fmtReserved (stF.acc.toNat % 256) = true ∧ fmtReserved ((stWith fun x => { x with a := 0x7FC2 }).acc.toNat % 256) = false ∧
    fmtReserved 0xC2 = false ∧ fmtReserved 0xFF = true ∧
    Meets (do let x ← stF.source .imm 0xC2 8; .ok (x.2 == 0xC2)) ∧
    Meets (do let x ← stF.source .imm 0xFF 8; .ok (x.2 == 0xFF)) := by decide +kernel

theorem witness_rounding : OnStep (-1) (.fin true 3 0) ∧ OnStep (-1) (.fin false 5 (-1)) ∧ (-1 : Int) < 0 ∧ roundTo 0 false 3 (-1) 0 = 2 ∧ roundTo 1 false 3 (-1) 0 = 1 :=
  ⟨by simp [OnStep], by simp [OnStep], by decide⟩

/-! ## Tiles, the matrix array, the accumulators (13) -/

/-- One row of one f32 element; and one row of one signed integer of 8 bits. -/
def shapeF : BitVec 23 := BitVec.ofNat 23 (32768 + 256 + 0xC2)
def shapeI : BitVec 23 := BitVec.ofNat 23 (32768 + 256 + 0x80)

/-- Tiles 0 and 2 hold one row of f32, pointers 2 and 3 name blocks of A with f32 data, and the results are f32. -/
def stM : State :=
  let s := stWith fun x =>
    { x with p := [(2, 0x1000000000000240#64), (3, 0x1000000000000280#64)], vf := BitVec.ofNat 19 (127 * 2048 + 0xC2) }
  let s : State := { s with mem := putBlock (putBlock s.mem (aKey 0 0x240) (blockF 0x40000000)) (aKey 0 0x280) (blockF 0x40400000) }
  s.setCore 0 { s.core 0 with shape := [(0, shapeF), (2, shapeF)] }

/-- The same with integer tiles. -/
def stMI : State := stM.setCore 0 { stM.core 0 with shape := [(0, shapeI), (2, shapeI)] }

theorem test_tld_takes_a_row :
    look (fun s => (mread s.mem (tileRow 0 0 0) 4, s.cur.park.isSome, s.ptr 2)) (exec (.tld 0 false 2) stM) =
      some (0x40000000, true, 0x1000000000000240#64) := by decide +kernel

theorem test_mm_needs_valid_shapes : look (fun s => s.cur.cause) (exec (.mm 0 1 2 0) stM) = some 5 := by decide

theorem test_mmx_of_one_pair : look (fun s => s.cur.cause) (exec (.mmx 0 1 0 0 2 3) stM) = some 1 := by decide

theorem witness_shapes : stM.cur.live = true ∧ stM.curCore < 1024 ∧ Meets (do let _ ← stM.tilesFree [] [0]; .ok true) ∧
    Meets (do let _ ← stM.tilesFree [0] []; .ok true) ∧ Meets (do let _ ← stM.tilesFree [0] [1]; .ok true) ∧
    shapeValid ((stWith fun x => { x with a := 0x80C2 + 256 }).acc.truncate 23) = true ∧
    shapeValid (stM.acc.truncate 23) = false := by decide +kernel

theorem witness_tile_moves : stM.recall = none ∧
    Meets (do
      let q ← stM.tilesFree [] [0]
      let ls ← q.rowLocs .read tagAW (stM.rowAddr 2) 0 (shapeRows (stM.shapeOf 0))
      let _ ← ls.1.rowsFmt (shapeFmt (stM.shapeOf 0)) ls.2
      .ok (shapeValid (stM.shapeOf 0))) ∧
    Meets (do
      let q ← stMI.tilesFree [] [0]
      let ls ← q.rowLocs .read tagAW (stMI.rowAddr 2) 0 (shapeRows (stMI.shapeOf 0))
      match ls.1.rowsFmt (shapeFmt (stMI.shapeOf 0)) ls.2 with
      | .error (.trap 5 a) => .ok (a == 0x1000000000000240#64)
      | _ => .ok false) ∧
    Meets (do
      let q ← stM.tilesFree [0] []
      let ls ← q.rowLocs .write tagA (stM.rowAddr 2) 0 (shapeRows (stM.shapeOf 0))
      .ok (shapeValid (stM.shapeOf 0) && ls.2.all fun x => decide (x.2 = .buf false 1 0 0x240) && !stM.strikesLoc x.2)) ∧
    (stM.shapeOf 1 = 0 ∧ shapeValid (stM.shapeOf 1) = false ∧ Meets (do let _ ← stM.tilesFree [] [1]; .ok true) ∧
      Meets (do let _ ← stM.tilesFree [1] []; .ok true)) := by decide +kernel

theorem witness_accumulators : stM.cur.live = true ∧ stM.curCore < 1024 ∧ Meets (do let _ ← stM.tilesFree [] [8 + 7]; .ok true) ∧
    Meets (do let _ ← stM.tilesFree [] [8 + 7, 8 + 0]; .ok true) ∧ (stM.accOf stM.curCore 7).isInt = (stM.accOf stM.curCore 0).isInt ∧
    Meets (do
      let f ← stM.vfNum
      let r ← stM.tilesFree [] [8 + 7]
      let ls ← r.checkBlocks .write tagLA (stM.blockAddrs 2 1 (rowBlocks f.width))
      .ok (ls.2.all fun x => !stM.strikesLoc x.2.2.2)) := by decide +kernel

/-- Cells of both kinds, finite and not. -/
theorem witness_cells : (stM.accOf stM.curCore 7).isInt = false ∧ (fmtCell.read 0).isZero = true ∧
    fmtCell.read (2 ^ 56 - 1) = .nan ∧ (4 : BitVec 3).toNat ≤ 4 := by decide +kernel

/-- The blocks that tst and crd write, none of which is in an error. -/
theorem witness_written_blocks : stM.flaws = [] ∧ Meets (do
      let q ← stM.tilesFree [0] []
      let ls ← q.rowLocs .write tagA (stM.rowAddr 2) 0 (shapeRows (stM.shapeOf 0))
      .ok (ls.2.map Prod.snd == [Loc.buf false 1 0 0x240])) ∧ Meets (do
      let f ← stM.vfNum
      let r ← stM.tilesFree [] [8 + 7]
      let ls ← r.checkBlocks .write tagLA (stM.blockAddrs 2 1 (rowBlocks f.width))
      .ok (ls.2.map (fun x => x.2.2.2) == (List.range 4).map fun b => Loc.buf false 1 0 (0x240 + 64 * b))) ∧
    ({ AccTile.reset with status := 1 } : AccTile).isInt = true := by decide +kernel

/-- Blocks of images of cells stand from A:0x240 on. -/
def stC : State :=
  { stM with mem := (List.range 8).foldl (fun m i => putBlock m (aKey 0 (0x240 + 64 * i)) { blockF 0 with fmt := 0xC3 }) stA.mem }

theorem witness_cwr : stC.cur.live = true ∧ (stC.accOf stC.curCore 0).isInt = false ∧ Meets (do
    let r ← stC.tilesFree [] [8 + 0]
    let ls ← r.checkBlocks .read tagLAW (stC.blockAddrs 2 1 8)
    let _ ← ls.1.imagesFmt ls.2
    .ok true) := by decide +kernel

theorem witness_mm : stM.cur.live = true ∧ Meets (do
    let _ ← stM.takeTiles true [0, 2] [8 + 1]
    let _ ← stM.stepCheck 1 0 2 0
    .ok true) := by decide +kernel

/-- A chunk step of integer tiles and a macro-operation's step end now. -/
def stStep : State :=
  stMI.setCore 0 { stMI.core 0 with array := some { slot := 0, c := 1, x := 0, y := 2, sr := 0, till := 0, replayed := false } }

def stDam : State :=
  stM.setCore 0 { stM.core 0 with
    damask := some { slot := 0, n := 0, c := 1, x := 0, y := 2, sr := 0, a := 2, b := 3, till := 0, replayed := false } }

/-- The step has been replayed once already. -/
def stStep2 : State :=
  stStep.setCore 0 { stStep.core 0 with
    array := some { slot := 0, c := 1, x := 0, y := 2, sr := 0, till := 0, replayed := true } }

theorem witness_residue : ((stStep2.core 0).array.any fun a => a.slot == 0 && a.replayed && a.c < 8 && a.x < 8 && a.y < 8 &&
    (stStep2.core 0).checkedStep a.x a.y a.sr) = true := by decide +kernel

theorem witness_array_steps : stStep.cur.live = true ∧ (stStep.core 0).cycle = 0 ∧
    ((stStep.core 0).array.any fun a => shapeValid ((stStep.core 0).shapeOf a.x) && a.slot == 0 && !a.replayed &&
      (stStep.core 0).checkedStep a.x a.y a.sr) = true ∧
    (stDam.slot 0 0).live = true ∧ (stDam.cluster 0).halt = false ∧
    ((stDam.core 0).damask.any fun d => d.slot == 0 && d.c < 8 && d.x < 8 && d.y < 8 && d.sr < 8 && d.a < 8 && d.b < 8 &&
      d.a != d.b && (({ stDam with curCore := 0, curSlot := 0 } : State).loadImages d).toOption.isSome) = true ∧
    ((0 : BitVec 3).toNat / 2 = (1 : BitVec 3).toNat / 2) ∧ stM.cur.lc ≠ 0 ∧ (stWith fun x => { x with lc := 0 }).cur.lc = 0 ∧
    Meets (do
      let _ ← stM.takeTiles true [] [0, partner 0, 2, partner 2, 8 + 1]
      let _ ← stM.stepCheck 1 0 2 0
      .ok true) := by decide +kernel

/-! ## Global memory, copies, quantisation commands and atomics (07, 09, 10) -/

def gangG : Gang :=
  { launch := 3, index := 0, die := 0, cluster := 0, state := .running, reason := 0, hold := false, image := 0, reqDt := 0,
    placed := 0, order := 0, keep := [], packets := [] }

def launchG : Launch :=
  { ctx := 0, graph := 0, node := 0, ident := 0, ngang := 1, record := [], order := 0, left := 1, failed := false }

def entryG : PageEntry := { ctx := 0, va := 0x10000, pte := mkPte 1 0 16 0 15 false, lease := leaseKey 0 5, gen := 3 }

/-- Context 0 is live until DT 1000000; its range (die 0, index 5) holds one page of 64 KiB at G:0x10000, frame 16; its gang 7
runs on cluster 0. Pointer 2 names the page. -/
def stG : State :=
  { (stWith fun x => { x with p := [(1, 0x100), (2, 0x8000000000010000#64), (6, 0x240), (7, 0x35000)] }).setCluster 0
      { Cluster.reset with gang := some 7 } with
    leases := [(leaseKey 0 5, { cls := 2, gen := 3, e := 1000000, anchored := false, owner := 0, inUse := true,
                                data := .range 0x10000 65536 0 false }),
               (leaseKey 8 0, { Lease.unused with cls := 1, gen := 1, e := 1000000, inUse := true })],
    entries := [entryG], contexts := [(0, { Context.unused with live := true })], gangs := [(7, gangG)],
    launches := [(3, launchG)] }

theorem test_gldv_moves_a_block :
    look (fun s => blockAt s.mem (lKey 0 0x240))
      (again (.gldv (.mem 2) 0) { stG with mem := putBlock stG.mem 0x10000 (blockF 0x3F800000) }) = some (blockF 0x3F800000) := by
  decide +kernel

theorem test_st_to_an_absent_page : look (fun s => (s.cur.cause, s.cur.faddr)) (again (.stD (.disp 2) 0x1FFF#13) stG) =
    some (8, 0x800000000000FFF8#64) := by decide

theorem test_aadd : accOf (exec (.aadd (.mem 1) 0) (stA.write (lKey 0 0x100) 8 7)) = some 7 ∧
    look (fun s => mread s.mem (lKey 0 0x100) 8) (exec (.aadd (.mem 1) 0) (stA.write (lKey 0 0x100) 8 7)) = some 12 := by
  decide

theorem test_acas_unequal : look (fun s => (mread s.mem (lKey 0 0x100) 8, flagF s.flags)) (exec (.acas (.mem 1) 0)
    (stA.write (lKey 0 0x100) 8 7)) = some (7, true) := by decide

/-- The word of L:0x100 is in an error past correction. -/
def stFlaw : State := { stG with flaws := [(lKey 0 0x100, true)] }

theorem witness_flaw : stFlaw.recall = none ∧ (lKey 0 0x100, true) ∈ stFlaw.flaws ∧ lKey 0 0x100 / 8 * 8 = lKey 0 0x100 ∧
    tagOf 0x100#64 = 0 ∧ offOf 0x100#64 < 0x40000 ∧ offOf 0x100#64 % 8 = 0 ∧ stFlaw.ctxOf stFlaw.curCore < 1024 := by decide

theorem witness_store_in_memory : stG.cur.live = true ∧ Meets (do
    let z ← (stG.operand (.mem 2) 0 8).1.locate 0x8000000000010000#64 8 8 .write tagStore true false
    match z.2 with
    | .glob r _ _ => .ok (decide (z.1.recall = none) && !z.1.writeWaits r && decide (Loc.spot z.2 = some 0x10000))
    | _ => .ok false) ∧ Meets (do
    let z ← ((after (.stD (.mem 2) 0) stG).operand (.mem 2) 0 8).1.locate 0x8000000000010000#64 8 8 .write tagStore true false
    match z.2 with
    | .glob _ _ _ => .ok (decide (z.1.recall = some .done))
    | _ => .ok false) := by decide +kernel

/-- The chain of a load of the word at G:0x10000; ok says what the log must then hold. -/
def loadTry (s : State) (ok : Option Reply → Bool) : Except Stop Bool := do
  let z ← s.locate 0x8000000000010000#64 8 8 .read tagLoad true false
  .ok (decide (z.2 = .glob (.here 0x10000) entryG 0x10000) && pteMode entryG.pte != 3 && ok z.1.recall && z.1.flaws.isEmpty)

theorem witness_load_from_memory : Meets (loadTry stG fun r => r.isNone) ∧
    Meets (loadTry (withLog stG [.place (.glob (.here 0x10000) entryG 0x10000) false, .block (blockF 0)]) fun r => match r with
      | some (.block b) => b.scale != 255
      | _ => false) := by decide +kernel

/-- The chain of a block's move through G, as far as its write; done is what the log must then hold. -/
def blockTry (s : State) (put : Bool) (done : Option Reply) : Except Stop Bool := do
  let x ← s.address (.mem 2) 0 64
  let u := x.1.stepPtr 6 (x.1.stepInt 6)
  let l ← u.locate x.2 64 64 (if put then .write else .read) tagG false false
  let d ← l.1.locate (x.1.ptr 6) 64 64 (if put then .read else .write) (if put then tagLaneRead else tagLaneWrite) false false
  let w ← d.1.blockLoc (if put then d.2 else l.2)
  .ok (decide (d.2 = .buf false 0 0 0x240) && decide (l.2 = .glob (.here 0x10000) entryG 0x10000) && decide (w.1.recall = done) &&
    w.1.flaws.isEmpty && !w.1.strikes 0 0 0x240 64 && !w.1.writeWaits (.here 0x10000))

theorem witness_global_blocks : stG.cur.live = true ∧ Meets (blockTry (after (.gldv (.mem 2) 0) stG) false none) ∧
    Meets (blockTry stG true none) ∧ Meets (blockTry (after (.gstv (.mem 2) 0) stG) true (some .done)) := by decide +kernel

/-- One of the copies that fill the engine of cluster 0. -/
def copyG : Copy :=
  { core := 0, slot := 0, tok := 0, ctx := 0, gang := 7, desc := [], descAt := 0, engine := 0, accepted := false, suspended := false,
    ended := false, status := 0, next := 0, todo := [], moved := 0, missing := [], faults := [], blocks := [], replay := false,
    packet := none, log := [], cleared := [], guest := none, spoiled := [] }

/-- The chain of cpy's reads at [p1], to the question whether the engine takes the copy; r is what the log must then hold. -/
def copyTry (s : State) (room : Bool) (r : Option Reply) : Except Stop Bool := do
  let x ← s.address (.mem 1) 0 8
  let u ← x.1.locate x.2 128 128 .read (fun t => t == 0) false false
  let d ← u.1.descLoads x.2 0 16
  let w ← d.1.once (d.1.tokIdle (tget Tok.idle d.1.cur.tok 3).busy)
  let y ← w.access none (fun x => (x, .num (x.engineFor x.curCore (x.ctxOf x.curCore) (field d.2 0 8))))
  .ok (y.1.engineRoom y.2.toNat == room && engChip y.2.toNat == s.chip && decide (y.1.recall = r))

/-- The same, where the token is busy. -/
def busyTry (s : State) : Except Stop Bool := do
  let x ← s.address (.mem 1) 0 8
  let u ← x.1.locate x.2 128 128 .read (fun t => t == 0) false false
  let d ← u.1.descLoads x.2 0 16
  .ok ((tget Tok.idle d.1.cur.tok 3).busy && d.1.recall.isNone)

def stFullEngine : State := { stG with copies := (List.range 32).map fun k => (k, copyG) }

theorem witness_copies : stG.cur.live = true ∧ Meets (copyTry stG true none) ∧
    Meets (copyTry (after (.cpy 3 (.mem 1) 0) stG) true (some (.num 0))) ∧
    Meets (busyTry (stG.setCur { stG.cur with tok := [(3, { Tok.idle with busy := true })] })) ∧
    (∀ k < 8, (0xFF : BitVec 8).getLsbD k = true → (tget Tok.idle stG.cur.tok k).busy = false) ∧
    (0x08 : BitVec 8).getLsbD 3 = true := by decide +kernel

theorem witness_copies_full : Meets (copyTry stFullEngine false none) ∧
    Meets (copyTry (after (.cpy 3 (.mem 1) 0) stFullEngine) false (some (.num 1))) := by decide +kernel

def quantG : QuantCmd :=
  { ctx := 0, core := 0, slot := 0, ticket := 1, desc := List.replicate 64 0, descAt := 0, ran := false, status := 0, amax := 0,
    done := 0, nsat := 0, nnan := 0, npois := 0, nskip := 0, gang := 7, begun := none, next := 0, log := [], recorded := false }

/-- The chain of qsub's reads at [p1]; ok says what the log must then hold. -/
def quantTry (s : State) (ok : Option Reply → Bool) : Except Stop Bool := do
  let x ← s.address (.mem 1) 0 8
  let l ← x.1.locate x.2 64 64 .read (fun t => t == 0) false false
  let b ← l.1.blockLoc l.2
  .ok (b.2.scale != 255 && ok b.1.recall)

def stFullQuant : State := { stG with quant := [(3, { QuantEngine.reset with queue := List.replicate 128 quantG })] }

theorem witness_quant : stG.cur.live = true ∧ Meets (quantTry stG fun r => decide (r = none)) ∧
    (stG.engine 3).queue.length < 128 ∧ Meets (quantTry stFullQuant fun r => decide (r = none)) ∧
    128 ≤ (stFullQuant.engine 3).queue.length ∧
    Meets (quantTry (after (.qsub 3 (.mem 1) 0) stG) fun r => decide (r = some (.num 1))) ∧ stG.recall = none ∧
    (after (.qstat 3) stG).recall = some (.num 128) := by decide +kernel

/-- The chain of an atomic's reads, as AtomicRead has it. -/
def amoTry (funct size : Nat) (sp : Spec) (s : State) : Except Stop Bool := do
  let x ← s.address sp 0 size
  let v ← x.1.atomicLoc x.2 size size
  let u ← if funct = 9 then do
      let w ← v.1.targetFirst x.2 size v.2
      w.load (w.ptr 7) size
    else .ok (v.1, 0)
  match v.2 with
  | .buf false 0 0 off => .ok (off == 0x100 && !u.1.strikes 0 0 off size && decide (u.1.recall = none))
  | .glob (.here k) _ _ => .ok (k == 0x10000 && decide (u.1.recall = none))
  | _ => .ok false

theorem witness_atomics : amoForm (.acasW (.mem 1) 0) = some (9, 4, .mem 1, 0) ∧ amoForm (.aadd (.mem 2) 0) = some (0, 8, .mem 2, 0) ∧
    stA.cur.live = true ∧ poisoned stA.mem (lKey 0 0x100) = false ∧ poisoned stG.mem 0x10000 = false ∧ stG.flaws = [] ∧
    Meets (amoTry 9 4 (.mem 1) stA) ∧ Meets (amoTry 0 8 (.mem 2) stG) ∧ Meets (do
      let x ← stA.address (.mem 1) 0 8
      let v ← x.1.atomicLoc x.2 8 8
      let w ← v.1.amoAt x.2 0 8 5 0 v.2
      .ok (w.2 == 0)) := by decide +kernel

/-- A block of f32 stands at L:0x100 too. -/
def stV : State := putL stF 0x100 (blockF 0x3F800000)

/-- The place is the block at L:0x100 under no watchpoint, and that block takes lanes of 32 bits. -/
def spotAt (u : State) (l : Loc) : Bool :=
  (match l with
   | .buf false 0 0 off => decide (off / 64 * 64 = 0x100)
   | _ => false) && !u.strikes 0 0 0x100 64 && u.flaws.isEmpty &&
  (fmtOf (blockAt u.mem (bufKey 0 0 0x100)).fmt.toNat).map (·.width) == some 32

theorem witness_vector_atomics : (vamoForm (.vaadd (.mem 1) (.mem 2))).isSome = true ∧ bufKey 0 0 0x100 + 64 ≤ descBase ∧
    bufKey 0 0 0x100 % 64 = 0 ∧ Meets (do
    let e := evalRefs stV [.mem 2, .mem 1]
    let q ← e.1.needPorts (Ref.uses (.mem 0x240) false 8)
    let r ← q.readSrcs checkVamo [] [.mem 0x240]
    let l ← r.1.atomicLoc 0x100 64 64
    let _ ← l.1.vamoAt 0x100 0 (r.2.getD 0 ⟨false, blockF 0, 0⟩) [] l.2
    .ok (decide (e.2 = [.mem 0x240, .mem 0x100] ∧ l.1.recall = none) && spotAt l.1 l.2 && r.2.length == 1 && r.2.all fun y =>
      widthOf y.block.fmt.toNat == 32)) := by decide +kernel

/-- A block of a 4-bit format stands at L:0x100, which no scatter atomic takes; the source may be a (log 32). -/
def stNibble : State := putL stF 0x100 { blockF 0 with fmt := 0x61 }

/-- The chain of a scatter atomic's reads whose first lane meets that block. -/
def nibbleTry (a : Spec) : Except Stop Bool := do
  let e := evalRefs stNibble [a, .mem 6, .mem 1]
  let q ← e.1.needPorts ((e.2.getD 0 (.imm 0)).uses false 8)
  let r ← q.readSrcs checkVamo [] [e.2.getD 0 (.imm 0)]
  let w ← r.1.readRun 0x2C0 0 1
  let l ← w.1.atomicLoc (ptrAdd 0x100 0) 4 4
  .ok (decide (w.1.recall = none) && (r.2.all fun y => widthOf y.block.fmt.toNat == 32) && w.2.all (fun k => k.scale != 255) &&
    decide (l.2 = .buf false 0 0 0x100) && w.1.flaws.isEmpty && widthOf (blockAt w.1.mem (bufKey 0 0 0x100)).fmt.toNat == 4)

theorem witness_scatter_mismatch : stNibble.cur.priv = false ∧ GoodVector stNibble.curCoreOf.tvec ∧ GoodVector stNibble.curCoreOf.kstk ∧
    stNibble.cur.restart = none ∧ (stNibble.cluster 0).halt = false ∧ Meets (nibbleTry (.mem 2)) ∧ Meets (nibbleTry .acc) := by
  unfold GoodVector; decide +kernel

theorem test_scatter_mismatch : look (fun s => (s.cur.cause, s.cur.faddr, s.cur.rdet)) (exec (.vaaddS (.mem 1) .acc (.mem 6)) stNibble) =
    some (5, 0x100, 0x8000040000000000#64) := by decide +kernel

theorem witness_scatter_atomics : (scatterForm (.vaaddS (.mem 1) (.mem 2) (.mem 6))).isSome = true ∧ stV.cur.restart = none ∧ Meets (do
    let e := evalRefs stV [.mem 2, .mem 6, .mem 1]
    let q ← e.1.needPorts (Ref.uses (.mem 0x240) false 8)
    let r ← q.readSrcs checkVamo [] [.mem 0x240]
    let is ← r.1.readRun 0x2C0 0 (ceilDiv (lanesOf 32 * 4) 64)
    let l ← is.1.atomicLoc (ptrAdd 0x100 (laneIndex (is.2.flatMap fun k => k.data) 3 * (32 / 8 : Nat))) 4 4
    let _ ← is.1.scatterLanes 0 (r.2.getD 0 ⟨false, blockF 0, 0⟩) 32
      (fun j => ptrAdd 0x100 (laneIndex (is.2.flatMap fun k => k.data) j * (32 / 8 : Nat))) 0 (lanesOf 32)
    .ok (decide (e.2 = [.mem 0x240, .mem 0x2C0, .mem 0x100] ∧ is.1.recall = none) && spotAt is.1 l.2 && r.2.length == 1 &&
      (r.2.all fun y => widthOf y.block.fmt.toNat == 32) && is.2.all (fun k => k.scale != 255) &&
      (List.range 16).all (fun j => laneIndex (is.2.flatMap fun k => k.data) j == 0) &&
      !(is.1.cluster (clusterOf is.1.curCore)).halt)) := by decide +kernel

/-! ## Synchronisation, leases and the fabric (06, 10, 11, 16) -/

theorem test_cbar_waits : look (fun s => (s.cur.park.isSome, s.cur.pc, (s.cluster 0).bar 1)) (exec (.cbar 1) stA) =
    some (true, 0x400, 1) := by decide

theorem test_watch_full : look (fun s => (flagF s.flags, s.cur.watch)) (exec (.watch (.mem 1) 0)
    (stWith fun x => { x with watch := [0, 8, 16, 24] })) = some (true, [0, 8, 16, 24]) := by decide

/-- The chain of a watch's operand at [p1]. -/
def watchTry (s : State) : Except Stop Bool := do
  let x ← s.address (.mem 1) 0 8
  let _ ← x.1.locate x.2 8 8 .read (fun t => t == 0) false false
  .ok (decide (offOf x.2 = 0x100))

theorem witness_watch : stA.cur.live = true ∧ Meets (watchTry stA) ∧ 0x100 ∉ stA.cur.watch ∧ stA.cur.watch.length < 4 ∧
    (let s := stWith fun x => { x with watch := [0, 8, 16, 24] }; Meets (watchTry s) ∧ 0x100 ∉ s.cur.watch ∧ 4 ≤ s.cur.watch.length) ∧
    (let s := stWith fun x => { x with watch := [0x100] }; Meets (watchTry s) ∧ 0x100 ∈ s.cur.watch ∧ s.cur.restored = false ∧
      s.cur.fired = false ∧ s.cur.watch ≠ []) ∧
    (stWith fun x => { x with fired := true }).cur.fired = true ∧ (stWith fun x => { x with restored := true }).cur.restored = true ∧
    (stA.cur.restored = false ∧ stA.cur.fired = false ∧ stA.cur.watch = []) := by decide +kernel

/-- Cores 1 to 3 have arrived at barrier 2. -/
def stBar : State := stA.setCluster 0 { Cluster.reset with cbar := [(2, 0b1110#4)] }

theorem witness_barrier : stA.cur.live = true ∧ stA.cur.cbar = none ∧ stA.behind (.cbar 2) = false ∧
    ((stA.cluster 0).bar 2).getLsbD 0 = false ∧ (∃ j < 4, j ≠ 0 ∧ ((stA.cluster 0).bar 2).getLsbD j = false) ∧
    stBar.cur.live = true ∧ stBar.cur.cbar = none ∧ stBar.behind (.cbar 2) = false ∧ ((stBar.cluster 0).bar 2).getLsbD 0 = false ∧
    (∀ j < 4, j ≠ 0 → ((stBar.cluster 0).bar 2).getLsbD j = true) ∧
    (stWith fun x => { x with cbar := some (2, false) }).cur.cbar = some (2, false) := by decide

/-- Slot 0 has a write on its way to chip 9. -/
def stOut : State :=
  { stG with remote := [{ id := 4, core := 0, slot := 0, ctx := 0, chip := 9, pa := 0x40, op := .write [1], resend := 0, since := 0,
                             fill := none, fails := 0 }] }

theorem witness_timeline_and_fence : stA.timeline 3 < stA.acc.toNat ∧
    (stWith fun x => { x with a := 0 }).acc.toNat ≤ (stWith fun x => { x with a := 0 }).timeline 4 ∧
    (stA.offChip stA.curCore stA.curSlot = false ∧ stA.writesOut (stA.cur.mark.getD stA.nextId) = false) ∧ stOut.cur.live = true ∧
    stOut.offChip stOut.curCore stOut.curSlot = true ∧ stA.recall = none ∧ (after (.tread 3) stA).recall = some (.num 0) := by
  decide

/-- A home's reply. -/
def repG : HomeRep :=
  { id := 4, ctx := 0, chip := 0, queued := false, h := mkHandle 1 3 0 0 5, a := 9, f := false, e := 500, fault := none, size := 0,
    owner := 0 }

/-- The log of n words read from L:0x100 on, all v. -/
def wordLog (n v : Nat) : List Reply := (List.range n).flatMap fun k => [.place (.buf false 0 0 (0x100 + 8 * k)) false, .num v]

/-- The slot has read n words and holds the reply p. -/
def stRep (n : Nat) (p : HomeRep) : State := withLog stG (wordLog n 0 ++ [.home p])

theorem test_renew_reads_the_reply : accOf (exec (.renew (.mem 1) 0) (stRep 1 repG)) = some 500 := by decide

theorem test_lk_taken : look (fun s => (s.acc, flagF s.flags)) (exec (.lk 0 (.mem 2) 0)
    (withLog stG [.place (.glob (.here 0x10000) entryG 0x10000) true, .home { repG with f := true }])) = some (500, true) := by decide

/-- The chain of Answered: n words read, then the reply. -/
def answerTry (s : State) (n : Nat) (p : HomeRep) : Except Stop Bool := do
  let x ← s.address (.mem 1) 0 8
  let u ← x.1.words x.2 n
  .ok (decide (u.1.recall = some (.home p)) && u.2.length == n)

theorem witness_home_reply : (stRep 1 repG).cur.live = true ∧ repG.fault = none ∧ Meets (answerTry (stRep 1 repG) 1 repG) ∧
    Meets (answerTry (stRep 2 repG) 2 repG) ∧ Meets (answerTry (stRep 3 repG) 3 repG) ∧
    (let p := { repG with fault := some (7, repG.h) }
     Meets (answerTry (stRep 1 p) 1 p) ∧ Meets (answerTry (stRep 3 p) 3 p)) ∧ Meets (do
      let s := withLog stG [.place (.glob (.here 0x10000) entryG 0x10000) true, .done, .home repG]
      let x ← s.address (.mem 2) 0 8
      let u ← x.1.locate x.2 8 8 .atomic tagG false false
      .ok (decide (u.1.recall = some .done) && decide ((u.1.note .done).recall = some (.home repG)) &&
        (lockHome s.chip u.2).isSome)) := by decide

/-- A signal variable of value 40 (die 0, index 5) and a barrier of two (index 6), with a request of another chip. -/
def stSync : State :=
  { stG with leases := [(leaseKey 0 5, { cls := 2, gen := 3, e := 1000000, anchored := false, owner := 0, inUse := true,
                                          data := .range 0x10000 65536 0 false }),
      (leaseKey 4 5, { cls := 3, gen := 1, e := 1000, anchored := false, owner := 0, inUse := true, data := .svar 40 [(0, 0x80)] }),
      (leaseKey 4 6, { cls := 5, gen := 1, e := 1000, anchored := false, owner := 0, inUse := true, data := .barrier 2 1 7 }),
      (leaseKey 8 0, { Lease.unused with cls := 1, gen := 1, e := 1000000, inUse := true })] }

def svarG : Word := mkHandle 1 3 0 0 5
def barG : Word := mkHandle 1 5 0 0 6
def reqG (op : HomeOp) : HomeReq := { chip := 9, core := 3, slot := 1, ctx := 0, id := 8, op := op }

theorem witness_homes : (stSync.lease (unitOf 3 0) 5).gen < 0xFFFF ∧
    stSync.staleHere (mkHandle 2 3 0 0 5) = true ∧ stSync.staleHere svarG = false ∧
    (stSync.renewHome (reqG .withdraw) (mkHandle 1 3 0 0 5) 900).2.f = true ∧
    (stSync.renewHome { reqG .withdraw with chip := 0 } svarG 900).2.f = false ∧ (stSync.record svarG).anchored = false ∧
    (stSync.anchorHome { reqG .withdraw with chip := 0 } svarG).2.fault = none ∧
    (stSync.anchorHome { reqG .withdraw with chip := 0 } svarG).2.f = false ∧
    ((stSync.syncRecord 3 svarG).any fun l => decide (l.data = .svar 40 [(0, 0x80)])) = true ∧
    stSync.syncRecord 3 barG = none ∧
    ((stSync.syncRecord 5 barG).any fun l => decide (l.data = .barrier 2 1 7)) = true := by decide +kernel

/-- The range's lease is anchored, and the barrier wants three. -/
def stSync3 : State :=
  { stSync with leases := [(leaseKey 0 5, { cls := 2, gen := 3, e := 1000000, anchored := true, owner := 0, inUse := true,
                                             data := .range 0x10000 65536 0 false }),
      (leaseKey 4 6, { cls := 5, gen := 1, e := 1000, anchored := false, owner := 0, inUse := true, data := .barrier 3 1 7 }),
      (leaseKey 8 0, { Lease.unused with cls := 1, gen := 1, e := 1000000, inUse := true })] }

def rangeG : Word := mkHandle 3 2 0 0 5

theorem witness_hgen : stG.recall = none ∧ stG.cur.live = true ∧
    (after .hgen stG).recall = some (.num (stG.ctxHandle (stG.ctxOf stG.curCore)).toNat) := by decide

/-- The owner here may renew the lease h, whose record is anchored or not. -/
def renewOk (s : State) (h : Word) (anchored : Bool) : Bool :=
  !s.staleHere h && hClass h != 1 && (let l := s.record h
    s.leaseLive l && l.owner == s.ownerKey 0 0 && s.pathRangeOk l && l.anchored == anchored)

theorem witness_renew : renewOk stSync svarG false = true ∧ renewOk stSync barG false = true ∧
    renewOk stSync rangeG false = true := by decide +kernel

theorem witness_renew_anchored : renewOk stSync3 rangeG true = true := by decide +kernel

theorem witness_renew_refused : (stSync.record svarG).owner ≠ stSync.ownerKey 9 0 ∧ hClass (mkHandle 1 1 0 0 0) = 1 ∧
    ({ stSync with dt := 2000 } : State).leaseLive (stSync.record svarG) = false := by decide +kernel

theorem witness_anchor : (stSync.record svarG).cls = 3 ∧ (stSync.record rangeG).cls = 2 ∧
    ((stSync.record barG).cls ≠ 2 ∧ (stSync.record barG).cls ≠ 3) ∧
    ((stSync3.syncRecord 5 barG).any fun l => decide (l.data = .barrier 3 1 7)) = true ∧ 1 + 1 ≠ 3 := by decide +kernel

/-- A path of context 0 to chip 9, whose route is known, at destination slot 3. -/
def pathG : Word := mkHandle 1 6 0 9 2

def stPath : State :=
  { stG.setCore 0 { stG.core 0 with ds := [(3, { DSlot.reset with bound := true, path := pathG })] } with
    routes := [9], paths := [{ h := pathG, owner := 0, ed := 100000, size := 4096, dstCtx := 0, seq := 6, unacked := [], since := 0,
                               gone := false }] }

theorem test_fsend_sends : look (fun s => ((s.dslot 0 3).inFl, (s.dslot 0 3).cursor, s.outbox.length)) (exec (.fsend 3) stPath) =
    some (1, 8, 1) := by decide

theorem witness_sends : stPath.cur.live = true ∧ ((stPath.pathOf pathG).any fun p => p.size == 4096 && p.seq == 6) = true ∧
    (∃ p, stPath.pathOf pathG = some p ∧ MaySend stPath 3 1 8 8 p ∧ MaySend stPath 3 3 192 64 p ∧ MaySend stPath 3 1 0 1 p) ∧
    (stPath.dslot 0 4).bound = false ∧
    (let s := stPath.setCore 0 { stPath.core 0 with ds := [(3, { DSlot.reset with bound := true, path := pathG, inFl := 16 })] };
      (s.dslot 0 3).bound = true ∧ (s.dslot 0 3).allowance = 0 ∧ (s.dslot 0 3).inFl ≠ 0) ∧
    Meets (do
      let x ← stPath.address (.mem 1) 0 64
      let bs ← x.1.sendBlocks x.2 0 3
      .ok (bs.2.length == 3)) ∧
    Meets (do
      let x ← (stPath.write (lKey 0 0x100) 8 (mkHandle 1 3 0 9 5).toNat).address (.mem 1) 0 8
      let v ← x.1.load x.2 8
      .ok (v.2 == (mkHandle 1 3 0 9 5).toNat)) ∧
    stPath.staleShape (mkHandle 1 3 0 9 5) = false ∧ hClass (mkHandle 1 3 0 9 5) = 3 ∧
    hChip (mkHandle 1 3 0 9 5) = hChip (stPath.dslot 0 3).path ∧ stPath.recall = none :=
  ⟨by decide, by decide, ⟨_, rfl, by unfold MaySend; decide, by unfold MaySend; decide, by unfold MaySend; decide⟩, by decide,
    by decide, by decide +kernel, by decide +kernel, by decide, by decide, by decide, by decide⟩

/-- The page of a view whose stub is pulled from. -/
def stStub : State :=
  { stPath with
    leases := [(leaseKey 0 5, { cls := 7, gen := 3, e := 1000000, anchored := false, owner := 0, inUse := true,
                                data := .stub { src := 9, size := 65536, view := some 0x10000, backing := 0, pulled := [],
                                                pulling := [], dead := [], complete := false } })],
    entries := [{ entryG with pte := mkPte 5 0 16 0 15 false }] }

/-- The handle of the path stands at L:0x100. -/
def stBind : State := stPath.write (lKey 0 0x100) 8 pathG.toNat

/-- The chain of dsbind's read at [p1]; r is what the log must then hold. -/
def bindTry (s : State) (h : Word) (r : Option Reply) : Except Stop Bool := do
  let x ← s.address (.mem 1) 0 8
  let w ← x.1.load x.2 8
  .ok (BitVec.ofNat 64 w.2 == h && decide (w.1.recall = r))

theorem witness_bind : stBind.cur.live = true ∧ Meets (bindTry stBind pathG none) ∧
    ((stBind.pathOf pathG).any fun p => p.owner == stBind.ctxOf stBind.curCore && !p.gone && decide (stBind.dt + 2000 < p.ed)) = true ∧
    stBind.staleShape pathG = false ∧ Meets (bindTry stPath 0 none) ∧ stPath.pathOf 0 = none ∧
    Meets (bindTry (after (.dsbind 3 (.mem 1) 0) stPath) 0 (some (.fault 7 0))) ∧
    Meets (bindTry (after (.dsbind 3 (.mem 1) 0) stBind) pathG (some .done)) ∧
    ((after (.dsbind 3 (.mem 1) 0) stBind).dslot 0 3).inFl = 0 := by decide +kernel

theorem witness_offer : Meets (do
      let s := withLog stPath (wordLog 2 0 ++ [.done, .home repG])
      let x ← s.address (.mem 1) 0 8
      let u ← x.1.words x.2 2
      let v ← u.1.once (u.1.bound 3)
      .ok (decide (v.recall = some (.home repG)))) ∧ Meets (do
      let s := withLog stPath (wordLog 2 0 ++ [.done, .num 5, .home repG])
      let x ← s.address (.mem 1) 0 8
      let u ← x.1.words x.2 2
      let v ← u.1.once (u.1.bound 3)
      .ok (decide (v.recall = some (.num 5)) && decide ((v.note (.num 5)).recall = some (.home repG)))) ∧ Meets (do
      let x ← stPath.address (.mem 1) 0 8
      let v ← x.1.words x.2 2
      .ok (v.2 == [0, 0] && (v.1.dslot v.1.curCore 3).bound && decide (v.1.recall = none) && decide (tagOf 0 ≠ 8))) := by
  decide +kernel

theorem witness_pull :
    (tagOf (0x8000000000030000#64) = 8 ∧ offOf 0x8000000000030000#64 < 2 ^ 57 ∧ offOf 0x8000000000030000#64 % 8 = 0 ∧
      stStub.entry (stStub.ctxOf stStub.curCore) (offOf 0x8000000000030000#64) = none) ∧
    ((stStub.entry (stStub.ctxOf stStub.curCore) (offOf 0x8000000000010000#64)).any fun e => pteMode e.pte == 5 && e.live stStub &&
      match (tget Lease.unused stStub.leases e.lease).data with
      | .stub _ => true
      | _ => false) = true ∧ stStub.recall = none ∧ Meets (do
      let t ← (after (.spull (.mem 2) 0) stStub).address (.mem 2) 0 8
      .ok (decide (t.1.recall = some (.num 0)))) := by decide +kernel

/-! ## System registers, exceptions, debug (15, 21) -/

/-- The slot runs in privileged mode, with a return address. -/
def stP : State :=
  stG.setCur { stG.cur with priv := true, ka := 0x200, epc := 0x408, kp7 := 0x33000 }

theorem test_mfs_of_a_privileged_register : look (fun s => (s.cur.cause, s.cur.faddr)) (exec (.mfs 0x404) stA) =
      some (2, 0x404) ∧
    accOf (exec (.mfs 0x404) stP) = some 0xC010 := by decide

theorem test_rti_returns : look (fun s => (s.cur.priv, s.cur.pc, s.acc)) (exec .rti stP) = some (false, 0x408, 5) := by decide

theorem witness_mfs : stA.cur.live = true ∧ sysregAssigned (0x020 : BitVec 12).toNat = true ∧ ¬0x400 ≤ (0x020 : BitVec 12).toNat ∧
    stP.cur.live = true ∧ stP.cur.priv = true ∧ sysregAssigned (0x415 : BitVec 12).toNat = true ∧
    0x400 ≤ (0x415 : BitVec 12).toNat ∧ stA.cur.priv = false ∧ stA.traceOut stA.curCore stA.curSlot = false := by decide

theorem witness_mts : stP.cur.live = true ∧ stP.cur.priv = true ∧ (slotWrite stP.cur 0x411 5).isSome = true ∧
    sysregAssigned 0x411 = true ∧ (slotWrite stP.cur 0x002 0xC2).isSome = true ∧ fmtReserved (0xC2 % 256) = false ∧
    fmtReserved ((stWith fun x => { x with a := 0xFF }).acc.toNat % 256) = true ∧ (coreWrite stP.curCoreOf 0x420 5).isSome = true ∧
    (clusterWrite (stP.cluster 0) 0x44F 5).isSome = true ∧ sysregAssigned 0x44F = true ∧
    (slotWrite stP.cur 0x000 5 = none ∧ coreWrite stP.curCoreOf 0x000 5 = none ∧ clusterWrite (stP.cluster 0) 0x000 5 = none) ∧
    (stP.cluster (clusterOf stP.curCore)).gang = some 7 := by decide

theorem witness_exceptions : stA.cur.priv = false ∧ GoodVector stA.curCoreOf.tvec ∧ GoodVector stA.curCoreOf.kstk ∧
    (stA.cluster (clusterOf stA.curCore)).dctl.getLsbD 3 = false ∧ stP.cur.priv = true ∧
    (stP.cluster (clusterOf stP.curCore)).gang = some 7 ∧
    (let s := stG.setCore 0 { stG.core 0 with tvec := 0x40000 }; s.cur.priv = false ∧ ¬GoodVector s.curCoreOf.tvec ∧
      (s.cluster (clusterOf s.curCore)).gang = some 7) := by
  unfold GoodVector; decide

theorem witness_privileged : stP.cur.live = true ∧ stP.cur.priv = true ∧ GoodVector stP.cur.epc ∧
    ¬GoodVector (stP.setCur { stP.cur with epc := 0x409 }).cur.epc ∧
    (stP.setCore 0 { stP.core 0 with bell := 1 }).curCoreOf.bell ≠ 0 ∧ stP.behind .bell = false ∧ stP.curCoreOf.bell = 0 ∧
    (stP.acc.toNat = 0x200 ∧ 0x200 % 512 = 0 ∧ 0x200 < 0x40000) ∧ (stP.setCur { stP.cur with ka := 0x201 }).acc.toNat % 512 ≠ 0 ∧
    0x40000 ≤ (stP.setCur { stP.cur with ka := 0x40000 }).acc.toNat := by
  unfold GoodVector; decide

/-- The gang's context has a save area of 16 MiB, and the debug control halts it. -/
def stH : State :=
  { stG.setCluster 0 { stG.cluster 0 with dctl := 0x18 } with
    contexts := [(0, { Context.unused with live := true, saveBase := 0x100000, saveSize := 0x1000000 })] }

/-- A hit of watchpoint 2 of cluster 0 by a remote agent. -/
def hitG : WatchHit := { cluster := 0, remote := true, off := 0x100, bytes := [1], srcChip := 9, src := 3 }

/-! The Filhel controller's core: words and halfwords of RV32IMC (01 R11). -/

theorem test_rv_words : rvDecode32 0x00500093 = .opImm .add 1 0 5 ∧ rvDecode32 0xFE512E23 = .store 4 2 5 0xFFFFFFFC#32 ∧
    rvDecode32 0xFE208CE3 = .branch .eq 1 2 0xFFFFFFF8#32 ∧ rvDecode32 0x010000EF = .jal 1 16 ∧
    rvDecode32 0x02208133 = .op .mul 2 1 2 := by decide +kernel

theorem test_rv_halfwords : rvDecode16 0x147D = .opImm .add 8 8 0xFFFFFFFF#32 ∧ rvDecode16 0x40B2 = .load 4 true 1 2 12 ∧
    rvDecode16 0xC606 = .store 4 2 1 12 ∧ rvDecode16 0x0000 = .trap := by decide +kernel

theorem test_rv_runs :
    let f : Filhel := { State.reset.filhel with tcm := (leBytes 4 0x00500093).zipIdx.map fun b => (b.2, b.1) }
    (f.run [] 0).pc = 4 ∧ (f.run [] 0).reg 1 = 5 := by decide +kernel

/-- A strike into the supervisor range of core 0, by a remote agent. -/
def hitS : WatchHit := { hitG with off := 0x30100 }

theorem witness_remote_write : hitPlace hitG = some (0, 0, 0x100) ∧ stG.hitGuarded hitG = false ∧ hitS.remote = true ∧
    stG.hitGuarded hitS = true := by decide

theorem test_guarded_write_counts : look (fun s => (tget 0 s.dieCtr 0x0D0, s.mem)) (exec (.watchpointRemoteHalt hitS) stG) =
    some (1, stG.mem) := by decide +kernel

/-- Another slot of the core has read its word of device memory and has still to write a. -/
def stOwed : State :=
  let s := stP.setSlot 0 1 { slotA with replies := [.place (.glob (.here 0x10000) entryG 0x10000) true,
    .place (.glob (.here 0x10000) entryG 0x10000) false, .block (blockF 0)] }
  s.setCur { s.cur with epc := 0x409 }

theorem witness_owed : (∃ e ∈ (stOwed.core 0).slots, e.1 = 1 ∧ e.2.live = true ∧
      (match e.2.owed with | some (.bytes (.here pa) _ _ bs) => pa == 0x10000 && bs == leBytes 8 5 | _ => false) = true) ∧
    ((stOwed.core 0).slots.all fun e => e.1 == 1 || e.2.owed.isNone) = true ∧ stOwed.curSlot = 0 := by decide

theorem test_owed_write_is_performed : look (fun s => (mgets s.mem 0x10000 8, (s.gang 7).state)) (exec .rti stOwed) =
    some (leBytes 8 5, .dead) := by decide +kernel

theorem witness_invalidating : stG.invalidating = false ∧ (after .icinvAll stG).recall = some .done ∧
    (after .icinvAll stG).invalidating = true ∧ ({ after .icinvAll stG with agenda := [] } : State).invalidating = false ∧
    ({ after .icinvAll stG with agenda := [] } : State).recall = some .done := by decide +kernel

theorem witness_invalidate : stG.recall = none ∧ (after .icinv stG).recall = some .done ∧
    (after .icinvAll stG).recall = some .done := by decide

theorem witness_debug : stH.cur.live = true ∧ (stH.cluster 0).gang = some 7 ∧ (stH.gang 7).state = .running ∧
    (stH.gang 7).cluster = 0 ∧ (stH.imageAt (stH.launch (stH.gang 7).launch).ctx).isSome = true ∧
    (stH.cluster (clusterOf stH.curCore)).dctl.getLsbD 4 = true ∧ (stH.cluster (clusterOf stH.curCore)).dctl.getLsbD 3 = true ∧
    (stG.cluster (clusterOf stG.curCore)).dctl.getLsbD 4 = false ∧
    (stH.setCluster 0 { stH.cluster 0 with wpa := [(2, 0x100)], wpc := [(2, 0xFF04)] }).armed hitG = true ∧
    (∃ g ∈ coresOf 0, ((stH.setCore 0 { stH.core 0 with stepCnt := 3, stepped := 3 }).core g).stepDue = true) := by
  decide +kernel

theorem witness_register_steps : (stG.cluster (clusterOf stG.curCore)).gang = some 7 ∧ stG.cur.live = true ∧
    stG.traceOut stG.curCore stG.curSlot = false ∧ (1023 : Nat) < 1024 ∧ (0x3FFFF : Nat) < 0x40000 ∧ 256 ≤ 256 := by decide

/-! ## The host interface and firmware (20, 21, 23) -/

/-- u units of zeros with values written at byte offsets: (offset, bytes, value). -/
def bodyG (u : Nat) (fs : List (Nat × Nat × Nat)) : List Byte :=
  fs.foldl (fun b f => b.take f.1 ++ leBytes f.2.1 f.2.2 ++ b.drop (f.1 + f.2.1)) (List.replicate (64 * u) 0)

def packetG (kind : Nat) (body : List Byte) : Packet :=
  { link := 0, q := 0, kind := kind, fence := false, seq := 1, ctx := 0, tag := 2, body := body, tl := 0, at_ := 0 }

/-- Packet 4 has started. -/
def stPk (p : Packet) : State :=
  { stG with started := [(4, p)], contexts := [(0, { Context.unused with live := true, quota := [(0, 10)] })] }

/-- What Runs and OwnPacket ask of packet 4, computed. -/
def runsB (s : State) (kind : Nat) (p : Packet) : Bool :=
  decide (s.started.lookup 4 = some p ∧ p.kind = kind ∧ s.recovery p = false ∧
    (s.contextFree p = true ∨ s.ctxThrough p.link p.ctx = true)) &&
  !s.asking 4 && s.graphs.all (fun e => e.2.packet != some 4) && s.copies.all fun e => e.2.packet != some 4

theorem runs_of {s : State} {kind : Nat} {p : Packet} (h : runsB s kind p = true) : Runs s 4 kind p ∧ OwnPacket s 4 := by
  simp only [runsB, Bool.and_eq_true, decide_eq_true_eq, List.all_eq_true, bne_iff_ne, Bool.not_eq_eq_eq_not, Bool.not_true] at h
  exact ⟨h.1.1.1, h.1.1.2, h.1.2, h.2⟩

theorem test_packet_without_context :
    look (fun s => s.finished.map fun c => c.status) (exec (.contextEnd 4) (stPk { packetG 3 (bodyG 1 []) with ctx := 5 })) =
      some [3] := by decide +kernel

/-- A queue of link 0 that is enabled in host memory at 0, with a header of kind 3. -/
def stHost : State :=
  { (stG.write (hostKey 0 0) 8 0x00000000_00010003) with
    links := [(0, { Link.reset with queues := [(0, { HostQueue.reset with qctl := 16, pending := 1 })] })],
    finished := [{ link := 0, q := 0, tag := 2, result := 0, seq := 1, kind := 3, status := 0, detail := 0, tl := 0 }], dt := 70000 }

theorem witness_queues : (stG.hq 1 63).enabled = false ∧ (stG.hq 1 63).accepted = [] ∧
    (let x := { stG.hq 1 63 with qctl := ((16 : Word) ||| 16#64) &&& 0xFFFF0F3F#64, expect := 0, polled := stG.dt };
      x.headerOk (stG.queueBytes 1 x 0 16) = false) ∧
    (stHost.hq 0 0).enabled = true ∧ stHost.pollDue 0 0 = true ∧ stG.pollDue 0 0 = false ∧
    (let x := stHost.hq 0 0;
      let h := stHost.queueBytes 0 x (64 * (x.qread % x.units)) 16;
      let bs := (x.span (field h 2 2)).flatMap fun u => stHost.queueBytes 0 x (64 * u) 64;
      x.headerOk h = true ∧ packetCrc bs = false ∧
        packetCrc (let t := stHost.write (hostKey 0 60) 4 (crc32c (bs.take 60));
          (x.span (field h 2 2)).flatMap fun u => t.queueBytes 0 x (64 * u) 64) = true) ∧
    (let s := stHost.write (hostKey 0 0) 1 0; let x := s.hq 0 0;
      x.headerOk (s.queueBytes 0 x (64 * (x.qread % x.units)) 16) = false) ∧
    (stHost.finished.find? fun c => c.link == 0 && c.q == 0).isSome = true ∧ (stHost.hq 0 0).full = false ∧
    (stHost.hq 0 0).pending ≠ 0 ∧ (stHost.hq 0 0).since + (stHost.hq 0 0).cap ≤ stHost.dt ∧
    (stHost.link 0).bar2win.toNat + 0x100 + 8 ≤ hbmSize := by decide +kernel

def grantG : List Byte := bodyG 2 [(0x10, 8, 1000), (0x40, 4, 64), (0x44, 4, 64), (0x58, 8, imageMax)]
def handleG : Nat := (mkHandle 1 1 0 0 0).toNat

theorem witness_context_packets :
    (runsB (stPk (packetG 1 grantG)) 1 (packetG 1 grantG) = true ∧ grantBodyOk grantG = true ∧
      (stPk (packetG 1 grantG)).lowestIdent 0 = some 1 ∧ ∀ e ∈ (stPk (packetG 1 grantG)).leases, e.2.owner ≠ 1) ∧
    grantBodyOk (bodyG 2 []) = false ∧
    (let p := packetG 2 (bodyG 1 [(0x10, 8, handleG), (0x18, 8, 5)]);
      runsB (stPk p) 2 p = true ∧ zeroFrom p.body 0x20 = true ∧ (stPk p).namesCtx p = true) ∧
    (let p := packetG 3 (bodyG 1 [(0x10, 8, handleG)]);
      runsB (stPk p) 3 p = true ∧ zeroFrom p.body 0x18 = true ∧ (stPk p).namesCtx p = true) ∧
    (let p := { packetG 8 (bodyG 1 []) with ctx := 5 }; (stPk p).bootBad = false ∧ (stPk p).ctxThrough p.link p.ctx = false) := by
  decide +kernel

def memG (frame : Nat) : Packet :=
  packetG 4 (bodyG 1 [(0x18, 8, 500), (0x20, 8, 0x8000000000020000), (0x28, 8, 65536), (0x30, 8, (mkPte 2 9 frame 0 15 false).toNat)])

def changeG : Packet :=
  packetG 4 (bodyG 1 [(0x10, 1, 1), (0x20, 8, (mkHandle 3 2 0 0 5).toNat), (0x28, 8, 2 ^ 32), (0x30, 8, (mkPte 2 9 16 0 15 false).toNat)])

theorem witness_memory_packets :
    (let p := memG 16; let s := stPk p;
      runsB s 4 p = true ∧ s.chip < 3072 ∧ field p.body 0x10 1 = 0 ∧ zeroFrom p.body 0x38 = true ∧ zeroSpan p.body 0x12 0x18 = true ∧
      grantBad 2 0x8000000000020000 65536 = false ∧ s.templateBad (mkPte 2 9 16 0 15 false) 0 1 true = false ∧
      grantUnits 2 65536 ≤ s.quotaLeft 0 2 ∧ s.vaTaken 0 0x20000 65536 = false ∧ s.lowestFree (unitOf 2 0) = some 0 ∧
      (s.rangePtes (mkPte 2 9 16 0 15 false) 0 0 1 false).isSome = true) ∧
    (let p := changeG; let s := stPk p; let h := mkHandle 3 2 0 0 5;
      runsB s 4 p = true ∧ field p.body 0x10 1 = 1 ∧ zeroFrom p.body 0x38 = true ∧ zeroSpan p.body 0x11 0x20 = true ∧
      hChip h = s.chip ∧ s.rangeLive h = true ∧ (s.record h).owner = p.ctx ∧ (s.record h).data = .range 0x10000 65536 0 false ∧
      s.templateBad (mkPte 2 9 16 0 15 false) 0 1 true = false ∧
      ∃ e ∈ s.entries, e.ctx = p.ctx ∧ e.lease = leaseKey (unitOf 2 (hDie h)) (hIndex h) ∧ e.gen = hGen h ∧
        ptePinned e.pte = false) := by decide +kernel

def graphG (n : Nat) : Packet :=
  packetG 5 (bodyG 2 [(0x16, 1, 1), (0x17, 1, if n = 1 then 1 else 0), (0x18, 2, n), (0x20, 8, 0x8000000000010000)])

def copyPkG : Packet := packetG 6 (bodyG 3 [(0x10, 8, 0x8000000000010000), (0x18, 8, 0x8000000000014000)])

def sigG (kind chip v : Nat) : Packet := packetG kind (bodyG 1 [(0x10, 8, (mkHandle 1 3 0 chip 5).toNat), (0x18, 8, v)])

def stSig (p : Packet) : State := { stSync with started := [(4, p)], routes := [9] }

def holdG (op : Nat) : Packet := packetG 10 (bodyG 1 [(0x10, 4, op)])

def stGang (p : Packet) (st : GangState) : State :=
  { stPk p with gangs := [(7, { gangG with state := st })],
                contexts := [(0, { Context.unused with live := true, saveBase := 0x100000, saveSize := 0x1000000 })] }

theorem witness_work_packets :
    (∀ n ∈ [1, 2], runsB (stPk (graphG n)) 5 (graphG n) = true ∧ (stPk (graphG n)).openGraph (graphG n) 0 = none ∧
      field (graphG n).body 0x18 2 = n ∧ zeroFrom (graphG n).body 0x40 = true ∧ zeroSpan (graphG n).body 0x1A 0x20 = true ∧
      (nodesOf (graphG n).body 0x20 0 1).isSome = true) ∧
    (runsB (stPk copyPkG) 6 copyPkG = true ∧ zeroFrom copyPkG.body 0x90 = true ∧
      (copyDesc ((copyPkG.body.drop 0x10).take 128)).crec = 0 ∧ (copyDesc ((copyPkG.body.drop 0x10).take 128)).mapped = false ∧
      (copyDesc ((copyPkG.body.drop 0x10).take 128)).src / 2 ^ 60 = 8 ∧
      (copyDesc ((copyPkG.body.drop 0x10).take 128)).dst / 2 ^ 60 = 8 ∧ (stPk copyPkG).remote = [] ∧
      (let e := (stPk copyPkG).packetEngine 0 0 (copyDesc ((copyPkG.body.drop 0x10).take 128)).src;
        engChip e = (stPk copyPkG).chip ∧ (stPk copyPkG).engineRoom e = true ∧
        ({ stPk copyPkG with copies := (List.range 32).map fun j => (j, { copyG with engine := e }) } : State).engineRoom e = false)) ∧
    (let s := { stPk copyPkG with routes := [9], entries := [{ entryG with pte := mkPte 2 9 16 0 15 false }] };
      runsB s 6 copyPkG = true ∧ engChip (s.packetEngine 0 0 (copyDesc ((copyPkG.body.drop 0x10).take 128)).src) ≠ s.chip) ∧
    (let p := sigG 7 9 3; let s := stSig p; runsB s 7 p = true ∧ zeroFrom p.body 0x20 = true ∧
      s.staleShape (mkHandle 1 3 0 9 5) = false ∧ hChip (mkHandle 1 3 0 9 5) ≠ s.chip ∧ s.writesOut 4 = false) ∧
    ({ stSig (sigG 7 9 3) with
        remote := [{ id := 3, core := 1, slot := 0, ctx := 0, chip := 9, pa := 64, op := .write [1], resend := 0, since := 0
                     fill := none, fails := 0 }] } : State).writesOut 4 = true ∧
    (let p := sigG 7 0 3; let s := stSig p; runsB s 7 p = true ∧ s.staleShape svarG = false ∧ hChip svarG = s.chip ∧
      s.lapsedLock = none ∧ s.waiting = [] ∧ (s.syncRecord 3 svarG).any (fun l => decide (l.data = .svar 40 [(0, 0x80)])) = true) ∧
    (∀ v ∈ [40, 41], runsB (stSig (sigG 8 0 v)) 8 (sigG 8 0 v) = true ∧ zeroFrom (sigG 8 0 v).body 0x28 = true) ∧
    (let p := packetG 8 (bodyG 1 [(0x20, 8, 3)]); let s : State := { stPk p with dt := 3 };
      runsB s 8 p = true ∧ field p.body 0x20 8 ≠ 0 ∧ p.at_ + field p.body 0x20 8 ≤ s.dt) ∧
    (∀ st ∈ [GangState.saved, .running], runsB (stGang (holdG 0) st) 10 (holdG 0) = true ∧ zeroFrom (holdG 0).body 0x20 = true ∧
      (stGang (holdG 0) st).namedGang (holdG 0) = some 7 ∧ ((stGang (holdG 0) st).gang 7).isHeld = false ∧
      ((stGang (holdG 0) st).imageAt 0).isSome = true) ∧
    (runsB (stGang (holdG 1) .held) 10 (holdG 1) = true ∧ (stGang (holdG 1) .held).namedGang (holdG 1) = some 7 ∧
      field (holdG 1).body 0x10 4 = 1) := by decide +kernel

/-- A firmware call of function f with values in its body. -/
def callG (f : Nat) (fs : List (Nat × Nat × Nat)) : Packet := packetG 9 (bodyG 2 ((0x10, 8, f) :: fs))

/-- Gingham writes a ring of one slot. -/
def ginghamG : Gingham := { link := 0, base := 16384, interval := 10000, n := 1, k := 0, at_ := 0, phase := 0, image := [] }

theorem witness_firmware :
    (∀ f ∈ [0, 1, 2, 3, 4, 5, 6, 7, 8, 9], runsB (stPk (callG f [])) 9 (callG f []) = true ∧ (callG f []).fn = f) ∧
    zeroFrom (callG 1 [(0x38, 8, 0x1000)]).body 0x40 = true ∧
    (∀ n ∈ [100000, 100000000], 100000 ≤ field (callG 2 [(0x18, 8, n)]).body 0x18 8 ∧
      field (callG 2 [(0x18, 8, n)]).body 0x18 8 ≤ 100000000 ∧ zeroFrom (callG 2 [(0x18, 8, n)]).body 0x20 = true) ∧
    field (callG 2 [(0x18, 8, 99999)]).body 0x18 8 < 100000 ∧
    policyBad (callG 3 [(0x1C, 4, 600), (0x20, 4, 100), (0x24, 1, 5)]).body = false ∧
    (zeroFrom (callG 3 [(0x18, 1, 1), (0x28, 8, 64)]).body 0x30 = true ∧ field (callG 3 [(0x28, 8, 64)]).body 0x28 8 % 64 = 0) ∧
    (zeroFrom (callG 4 [(0x18, 8, 64), (0x20, 8, 8)]).body 0x28 = true ∧ (stPk (callG 4 [])).everCtx = false) ∧
    (zeroFrom (callG 5 [(0x18, 8, 1087)]).body 0x20 = true ∧ field (callG 5 [(0x18, 8, 1087)]).body 0x18 8 < 1088) ∧
    zeroFrom (callG 6 [(0x20, 8, 4096)]).body 0x28 = true ∧ zeroFrom (callG 7 [(0x20, 8, 4096)]).body 0x28 = true ∧
    (let b := (callG 8 [(0x18, 8, 16384), (0x20, 8, 10000), (0x28, 8, 1)]).body;
      zeroFrom b 0x30 = true ∧ field b 0x18 8 % 16384 = 0 ∧ 10000 ≤ field b 0x20 8 ∧ field b 0x20 8 ≤ 1000000 ∧
      1 ≤ field b 0x28 8 ∧ field b 0x28 8 ≤ 4096) ∧
    (let s : State := { stG with gingham := ginghamG, dt := 10000 };
      s.gingham.phase = 0 ∧ s.gingham.base ≠ 0 ∧ s.gingham.at_ + s.gingham.interval ≤ s.dt) ∧
    (stPk (callG 4 [])).joined = false ∧ ({ stPk (callG 4 []) with everCtx := true } : State).everCtx = true := by decide +kernel

theorem witness_gingham : ({ ginghamG with phase := 1, image := List.replicate 12352 0 } : Gingham).image.length = 12352 ∧
    ({ ginghamG with phase := 2, image := List.replicate 12352 0 } : Gingham).image.length = 12352 :=
  ⟨List.length_replicate .., List.length_replicate ..⟩

/-! ## Gangs, leases and time (05, 06, 15, 20) -/

/-- Gang 7 in some state, its context's save area known; its image at 0x100000. -/
def stLife (x : GangState) : State :=
  { stG with gangs := [(7, { gangG with state := x, image := 0x100000 })], slices := [(0, 0)], dt := 5000000,
             contexts := [(0, { Context.unused with live := true, saveBase := 0x100000, saveSize := 0x1000000 })],
             leases := [(leaseKey 8 0, { Lease.unused with cls := 1, gen := 1, e := 9000000, inUse := true })] }

/-- The gang is in no cluster yet. -/
def stFree (x : GangState) : State := { stLife x with clusters := [] }

theorem witness_gangs : (stFree .waiting).firstOn 0 = some 7 ∧ ((stFree .waiting).freeClusters 0).head? = some 0 ∧
    ((stFree .waiting).gang 7).state = .waiting ∧ ((stLife .running).gang 7).state = .running ∧
    ((stLife .running).imageAt ((stLife .running).launch ((stLife .running).gang 7).launch).ctx).isSome = true ∧
    ((stLife .halting).gang 7).state = .halting ∧ (stLife .halting).drained ((stLife .halting).gang 7).cluster = true ∧
    ((stLife .halting).gang 7).image + 4 ≤ 2 ^ 68 ∧
    (let t := (stLife .halting).finishArrays (coresOf ((stLife .halting).gang 7).cluster);
      (t.gang 7).state = .halting ∧ t.drained ((stLife .halting).gang 7).cluster = true ∧
      t.sectorsDone 7 = true) ∧ ((stLife .saving).gang 7).image + 4096 ≤ 2 ^ 68 ∧ ((stLife .saving).gang 7).state = .saving ∧
    (stLife .running).slices.lookup (sliceKey 0 0) = some 0 ∧ 0 + (stLife .running).sliceLen ≤ (stLife .running).dt ∧
    (stLife .running).runningOf 0 0 ≠ [] ∧ (stLife .running).firstRival 0 0 = none := by decide +kernel

theorem mgets_add (m : List Host.Cell) (k a b : Nat) : mgets m k (a + b) = mgets m k a ++ mgets m (k + a) b := by
  induction a generalizing k with
  | zero => simp [mgets]
  | succ a ih => rw [Nat.succ_add]; simp only [mgets, List.cons_append]; rw [ih]; simp [Nat.add_assoc, Nat.add_comm 1 a]

theorem field_left (a b : List Byte) (off n : Nat) (h : off + n ≤ a.length) : field (a ++ b) off n = field a off n := by
  unfold field
  rw [List.drop_append_of_le_length (by omega), List.take_append_of_le_length (by simp; omega)]

theorem crc_bound (bs : List Byte) : crc32c bs < 2 ^ 32 := BitVec.isLt _

/-- An image with its check written. -/
def checked (m : List Host.Cell) (a : Nat) : List Host.Cell :=
  mputs m (a + 0xFFC) (leBytes 4 (imageCrc m a (imageSpan (mgets m a 4096))))

theorem checked_index (m : List Host.Cell) (a : Nat) : mgets (checked m a) a 4096 =
    mgets m a 0xFFC ++ leBytes 4 (imageCrc m a (imageSpan (mgets m a 4096))) := by
  have h := mgets_add (checked m a) a 0xFFC 4
  have h1 : mgets (checked m a) a 0xFFC = mgets m a 0xFFC := mgets_mputs_other m (a + 0xFFC) a 0xFFC _ (.inl (Nat.le_refl _))
  have h2 := mgets_mputs m (a + 0xFFC) (leBytes 4 (imageCrc m a (imageSpan (mgets m a 4096))))
  rw [leBytes_length] at h2
  rw [h1] at h
  exact h.trans (congrArg _ h2)

theorem checked_span (m : List Host.Cell) (a : Nat) : imageSpan (mgets (checked m a) a 4096) = imageSpan (mgets m a 4096) := by
  have h := mgets_add m a 0xFFC 4
  have hl := mgets_length m a 0xFFC
  rw [checked_index, show (4096 : Nat) = 0xFFC + 4 from rfl, h]
  generalize mgets m a 0xFFC = x at hl ⊢
  simp only [imageSpan, four, List.map_cons, List.map_nil]
  rw [field_left, field_left, field_left, field_left, field_left, field_left, field_left, field_left] <;> omega

theorem checked_field (m : List Host.Cell) (a : Nat) :
    field (mgets (checked m a) a 4096) 0xFFC 4 = imageCrc m a (imageSpan (mgets m a 4096)) := by
  have hl := mgets_length m a 0xFFC
  rw [checked_index]
  generalize mgets m a 0xFFC = x at hl ⊢
  unfold field
  rw [← hl, List.drop_left, List.take_of_length_le (by simp [leBytes_length]), leNat_leBytes]
  exact Nat.mod_eq_of_lt (crc_bound _)

theorem checked_crc (m : List Host.Cell) (a n : Nat) : imageCrc (checked m a) a n = imageCrc m a n := by
  have h1 : mgets (checked m a) a 0xFFC = mgets m a 0xFFC := mgets_mputs_other m (a + 0xFFC) a 0xFFC _ (.inl (Nat.le_refl _))
  have h2 : mgets (checked m a) (a + 4096) (n - 4096) = mgets m (a + 4096) (n - 4096) :=
    mgets_mputs_other m (a + 0xFFC) _ _ _ (.inr (by first | (rw [leBytes_length]; done) | (rw [leBytes_length]; omega)))
  unfold imageCrc
  rw [h1, h2]

theorem checked_ok (m : List Host.Cell) (a : Nat) :
    imageCrc (checked m a) a (imageSpan (mgets (checked m a) a 4096)) = field (mgets (checked m a) a 4096) 0xFFC 4 := by
  rw [checked_crc, checked_span, checked_field]

/-- A saved image of zeros whose check holds. -/
def stSaved : State := { stFree .saved with mem := checked [] 0x100000 }

theorem witness_restore : (stSaved.gang 7).state = .saved ∧ (∃ cs, stSaved.freeClusters (stSaved.gang 7).die = 0 :: cs) ∧
    stSaved.copies = [] ∧ stSaved.flaws = [] ∧
    imageCrc stSaved.mem (stSaved.gang 7).image (imageSpan (mgets stSaved.mem (stSaved.gang 7).image 4096)) =
      field (mgets stSaved.mem (stSaved.gang 7).image 4096) 0xFFC 4 := by
  have h := checked_ok [] 0x100000
  refine ⟨by decide +kernel, ⟨(stFree .saved).freeClusters 0 |>.tail, by decide +kernel⟩, by decide +kernel, by decide +kernel, ?_⟩
  have e : stSaved.mem = checked [] 0x100000 := by simp only [stSaved]
  have i : (stSaved.gang 7).image = 0x100000 := by decide +kernel
  rw [i, e]
  exact h

/-- A graph of one node whose image is the page at G:0x10000: entry 0x400, one gang. -/
def stNode : State :=
  { stG.write 0x10000 8 0x400 with
    graphs := [(2, { ctx := 0, link := 0, q := 0, number := 1, total := 1, packet := none, whole := true,
                     nodes := [(0, { image := 0x8000000000010000, ident := 9, preds := [], state := 0, order := 0, log := [] })] })] }

def stNodeIn : State := stNode.write 0x10008 4 1

theorem witness_node_ready : (stNodeIn.graph 2).nodeDue 0 = true ∧ (stNodeIn.context (stNodeIn.graph 2).ctx).live = true ∧
    stNodeIn.ctxLive (stNodeIn.graph 2).ctx = true ∧
    ((stNodeIn.graph 2).node 0).log = [] ∧
    (match (stNodeIn.dropLines (linkDie (stNodeIn.graph 2).link) (stNodeIn.graph 2).ctx).imageBlocks (.start ((stNodeIn.graph 2).node 0).log) (stNodeIn.graph 2).ctx (linkDie (stNodeIn.graph 2).link)
        (((stNodeIn.graph 2).node 0).image % 2 ^ 60) 0 64 with
      | .ok _ _ bs => (bs.any fun b => b.got.isNone) ||
        launchBad (recordOf (blockBytes bs) (stNodeIn.graph 2).ctx ((stNodeIn.graph 2).node 0).ident)
      | _ => true) = false := by decide +kernel

/-- The range lease of die 0, index 5 in some state, at a time. -/
def stLapse (cls e : Nat) (inUse : Bool) : State :=
  { stG with
    dt := 2000
    leases := [(leaseKey 0 5,
      { cls := cls, gen := 3, e := e, anchored := false, owner := 0, inUse := inUse, data := .range 0x10000 65536 0 false })] }

/-- A slot that waits for reply 4. -/
def stAsks : State :=
  stG.setSlot 0 0 { stG.slot 0 0 with asked := 4, park := some { reason := .mem, seq := 0, wake := .reply, res := .again, woken := false } }

theorem witness_leases :
    (let s := stLapse 2 1000 true; (s.lease 0 5).inUse = true ∧ s.leaseLive (s.lease 0 5) = false ∧ s.lapsedLock = none ∧
      s.waiting = [] ∧ (s.lease 0 5).cls ≠ 1) ∧
    (let s := stLapse 1 1000 true; (s.lease 0 5).inUse = true ∧ s.leaseLive (s.lease 0 5) = false ∧ (s.lease 0 5).cls = 1) ∧
    (let s := stLapse 2 9000 true; s.leaseLive (s.lease 0 5) = true ∧ (s.lease 0 5).owner = 0 ∧ (s.lease 0 5).owner ≠ 1) ∧
    (let s := stLapse 2 1000 false; (s.lease 0 5).inUse = false ∧ s.leaseLive (s.lease 0 5) = false ∧
      (s.rangeEntries 0 5 (s.lease 0 5).gen).length = 1 ∧ s.scrubWaits 0 5 (s.lease 0 5).gen = false) ∧
    ((stAsks.slot 0 0).live = true ∧ ((stAsks.slot 0 0).park.any fun k => decide (k.wake = .reply)) = true ∧
      (stAsks.slot 0 0).asked = repG.id ∧ repG.queued = false) ∧
    ((reqG (.life svarG)).chip ≠ stSync.chip ∧ stSync.lapsedLock = none ∧ stSync.waiting = [] ∧
      stSync.homeDone.lookup (9, 8) = none ∧
      ({ stSync with homeDone := [((9, 8), repG)] } : State).homeDone.lookup (9, 8) = some repG ∧
      ((stSync.syncRecord 3 svarG).any fun l => decide (l.data = .svar 40 [(0, 0x80)])) = true ∧
      (40 : Word).toNat < (50 : Word).toNat) ∧
    (let s : State := { stPath with dt := 200000 };
      ∃ x ∈ s.paths, x.h = pathG ∧ hChip pathG ≠ s.chip ∧ x.ed + 200 ≤ s.dt ∧ x.h ≠ svarG) := by decide +kernel

/-! ## Stations, engines and records (07, 09, 12, 15, 20) -/

/-- The page of G:0x10000 in mode 4 on some chip, with bit 47 set or clear. -/
def counted (wb : Bool) : PageEntry :=
  { entryG with pte := mkPte 4 0 16 0 15 false ||| (if wb then 1#64 <<< 47 else 0) }

def stCount (wb : Bool) : State :=
  { stG with entries := [counted wb], migrations := if wb then [(0, 0x10000, 0)] else [] }

/-- Slot 0 of core 0 waits for reply 4, request 4 of the fabric being its own. -/
def stFar : State :=
  { stAsks with remote := [{ id := 4, core := 0, slot := 0, ctx := 0, chip := 9, pa := 0x40, op := .read 64, resend := 0, since := 0,
                             fill := none, fails := 0 }] }

theorem witness_stations :
    ((stCount false).verdict 0 0x10000 false .read =
        .go ((stCount false).routeOf (counted false) 0x10000) (counted false) ∧
      pteMode (counted false).pte = 4 ∧
      countOf (stCount false).counted 0 0x10000 + 1 < (if pteThr (counted false).pte = 0 then 256 else 2 ^ pteThr (counted false).pte)) ∧
    stG.verdict 0 0x90000 false .read = .refuse 1 ∧
    (∀ wb ∈ [false, true], (stCount wb).entry 0 0x10000 = some (counted wb) ∧ pteMode (counted wb).pte = 4 ∧
      (counted wb).live (stCount wb) = true ∧ (stCount wb).pteBad (counted wb).pte = false ∧
      32 * 4096 % pteSize (counted wb).pte = 0 ∧ 32 * 4096 + pteSize (counted wb).pte ≤ hbmSize ∧ pteWb (counted wb).pte = wb) ∧
    ((stCount true).migrations = [(0, 0x10000, 0)] ∧ (stCount true).dt < 0 + 2000000 ∧ (stCount true).remote = [] ∧ (stCount true).writePlaced (inRange 0 0x10000 0x20000) = false ∧
      ((stCount true).pageLines (ptePeer (counted true).pte) (pteFrame (counted true).pte * 4096)
        (pteSize (counted true).pte / 64)).isSome = true) ∧
    (let s : State := { stCount true with dt := 2000000 };
      (s.migrations.find? fun m => m.1 == 0 && m.2.1 == 0x10000) = some (0, 0x10000, 0) ∧ 0 + 2000000 ≤ s.dt ∧
      s.entry 0 0x10000 = some (counted true) ∧ (counted true).va = 0x10000) ∧
    ((hbmSize - 64) / 64 < hbmSize / 64 ∧ stG.flaws = [] ∧
      (64 * 5, true) ∈ ({ stG with flaws := [(64 * 5, true)] } : State).flaws) ∧
    ((stFar.remote.find? fun x => x.id == (memRep 4).id).isSome = true ∧ (memRep 4).remoteError = none ∧
      (memRep 4).tagOk = true ∧
      (stFar.slot 0 0).live = true ∧ ((stFar.slot 0 0).park.any fun k => decide (k.wake = .reply)) = true ∧
      (stFar.slot 0 0).asked = 4) := by decide +kernel

/-- A copy of 16 elements of 4 bytes from one place to another, its record at L:0x300. -/
def descG (src dst : Nat) : List Byte :=
  bodyG 2 [(0, 8, src), (8, 8, dst), (0x10, 4, 0x300), (0x18, 1, 0xC2), (0x19, 1, 1), (0x3C, 4, 16), (0x40, 4, 1), (0x44, 4, 1),
    (0x48, 4, 1), (0x4C, 4, 16), (0x50, 4, 1), (0x54, 4, 1), (0x58, 4, 1)]

/-- Copy 5 of slot 0, accepted or not, with some sectors done. -/
def stCopy (src : Nat) (accepted : Bool) (next : Nat) : State :=
  { stG with copies := [(5, { copyG with desc := descG src 0x200, accepted := accepted, next := next, moved := 64 * next })] }

/-- What becomes of a due sector, computed: it moves, its destination being the one block at the given place; it waits for an earlier
write of its own; it is refused where it is judged; a read of it is refused; its judgement waits; a read waits. -/
inductive SectorFate where
  | moves (spots : List (Option Nat))
  | writeWaits
  | refused
  | lost
  | judgedLater
  | readWaits
  deriving DecidableEq

def sectorFate (s : State) : Option SectorFate :=
  match s.copies.lookup 5 with
  | none => none
  | some c =>
    let d := copyDesc c.desc
    if !(c.accepted && !c.suspended && !c.ended && decide (c.status ≠ 2 ∧ c.next < c.count) &&
        (d.offCell (d.sector (c.sectorAt c.next))).isNone && !s.copyStands c && s.flaws.isEmpty && !c.replay) then none
    else match s.judgeSector c (sectorBlocks c).1 (sectorBlocks c).2 with
    | (_, none) => some .judgedLater
    | (t, some log) =>
      if c.log.isEmpty && log.any fun r => match r with
        | .refused .. => true
        | _ => false
      then some .refused
      else match eachAccess (fun t j a => t.copyTake j 5 c d a) t (.start log) (sectorBlocks c).1 with
      | .wait _ _ => some .readWaits
      | .ok r j src =>
        match eachAccess (fun t j a => t.copyTarget j a) r j (sectorBlocks c).2 with
        | .wait _ _ => none
        | .ok u _ dst =>
          if src.any fun a => a.got.isNone then some .lost
          else if dst.any (u.targetWaits 5) then some .writeWaits
          else if dst.all fun a => a.got.isSome then some (.moves (dst.map fun a => a.got.bind targetSpot)) else none

/-- The page of G:0x10000 lies on chip 9. -/
def stFarPage : State :=
  { stCopy 0x8000000000010000 true 0 with routes := [9], entries := [{ entryG with pte := mkPte 2 9 16 0 15 false }] }

/-- A copy from L to G, on a page of a kind. -/
def stCopyOut (pte : Word) (log : List Reply) : State :=
  { stG with
    routes := [9], entries := [{ entryG with pte := pte }]
    copies := [(5, { copyG with desc := descG 0x100 0x8000000000010000, accepted := true, log := log })] }

theorem witness_copy_steps :
    (copyDesc (descG 0x100 0x200)).bad (engKind copyG.engine) copyG.packet.isSome = false ∧
    (copyDesc (descG 0x100 0x201)).crec = 0x300 ∧
    ((stCopy 0x100 false 0).copies.lookup 5).isSome = true ∧
    sectorFate (stCopy 0x100 true 0) = some (.moves [some (lKey 0 0x200)]) ∧ lKey 0 0x200 % 64 = 0 ∧ lKey 0 0x200 + 64 ≤ descBase ∧
    sectorFate { stCopyOut (mkPte 2 9 16 0 15 false) [] with
      remote := [{ id := 4, core := copyOwner 5, slot := 0, ctx := 0, chip := 9, pa := 65536, op := .write [1], resend := 0, since := 0,
                   fill := none, fails := 0 }] } = some .writeWaits ∧
    sectorFate (stCopy 0x8000000000090000 true 0) = some .refused ∧
    sectorFate (stCopyOut (mkPte 1 0 16 0 15 false) [.refused 3 0 0, .place (.glob (.here 65536) entryG 65536) true]) = some .lost ∧
    sectorFate (stCopyOut (mkPte 1 0 16 0 15 false ||| (1#64 <<< 47)) []) = some .judgedLater ∧
    sectorFate stFarPage = some .readWaits ∧
    (let s := stCopy 0x100 true 1; let c := { copyG with desc := descG 0x100 0x200, accepted := true, next := 1, moved := 64 };
      s.copies.lookup 5 = some c ∧ c.count ≤ c.next ∧ (copyDesc c.desc).mapped = false ∧ s.copyHome c = true ∧ s.remote = [] ∧
      (copyDesc c.desc).recordFits = true ∧ s.supervisor c.core (copyDesc c.desc).crec 32 = false) := by decide +kernel

theorem witness_no_watchpoint (off : Nat) : watchHit ((stCopy 0x100 true 1).cluster 0) 1 off 32 = none := by
  have h : ∀ w, watchMatch ((stCopy 0x100 true 1).cluster 0) 1 off 32 w = false := by
    intro w
    have e : (stCopy 0x100 true 1).cluster 0 = { Cluster.reset with gang := some 7 } := by decide +kernel
    rw [e]
    simp [watchMatch, Cluster.reset, tget]
  simp [watchHit, h]

/-- Die 3 has one command, which has run or not. -/
def stQuant (ran : Bool) : State :=
  { stG with quant := [(3, { QuantEngine.reset with queue := [{ quantG with ran := ran }] })] }

/-- A command on one block of f32 at G:0x10000, to the block at dst, that has begun. -/
def begunG (dst : Nat) : QuantCmd :=
  { quantG with
    begun := some (32, none)
    desc := bodyG 1 [(0, 8, 0x8000000000010000), (8, 8, dst), (0x10, 4, 1), (0x14, 4, 127 * 2048 + 0xC2)] }

def stGroup (dst : Nat) : State :=
  { stG with mem := putBlock stG.mem 0x10000 (blockF 0x3F800000), quant := [(3, { QuantEngine.reset with queue := [begunG dst] })] }

/-- The same block for statistics only. -/
def statsG : QuantCmd :=
  { quantG with
    begun := some (32, none)
    desc := bodyG 1 [(0, 8, 0x8000000000010000), (8, 8, 0x8000000000010400), (0x10, 4, 1), (0x14, 4, 127 * 2048 + 0xC2), (0x18, 1, 3)] }

def stStats (src : Nat) : State :=
  { stG with
    mem := putBlock stG.mem 0x10000 (blockF 0x3F800000)
    quant := [(3, { QuantEngine.reset with
      queue := [{ statsG with desc := leBytes 8 (0x8000000000000000 + src) ++ statsG.desc.drop 8 }] })] }

/-- What the first read of a stats command comes to: the blocks got. -/
def statsTry (src : Nat) : Option (List Bool) :=
  match (stStats src).engine 3 |>.pick with
  | some c =>
    match (stStats src).quantReads (.start c.log) 3 c.ctx (gOff (quantDesc c.desc).src) c.next 1 with
    | .ok _ _ rd => if (quantDesc c.desc).op = 3 ∧ c.next + 1 = (quantDesc c.desc).nsrc then some (rd.map fun a => a.got.isSome) else none
    | .wait _ _ => none
  | none => none

theorem witness_stats :
    statsTry 0x10000 = some [true] ∧ statsTry 0x90000 = some [false] ∧
    (((stStats 0x10000).engine 3).queue.any fun c => c.ran) = false ∧ (((stStats 0x10000).engine 3).pick.map fun c => c.begun) = some (some (32, none)) := by
  decide +kernel

/-- What GroupSeen asks, computed: whether all was read, and all judged. -/
def groupTry (dst : Nat) : Option (Bool × Bool) :=
  let c := begunG dst
  let q := quantDesc c.desc
  match (stGroup dst).quantReads (.start c.log) 3 c.ctx (gOff q.src) 0 1 with
  | .wait _ _ => none
  | .ok t k rd =>
    match t.quantJudges k c.ctx (gOff q.dst) 0 1 with
    | .wait _ _ => none
    | .ok u _ wr =>
      some ((rd.all fun a => a.got.isSome) && u.remote.isEmpty, wr.all fun a => a.got.isSome)

theorem witness_group :
    (∀ d ∈ [0x8000000000010400, 0x8000000000090000], ((stGroup d).engine 3).pick = some (begunG d) ∧
      (((stGroup d).engine 3).queue.any fun c => c.ran) = false ∧ (begunG d).begun = some (32, none) ∧
      (quantDesc (begunG d).desc).op ≠ 3 ∧
      (let q := quantDesc (begunG d).desc;
       let f := q.fmt.getD fmt32;
       let gd := max (2 ^ q.group) (dstCount 32 f.width);
       let gs := gd * srcCount 32 f.width / dstCount 32 f.width;
       1 = min gs (q.nsrc - 0 * gs) ∧ 1 = min gd (q.ndst 32 - 0 * gd) ∧ 0 * gs < q.nsrc ∧ q.nsrc ≤ (0 + 1) * gs)) ∧
    groupTry 0x8000000000010400 = some (true, true) ∧ groupTry 0x8000000000090000 = some (true, false) := by decide +kernel

theorem witness_engines :
    ((((stQuant false).engine 3).queue.any fun c => c.ran) = false ∧ ((stQuant false).engine 3).pick = some quantG ∧ quantG.begun = none ∧
      (quantDesc quantG.desc).bad = true) ∧
    ((((stQuant true).engine 3).queue.find? fun c => c.ran) = some { quantG with ran := true } ∧ (quantDesc quantG.desc).stat = 0 ∧
      (stQuant true).remote = []) ∧
    ((stSync.lease 4 5).data = .svar 40 [(0, 0x80)] ∧ (stSync.lease 4 5).inUse = true ∧ stSync.leaseLive (stSync.lease 4 5) = true ∧
      stSync.supervisor 0 0x80 8 = false ∧ watchHit (stSync.cluster 0) 1 (xOffset 0 0 0x80) 8 = none) := by decide +kernel

/-! ## Arrivals over the fabric, resets and power (16, 17, 23) -/

/-- A request of chip 9 for device address 0x10040. -/
def farG (op : RemoteOp) : RemoteReq := { chip := 9, id := 2, ctx := 0, pa := 0x10040, op := op, tagOk := true }

theorem witness_requests :
    ((farG (.read 64)).pa < hbmSize ∧ stG.performed.lookup (reqKey (farG (.read 64))) = none ∧ stG.pinnedAt 0x10040 = none ∧
      poisoned stG.mem 0x10040 = false ∧ stG.healing.lookup (reqKey (farG (.read 64))) = none ∧
      stG.flawed 0x10040 64 false false = false ∧
      ({ stG with flaws := [(0x10040, true)] } : State).flawed 0x10040 64 false false = true ∧ stG.flaws = []) ∧
    (({ farG (.read 64) with tagOk := false }).tagOk = false ∧ opWrites (.read 64) = false ∧
      stG.performed.lookup (reqKey { farG (.read 64) with tagOk := false }) = none) ∧
    (isAtomic (.amo 0 8 1 0) = true ∧
      ({ stG with performed := [(reqKey (farG (.amo 0 8 1 0)), memRep 2)] } : State).performed.lookup
        (reqKey (farG (.amo 0 8 1 0))) = some (memRep 2)) ∧
    (let s : State := { stFar with dt := 100000 };
      (s.remote.find? fun q => q.id == 4).any (fun q => q.since + 100000 ≤ s.dt && q.resend < 3) = true) ∧
    (tget 0 ({ stG with replays := [(95, 16)] } : State).replays 95 = 16 ∧ (95 : Nat) < 96) := by decide +kernel

/-- A path that ends here, in the range of die 0, index 5; its messages come from chip 9. -/
def pathIn : Word := mkHandle 2 6 0 0 9
def dstG : PathDst := { src := 9, range := mkHandle 3 2 0 0 5, expect := 7, poisoned := [], held := [] }
def msgG (seq : Nat) (body : PathBody) : PathMsg :=
  { path := pathIn, seq := seq, chip := 9, core := 0, slot := 0, ds := 3, off := 8, body := body, tagOk := true, marked := false }

def stIn (quota : Nat) : State :=
  { stSync with
    leases := stSync.leases ++ [(leaseKey (unitOf 6 0) 9,
      { cls := 6, gen := 2, e := 1000000, anchored := false, owner := 0, inUse := true, data := .path dstG })]
    contexts := [(0, { Context.unused with live := true, quota := [(quotaOf 7, quota)] })] }

def inSeqB (s : State) (m : PathMsg) (x : PathDst) : Bool :=
  msgFits m && decide (s.pathAt m.path = some x) && x.held.isEmpty && decide (m.seq = x.expect % 2 ^ 32) && s.pathAccepts x m &&
    (s.blockersAt (s.pathPlaces x m)).isEmpty && m.tagOk

theorem inSeq_of {s : State} {m : PathMsg} {x : PathDst} (h : inSeqB s m x = true) : InSequence s m x := by
  simpa [inSeqB, InSequence, and_assoc] using h

theorem witness_in_sequence :
    (∀ b ∈ [PathBody.word 3, .signal svarG 2, .offer 0 0x10000 65536 500 none], ∀ q ∈ [0, 4],
      inSeqB (stIn q) (msgG 7 b) dstG = true) ∧
    (stIn 0).quotaLeft ((stIn 0).record dstG.range).owner 7 = 0 ∧ (stIn 4).quotaLeft ((stIn 4).record dstG.range).owner 7 ≠ 0 ∧
    (stIn 4).lowestFree (unitOf 7 (hDie dstG.range)) = some 0 ∧ hChip svarG = (stIn 4).chip ∧
    ((stIn 4).syncRecord 3 svarG).any (fun l => decide (l.data = .svar 40 [(0, 0x80)])) = true ∧
    ((stIn 4).pathAt pathIn = some dstG ∧ (msgG 8 (.word 3)).seq ≠ dstG.expect % 2 ^ 32) ∧
    (msgFits (msgG 7 (.word 3)) = true ∧ stG.pathAt pathIn = none) ∧ msgFits { msgG 7 (.word 3) with core := 1024 } = false := by
  decide +kernel

/-- The path of stPath with one message unanswered. -/
def flightG : Flight := { msg := { msgG 6 (.word 3) with path := pathG }, tries := 2, fresh := false, id := 0, counts := true, owner := 4 }
def srcG : PathSrc :=
  { h := pathG, owner := 0, ed := 100000, size := 4096, dstCtx := 0, seq := 7, unacked := [flightG], since := 0, gone := false }
def stAck : State := { stPath with paths := [srcG], dt := 100000 }

theorem witness_answers : pathG ≠ 0 ∧ hClass pathG ≠ 7 ∧ hGen pathG ≠ 0 ∧ stAck.pathOf pathG = some srcG ∧ (srcG.unacked.find? fun f => f.msg.seq == 6) = some flightG ∧
    flightG.msg.body = .word 3 ∧ flightG.counts = true ∧ (∀ f ∈ srcG.unacked, f.tries < 3) ∧ srcG.unacked ≠ [] ∧
    srcG.since + 100000 ≤ stAck.dt ∧ hChip pathG ≠ stAck.chip ∧ srcG.h = pathG ∧ ∀ f ∈ srcG.unacked, f.msg.path = pathG := by
  decide +kernel

def stubH : Word := mkHandle 4 7 0 0 8
def pinG : Pin :=
  { h := stubH, ctx := 0, dstCtx := 0, base := 0x10000, size := 65536, ep := 5000, frozen := false, ended := false,
    keys := [], by_ := none, early := [] }
def stubG : Stub :=
  { src := 9, size := 65536, view := some 0x30000, backing := mkHandle 3 2 0 0 5, pulled := [1], pulling := [(2, 0)], dead := [],
    complete := false }

def stPull : State :=
  { stG with
    pins := [pinG]
    leases := stG.leases ++ [(leaseKey (unitOf 7 0) 8,
      { cls := 7, gen := 4, e := 1000000, anchored := false, owner := 0, inUse := true, data := .stub stubG })] }

theorem witness_deferred :
    ((stPull.pins.find? fun p => p.h == stubH && p.h != 0 && stPull.pinLive p) = some pinG ∧ 15 < pinG.size / 4096 ∧ 9 ≠ stPull.chip ∧
      pinG.frozen = false ∧ stPull.pinLive pinG = true ∧ stubH ≠ 0 ∧ stPull.keptTile 9 stubH 15 = none) ∧
    (let d : TileOut := { h := stubH, tile := 15, chip := 9, bs := [blockF 0] };
      ({ stPull with tilesOut := [d] } : State).keptTile 9 stubH 15 = some d ∧ d.bs ≠ []) ∧
    stG.pins = [] ∧ stG.keptTile 9 stubH 15 = none ∧
    (stPull.stubAt stubH = some stubG ∧ stubG.pulling.lookup 2 = some 0 ∧
      ((stPull.backingPage stubG (4096 * 2)).any fun e => (stPull.blockerAt e.2).isNone) = true ∧ 0 < stubG.size / 4096 ∧ 0 ≠ 2 ∧
      0 ∉ stubG.pulled) ∧
    (let s : State := { stPull with entries := [{ entryG with pte := entryG.pte ||| (1#64 <<< 46) }] };
      s.stubAt stubH = some stubG ∧ ((s.backingPage stubG (4096 * 2)).any fun e => (s.blockerAt e.2).isSome) = true ∧
      s.tilesIn = []) := by decide +kernel

/-- An offer to chip 9 whose answer is on its way, ahead of which a pull of its stub may come. -/
def stAwait : State := { stG with pins := [{ pinG with h := 0, dstCtx := 9 * 1024 }] }

theorem witness_early_pull : (stAwait.pins.any (Pin.awaits 9)) = true ∧ stAwait.keptTile 9 stubH 3 = none ∧ 9 ≠ stAwait.chip ∧
    (∀ p ∈ stAwait.pins, p.h ≠ stubH) ∧ look (fun s => (s.pins.map (·.early), s.outbox)) (exec (.pullRequestArrival stubH 3 9) stAwait) =
      some ([[(stubH, 3, 9)]], []) := by decide +kernel

/-- An acknowledgement to chip 9 that is asked for again. -/
def stNote : State := { stPath with notes := [{ id := 2, msg := .link 9 stubH 500, tries := 2, at_ := 0 }] }

theorem witness_notes : ((stNote.notes.find? fun n => n.id == 2).any fun n => n.tries < 3) = true ∧ stNote.pathOf noteKey = none ∧
    look (fun s => s.outbox) (exec (.goBackArrival noteKey 2) stNote) = some [.link 9 stubH 500] := by decide +kernel

/-- Every tile but the third has come. -/
def stTail : State :=
  { stPull with leases := stG.leases ++ [(leaseKey (unitOf 7 0) 8,
      { cls := 7, gen := 4, e := 1000000, anchored := false, owner := 0, inUse := true,
        data := .stub { stubG with pulled := (List.range 16).filter (· ≠ 2) } })] }

theorem witness_pull_data : stPull.flaws = [] ∧ stTail.flaws = [] ∧
    (∃ pa, ∀ i < 2, (stPull.backingPage stubG (4096 * 2 + 64 * i)).map (·.2) = some (pa + 64 * i) ∧
      stPull.blockerAt pa = none) ∧
    (∀ t < 16, t = 2 ∨ t ∈ ((List.range 16).filter (· ≠ 2))) ∧ stTail.leaseLive (stTail.record stubH) = true ∧
    ((stTail.stubAt stubH).any fun x => x.pulling.lookup 2 == some 0 && x.size == 65536 && decide (x.src ≠ stTail.chip)) = true :=
  ⟨by decide, by decide, ⟨0x10000 + 8192, by decide +kernel⟩, by decide, by decide +kernel, by decide +kernel⟩

theorem witness_power : (State.reset.core 1023).array = none ∧ (State.reset.core 1023).damask = none ∧ (State.reset.cluster (clusterOf 1023)).gang = none := by decide +kernel

/-! ## The machine as a whole (03, 05, 15) -/

/-- Core 0 is next; its slot 0 runs li 5 at 0x400 of its own L, whose word is 0x0000A00D. -/
def stRun : State := State.reset.withFetchWord 32 0x0000A00D

theorem witness_step :
    (let r := { stRun with agenda := [], lastCore := 0 }.tick 0;
      stRun.powered = true ∧ stRun.agenda = [.core 0] ∧
      (match resumeSlots decode r 0 (r.core 0).listed with
       | .next q =>
         let w := if (q.cluster (clusterOf 0)).halt then q else wakeSlots decode q 0 (q.core 0).listed
         let x := w.slot 0 0
         (w.candidates 0).head? == some 0 && x.ready (w.core 0).cycle && !(w.core 0).held x && !x.atPort &&
           (match (w.on 0 0).fetch with
            | .word t bs => decide ((decode bs).map (·.1) = some (.li .acc 5#19)) &&
                (match exec (.li .acc 5#19) (t.setCur { t.cur with word := bs }) with
                 | .next u => !(u.slot 0 0).atPort
                 | _ => false)
            | _ => false)
       | _ => false) = true) := by decide +kernel

/-- A slot that waits for an answer which has come: the word of qstat 3 is taken up again. -/
def stTaken : State :=
  let t := after (.qstat 3) { stG with quant := [] }
  t.setCur { t.cur with word := (encode (.qstat 3)).bytes, park := t.cur.park.map fun p => { p with wake := .till 0 } }

theorem witness_resumed : (stTaken.slot 0 0).resumes (stTaken.core 0).cycle = true ∧ (stTaken.cluster (clusterOf 0)).halt = false ∧
    (decode (stTaken.slot 0 0).word).map (·.1) = some (.qstat 3) := by decide +kernel

theorem test_step_runs_li : look (fun s => ((s.slot 0 0).a, (s.slot 0 0).pc)) (step stRun) = some (5, 0x404) := by decide +kernel

theorem test_step_of_an_event : look (fun s => s.dtSlew)
    (step { State.reset with agenda := [.event (.dtBeacon 100)] }) = some 100 := by decide +kernel

theorem witness_canonical : State.reset.MemOk := by decide +kernel

end Sys2Proof.Tests
end

section
/-!
SUPPORT. What leaves the chip, what a scrub clears, what time and revocation do to the table of leases.
-/
namespace Sys2Proof.Machine

/-! Messages that leave the chip (16 R291, R292). -/

/-- A message that leaves changes what stands at the ports and the flit counts, and no other field. -/
theorem State.leave_eq (s : State) (m : OutMsg) :
    ∃ o k c, s.leave m = { s with outbox := o, stuck := k, portCtr := c } := by
  unfold State.leave
  split
  · exact ⟨_, s.stuck, s.portCtr, rfl⟩
  · split
    · exact ⟨_, s.stuck, _, rfl⟩
    · exact ⟨s.outbox, _, s.portCtr, rfl⟩

/-- A new message changes these, and the notes kept of what only answers or informs. -/
theorem State.emit_eq (s : State) (m : OutMsg) :
    ∃ o k c l n, s.emit m = { s with outbox := o, stuck := k, portCtr := c, notes := l, noted := n } := by
  obtain ⟨o, k, c, h⟩ := s.leave_eq m
  unfold State.emit State.keepNote
  rw [h]
  split
  · exact ⟨o, k, c, _, _, rfl⟩
  · exact ⟨o, k, c, s.notes, s.noted, rfl⟩

@[simp] theorem State.emit_mem (s : State) (m : OutMsg) : (s.emit m).mem = s.mem := by
  obtain ⟨_, _, _, _, _, h⟩ := s.emit_eq m; rw [h]
@[simp] theorem State.emit_cores (s : State) (m : OutMsg) : (s.emit m).cores = s.cores := by
  obtain ⟨_, _, _, _, _, h⟩ := s.emit_eq m; rw [h]
@[simp] theorem State.emit_leases (s : State) (m : OutMsg) : (s.emit m).leases = s.leases := by
  obtain ⟨_, _, _, _, _, h⟩ := s.emit_eq m; rw [h]
@[simp] theorem State.emit_contexts (s : State) (m : OutMsg) : (s.emit m).contexts = s.contexts := by
  obtain ⟨_, _, _, _, _, h⟩ := s.emit_eq m; rw [h]
@[simp] theorem State.emit_waiting (s : State) (m : OutMsg) : (s.emit m).waiting = s.waiting := by
  obtain ⟨_, _, _, _, _, h⟩ := s.emit_eq m; rw [h]

@[simp] theorem State.slot_emit (s : State) (m : OutMsg) (g k : Nat) : (s.emit m).slot g k = s.slot g k := by
  simp only [State.slot, State.core, State.emit_cores]

/-- The message has left, or waits at the router. -/
theorem sent_leave (s : State) (m : OutMsg) : Claims.Sent s (s.leave m) m := by
  unfold State.leave
  split
  · exact .inl ⟨rfl, rfl⟩
  · split
    · exact .inl ⟨rfl, rfl⟩
    · exact .inr ⟨rfl, rfl⟩

theorem sent_emit (s : State) (m : OutMsg) : Claims.Sent s (s.emit m) m := by
  have h := sent_leave s m
  unfold State.emit State.keepNote
  split
  · exact h
  · exact h

/-! Tables and memory after a filter or a map over the keys. -/

theorem tget_filter_key {α : Type} (d : α) (t : Table α) (p : Nat → Bool) (k : Nat) :
    tget d (t.filter fun e => p e.1) k = if p k then tget d t k else d := by
  induction t with
  | nil => simp [tget]
  | cons e t ih =>
    obtain ⟨j, v⟩ := e
    rw [List.filter_cons]
    by_cases hk : k = j
    · subst hk
      by_cases hp : p k = true
      · simp [hp, tget]
      · simp [hp, ih]
    · split <;> simp [tget, hk, ih]

theorem tget_map_key {α : Type} (d : α) (t : Table α) (p : Nat → Bool) (f : α → α) (hd : f d = d) (k : Nat) :
    tget d (t.map fun e => if p e.1 then (e.1, f e.2) else e) k = if p k then f (tget d t k) else tget d t k := by
  induction t with
  | nil => simp [tget, hd]
  | cons e t ih =>
    obtain ⟨j, v⟩ := e
    rw [List.map_cons]
    by_cases hk : k = j
    · subst hk
      by_cases hp : p k = true <;> simp [hp, tget]
    · by_cases hp : p j = true <;> simp [hp, tget, hk, ih]

theorem mget_mclear (m : List Host.Cell) (k n j : Nat) :
    mget (mclear m k n) j = if k ≤ j ∧ j < k + n then initByte j else mget m j := by
  unfold mget mclear
  rw [tget_filter_key (initByte j) m fun i => i < k || k + n ≤ i]
  by_cases h : k ≤ j ∧ j < k + n
  · rw [if_pos h, if_neg (by simp only [Bool.or_eq_true, decide_eq_true_eq]; omega)]
  · rw [if_neg h, if_pos (by simp only [Bool.or_eq_true, decide_eq_true_eq]; omega)]

/-! The scrub of frames (06 R100). -/

/-- A key that the scrub of a frame, an address and a size, clears: a byte of it, or a descriptor byte of one of its blocks. -/
def Scrubs (f : Nat × Nat) (j : Nat) : Prop :=
  (f.1 ≤ j ∧ j < f.1 + f.2) ∨ (fmtKey f.1 ≤ j ∧ j < fmtKey f.1 + 2 * (f.2 / 64))

theorem mget_mscrub (m : List Host.Cell) (f : Nat × Nat) (j : Nat) :
    (Scrubs f j → mget (mscrub m f.1 f.2) j = initByte j) ∧ (¬Scrubs f j → mget (mscrub m f.1 f.2) j = mget m j) := by
  unfold mscrub
  rw [mget_mclear, mget_mclear]
  constructor
  · rintro (h | h)
    · rw [if_pos h, ite_self]
    · rw [if_pos h]
  · intro h
    obtain ⟨h1, h2⟩ := not_or.mp h
    rw [if_neg h2, if_neg h1]

/-- A clear byte stays clear. -/
theorem mget_scrubAll_of_init (m : List Host.Cell) (fs : List (Nat × Nat)) (j : Nat) (h : mget m j = initByte j) :
    mget (scrubAll m fs) j = initByte j := by
  induction fs generalizing m with
  | nil => exact h
  | cons f fs ih =>
    obtain ⟨hin, hout⟩ := mget_mscrub m f j
    by_cases hf : Scrubs f j
    · exact ih _ (hin hf)
    · exact ih _ ((hout hf).trans h)

theorem mget_scrubAll_of_mem (m : List Host.Cell) (fs : List (Nat × Nat)) (f : Nat × Nat) (j : Nat) (hf : f ∈ fs)
    (hj : Scrubs f j) : mget (scrubAll m fs) j = initByte j := by
  induction fs generalizing m with
  | nil => cases hf
  | cons g fs ih =>
    obtain rfl | hf := List.mem_cons.mp hf
    · exact mget_scrubAll_of_init _ fs j ((mget_mscrub m f j).1 hj)
    · exact ih _ hf

theorem pteSize_blocks (e : Word) : ∃ n, pteSize e = 64 * n ∧ 64 * n ≤ 2 ^ 30 := by
  unfold pteSize sizeOfCode
  split
  · exact ⟨32768, by decide, by decide⟩
  · split
    · exact ⟨16777216, by decide, by decide⟩
    · exact ⟨1024, by decide, by decide⟩

theorem pteFrame_lt (e : Word) : pteFrame e < 2 ^ 34 := Nat.mod_lt _ (by decide)

/-- Byte j of the page of an entry, after the scrub of frames among which it is: zero, with descriptor (0x00, 127). -/
theorem scrubAll_page (m : List Host.Cell) (fs : List (Nat × Nat)) (e : Word) (j : Nat)
    (hf : (pteFrame e * 4096, pteSize e) ∈ fs) (hj : j < pteSize e) :
    mget (scrubAll m fs) (pteFrame e * 4096 + j) = 0 ∧ mget (scrubAll m fs) (fmtKey (pteFrame e * 4096 + j)) = 0 ∧
      mget (scrubAll m fs) (scaleKey (pteFrame e * 4096 + j)) = 127 := by
  obtain ⟨n, hn, hmax⟩ := pteSize_blocks e
  have hframe := pteFrame_lt e
  rw [hn] at hf hj
  have hbyte : Scrubs (pteFrame e * 4096, 64 * n) (pteFrame e * 4096 + j) := .inl ⟨by simp, by simpa using hj⟩
  have hfmt : Scrubs (pteFrame e * 4096, 64 * n) (fmtKey (pteFrame e * 4096 + j)) := by
    refine .inr ⟨?_, ?_⟩ <;> simp only [fmtKey] <;> omega
  have hscale : Scrubs (pteFrame e * 4096, 64 * n) (scaleKey (pteFrame e * 4096 + j)) := by
    refine .inr ⟨?_, ?_⟩ <;> simp only [scaleKey, fmtKey] <;> omega
  refine ⟨?_, ?_, ?_⟩
  · rw [mget_scrubAll_of_mem _ _ _ _ hf hbyte, initByte, if_neg (by simp only [descBase]; omega)]
  · rw [mget_scrubAll_of_mem _ _ _ _ hf hfmt, initByte, if_neg (by simp only [fmtKey, descBase]; omega)]
  · rw [mget_scrubAll_of_mem _ _ _ _ hf hscale, initByte, if_pos (by simp only [scaleKey, fmtKey, descBase]; omega)]

/-! Lease records after a write. -/

@[simp] theorem State.lease_setLease_same (s : State) (unit idx : Nat) (l : Lease) : (s.setLease unit idx l).lease unit idx = l :=
  tget_tput_same ..

/-- The records of the contexts stand in units of their own, so a context's life does not rest on the other units. -/
theorem State.ctxLive_setLease (s : State) (unit idx : Nat) (l : Lease) (hu : unit < 8) (hi : idx < 262144) (c : Nat) :
    (s.setLease unit idx l).ctxLive c = s.ctxLive c := by
  have hkey : leaseKey (ctxUnit (s.context c).link) c ≠ leaseKey unit idx := by
    unfold leaseKey ctxUnit linkDie; omega
  have hlease : (s.setLease unit idx l).ctxLease c = s.ctxLease c := tget_tput_other _ _ _ hkey
  unfold State.ctxLive
  rw [hlease, State.setLease_dt]

theorem State.leaseLive_setLease (s : State) (unit idx : Nat) (l x : Lease) (hu : unit < 8) (hi : idx < 262144) :
    (s.setLease unit idx l).leaseLive x = s.leaseLive x := by
  unfold State.leaseLive
  rw [State.ctxLive_setLease s unit idx l hu hi, State.setLease_dt]

/-! What time does at the homes (06 R97). -/

theorem State.lapsedLock_eq_none_iff (s : State) :
    s.lapsedLock = none ↔ ∀ e ∈ s.leases, ∀ pa, e.2.data = .lock pa → e.2.inUse = true → s.leaseLive e.2 = true := by
  unfold State.lapsedLock
  rw [List.findSome?_eq_none_iff]
  refine forall₂_congr fun e _ => ?_
  cases hd : e.2.data <;> simp

/-- A record that is written as no lock lapses no lock. -/
theorem State.lapsedLock_setLease (s : State) (unit idx : Nat) (l : Lease) (hu : unit < 8) (hi : idx < 262144)
    (hl : ∀ pa, l.data ≠ .lock pa) (h : s.lapsedLock = none) : (s.setLease unit idx l).lapsedLock = none := by
  rw [State.lapsedLock_eq_none_iff] at h ⊢
  intro e he pa hd hin
  rw [State.leaseLive_setLease s unit idx l e.2 hu hi]
  rcases mem_tput _ _ _ _ he with rfl | he
  · exact absurd hd (hl pa)
  · exact h e he pa hd hin

theorem State.settleLocks_of_none (s : State) (h : s.lapsedLock = none) (n : Nat) : s.settleLocks n = s := by
  cases n with
  | zero => rfl
  | succ n => rw [State.settleLocks, h]

/-- Where no lock has lapsed and no wait is held, the homes have nothing to settle. -/
theorem State.settleHomes_of_quiet (s : State) (h : s.lapsedLock = none) (hw : s.waiting = []) : s.settleHomes = s := by
  unfold State.settleHomes
  rw [State.settleLocks_of_none s h]
  simp only [hw, State.settleWaits]

/-- A lease of another kind than a lock that is found to have lapsed. -/
theorem State.lapse_of_lapsed (s : State) (unit idx : Nat) (hin : (s.lease unit idx).inUse = true)
    (hlive : s.leaseLive (s.lease unit idx) = false) (hl : ∀ pa, (s.lease unit idx).data ≠ .lock pa) :
    s.lapse unit idx =
      if (s.lease unit idx).cls = 1 then
        ((s.setLease unit idx (s.lapsedLease (s.lease unit idx))).endContext (s.lease unit idx).owner).settleHomes
      else (s.setLease unit idx (s.lapsedLease (s.lease unit idx))).settleHomes := by
  cases hd : (s.lease unit idx).data with
  | lock pa => exact absurd hd (hl pa)
  | _ => simp [State.lapse, hin, hlive, hd]

theorem State.lapse_of_live (s : State) (unit idx : Nat) (h : s.leaseLive (s.lease unit idx) = true) :
    s.lapse unit idx = s := by
  simp [State.lapse, h]

/-- A lapse at a quiet home only takes its record out of use. -/
theorem State.lapse_eq_setLease (s : State) (unit idx : Nat) (hu : unit < 8) (hi : idx < 262144)
    (hin : (s.lease unit idx).inUse = true) (hlive : s.leaseLive (s.lease unit idx) = false)
    (hl : ∀ pa, (s.lease unit idx).data ≠ .lock pa) (hlock : s.lapsedLock = none) (hw : s.waiting = [])
    (hc : (s.lease unit idx).cls ≠ 1) :
    s.lapse unit idx = s.setLease unit idx (s.lapsedLease (s.lease unit idx)) := by
  rw [State.lapse_of_lapsed s unit idx hin hlive hl, if_neg hc]
  exact State.settleHomes_of_quiet _ (State.lapsedLock_setLease s unit idx _ hu hi hl hlock) hw

/-! Revocation at a home (06 R101). -/

theorem Lease.revoked_other (owner dt : Nat) (l : Lease) (h : l.owner ≠ owner) : l.revoked owner dt = l := by
  simp [Lease.revoked, h]

@[simp] theorem Lease.revoked_unused (owner dt : Nat) : Lease.unused.revoked owner dt = Lease.unused := by
  simp [Lease.revoked, Lease.unused]

theorem State.lease_applyRevocation (s : State) (unit owner idx : Nat) (hi : idx < 2 ^ 20) :
    (s.applyRevocation unit owner).lease unit idx = (s.lease unit idx).revoked owner s.dt := by
  have hkey : (leaseKey unit idx / 2 ^ 20 == unit) = true := by
    rw [beq_iff_eq]; unfold leaseKey; omega
  unfold State.lease State.applyRevocation
  rw [tget_map_key _ _ (fun k => k / 2 ^ 20 == unit) _ (Lease.revoked_unused owner s.dt), if_pos hkey]

/-- A lease that is revoked is live no more, in any state of the same time. -/
theorem State.leaseLive_revoked (s : State) (l : Lease) (hin : l.inUse = true) :
    s.leaseLive (l.revoked l.owner s.dt) = false := by
  have hend : ¬s.dt < min l.e s.dt := Nat.not_lt.mpr (Nat.min_le_right ..)
  simp only [State.leaseLive, Lease.revoked, hin, and_self, if_true, Bool.false_eq_true, if_false, hend, decide_false]

/-! The scrub of a lapsed range (06 R100). -/

theorem State.scrubDone_of_range (s : State) (unit idx va size page : Nat) (str : Bool)
    (hd : (s.lease unit idx).data = .range va size page str) (hin : (s.lease unit idx).inUse = false)
    (hlive : s.leaseLive (s.lease unit idx) = false) (hw : s.scrubWaits unit idx (s.lease unit idx).gen = false) :
    ((s.scrubDone unit idx).lease unit idx).data = .none ∧
      (s.scrubDone unit idx).mem = scrubAll s.mem (s.rangeFramesAt unit idx (s.lease unit idx).gen) := by
  unfold State.scrubDone
  simp [hd, hin, hlive, hw]

theorem State.mem_rangeFramesAt (s : State) (unit idx gen : Nat) (e : PageEntry) (h : e ∈ s.rangeEntries unit idx gen) :
    (pteFrame e.pte * 4096, pteSize e.pte) ∈ s.rangeFramesAt unit idx gen :=
  List.mem_append_left _ (List.mem_map.mpr ⟨e, h, rfl⟩)

end Sys2Proof.Machine
end

section
/-!
SUPPORT. The life of contexts: what the end of a context, and the work it sets off, leaves of it.
-/
namespace Sys2Proof.Machine

/-! Operations that leave every context as it was. -/

@[simp] theorem State.emitAll_contexts (s : State) (ms : List OutMsg) : (s.emitAll ms).contexts = s.contexts := by
  induction ms generalizing s with
  | nil => rfl
  | cons m ms ih => rw [State.emitAll, ih, State.emit_contexts]

@[simp] theorem State.request_contexts (s : State) (g k ctx chip pa : Nat) (op : RemoteOp) :
    (s.request g k ctx chip pa op).contexts = s.contexts := by
  show (s.emit _).contexts = _
  exact State.emit_contexts ..

@[simp] theorem State.patchCache_contexts (s : State) (die ctx va : Nat) (bs : List Byte) :
    (s.patchCache die ctx va bs).contexts = s.contexts := by
  unfold State.patchCache
  dsimp only
  split <;> rfl

@[simp] theorem State.putCache_contexts (s : State) (die : Nat) (e : PageEntry) (va : Nat) (b : Block) :
    (s.putCache die e va b).contexts = s.contexts := by
  unfold State.putCache
  dsimp only
  split
  · split <;> rfl
  · rfl

theorem State.countFlaw_contexts (s : State) (f : Nat × Bool) : (s.countFlaw f).contexts = s.contexts := by
  unfold State.countFlaw
  dsimp only
  split <;> rfl

theorem foldl_countFlaw_contexts (fs : List (Nat × Bool)) (s : State) :
    (fs.foldl State.countFlaw s).contexts = s.contexts := by
  induction fs generalizing s with
  | nil => rfl
  | cons f fs ih => rw [List.foldl_cons, ih, State.countFlaw_contexts]

@[simp] theorem State.idleCores_contexts (s : State) (gs : List Nat) : (s.idleCores gs).contexts = s.contexts := by
  induction gs generalizing s with
  | nil => rfl
  | cons g gs ih => rw [State.idleCores, ih, State.setCore_contexts]

@[simp] theorem State.withdraw_contexts (s : State) (c : Nat) : (s.withdraw c).contexts = s.contexts := by
  show (s.emitAll _).contexts = _
  exact State.emitAll_contexts ..

@[simp] theorem State.freeCluster_contexts (s : State) (c : Nat) : (s.freeCluster c).contexts = s.contexts := by
  have h : ((s.idleCores (coresOf c)).withdraw c).contexts = s.contexts := by simp
  unfold State.freeCluster
  dsimp only
  split <;> exact h

@[simp] theorem State.finishPacket_contexts (s : State) (k : Nat) (result : Word) (status detail : Nat) :
    (s.finishPacket k result status detail).contexts = s.contexts := by
  unfold State.finishPacket
  split <;> rfl

@[simp] theorem State.endPackets_contexts (s : State) (ctx : Nat) (ks : List Nat) :
    (s.endPackets ctx ks).contexts = s.contexts := by
  induction ks generalizing s with
  | nil => rfl
  | cons k ks ih =>
    rw [State.endPackets, ih, apply_ite State.contexts, State.finishPacket_contexts, ite_self]

@[simp] theorem State.leaveEngines_contexts (s : State) (cs : List Copy) : (s.leaveEngines cs).contexts = s.contexts := by
  induction cs generalizing s with
  | nil => rfl
  | cons c cs ih =>
    rw [State.leaveEngines, ih, State.leaveEngine]
    split
    · exact State.request_contexts ..
    · rfl

@[simp] theorem State.dropOf_contexts (s : State) (ctx : Nat) : (s.dropOf ctx).contexts = s.contexts := by
  unfold State.dropOf State.dropWork
  dsimp only
  rw [State.leaveEngines_contexts]
  rfl

/-! The homes change no context when they settle what time has done. -/

@[simp] theorem State.takeLock_contexts (s : State) (r : HomeReq) (pa e : Nat) (room : Bool) :
    (s.takeLock r pa e room).1.contexts = s.contexts := by
  unfold State.takeLock
  dsimp only
  split <;> rfl

@[simp] theorem State.answer_contexts (s : State) (r : HomeReq) (p : HomeRep) : (s.answer r p).contexts = s.contexts := by
  unfold State.answer
  split
  · exact State.emit_contexts ..
  · split
    · exact State.finishPacket_contexts ..
    · rfl

@[simp] theorem State.settleWaits_contexts (s : State) (rs : List HomeReq) : (s.settleWaits rs).contexts = s.contexts := by
  induction rs generalizing s with
  | nil => rfl
  | cons r rs ih =>
    rw [State.settleWaits]
    split
    · rw [ih, State.answer_contexts]
    · exact ih s

@[simp] theorem State.handOver_contexts (s : State) (pa e : Nat) (rs : List HomeReq) :
    (s.handOver pa e rs).contexts = s.contexts := by
  induction rs generalizing s with
  | nil => rfl
  | cons r rs ih =>
    rw [State.handOver]
    split
    · dsimp only
      split
      · rw [ih, State.answer_contexts, State.takeLock_contexts]
      · rw [State.answer_contexts, State.takeLock_contexts]
    · exact ih s

@[simp] theorem State.settleLocks_contexts (s : State) (n : Nat) : (s.settleLocks n).contexts = s.contexts := by
  induction n generalizing s with
  | zero => rfl
  | succ n ih =>
    rw [State.settleLocks]
    split
    · rfl
    · rw [ih, State.handOver_contexts]

@[simp] theorem State.settleHomes_contexts (s : State) : s.settleHomes.contexts = s.contexts := by
  unfold State.settleHomes
  rw [State.settleWaits_contexts, State.settleLocks_contexts]

/-! Operations that may stage a record for a context, or note a number of its timeline, and end or begin none. -/

/-- Every context is live in t that is live in s, and no other. -/
structure SameLives (s t : State) : Prop where
  live : ∀ c, (t.context c).live = (s.context c).live

theorem SameLives.refl (s : State) : SameLives s s := ⟨fun _ => rfl⟩

theorem SameLives.trans {s t u : State} (h : SameLives s t) (k : SameLives t u) : SameLives s u :=
  ⟨fun c => (k.live c).trans (h.live c)⟩

theorem SameLives.of_contexts {s t : State} (h : t.contexts = s.contexts) : SameLives s t :=
  ⟨fun c => by rw [State.context, State.context, h]⟩

/-- A change beside the contexts, and then one that keeps their lives. -/
theorem SameLives.of_contexts_left {s t u : State} (k : SameLives t u) (h : t.contexts = s.contexts) : SameLives s u :=
  (SameLives.of_contexts h).trans k

/-- One that keeps their lives, and then a change beside the contexts. -/
theorem SameLives.of_contexts_right {s t u : State} (k : SameLives s t) (h : u.contexts = t.contexts) : SameLives s u :=
  k.trans (.of_contexts h)

/-- Writing a context that stays as live as it was. -/
theorem SameLives.setContext (s : State) (c : Nat) (x : Context) (h : x.live = (s.context c).live) :
    SameLives s (s.setContext c x) := by
  refine ⟨fun d => ?_⟩
  show (tget Context.unused (tput s.contexts c x) d).live = _
  rw [tget_tput]
  split
  · next hd => rw [h, hd]
  · rfl

theorem SameLives.notify (s : State) (ctx va peer thr : Nat) : SameLives s (s.notify ctx va peer thr) :=
  SameLives.setContext s ctx _ rfl

theorem SameLives.faultRecord (s : State) (ctx : Nat) (bs : List Byte) : SameLives s (s.faultRecord ctx bs) :=
  SameLives.setContext s ctx _ rfl

theorem SameLives.charge (s : State) (e : PageEntry) : SameLives s (s.charge e) := by
  unfold State.charge
  dsimp only
  split
  · generalize (if pteThr e.pte = 0 then 256 else 2 ^ pteThr e.pte) = thr
    split
    · exact .refl s
    · split
      · exact (SameLives.notify ..).of_contexts_left rfl
      · exact .of_contexts rfl
  · exact .refl s

theorem SameLives.memoryError (s : State) (ctx k : Nat) : SameLives s (s.memoryError ctx k) := by
  unfold State.memoryError State.memoryErrorOf
  dsimp only
  split
  · exact .faultRecord ..
  · exact .refl s

theorem SameLives.foldl_foundFlaw (ctx : Nat) (fs : List (Nat × Bool)) (s : State) :
    SameLives s (fs.foldl (State.foundFlaw ctx) s) := by
  induction fs generalizing s with
  | nil => exact .refl s
  | cons f fs ih =>
    have hf : SameLives s (s.foundFlaw ctx f) := by
      unfold State.foundFlaw
      exact (SameLives.memoryError ..).of_contexts_left rfl
    exact hf.trans (ih _)

theorem SameLives.sense (s : State) (ctx k n : Nat) : SameLives s (s.sense ctx k n) := by
  unfold State.sense
  exact (SameLives.foldl_foundFlaw ..).of_contexts_left rfl

theorem SameLives.mend (s : State) (ctx k n : Nat) (whole : Bool) : SameLives s (s.mend ctx k n whole) := by
  have h : SameLives s ({ s with flaws := s.flaws.filter fun f => !(f.2 && coversFlaw k n whole f) }.sense ctx k n) :=
    (SameLives.sense ..).of_contexts_left rfl
  exact h.of_contexts_right (foldl_countFlaw_contexts ..)

theorem SameLives.writeRoute (s : State) (g k ctx : Nat) (r : Route) (bs : List Byte) :
    SameLives s (s.writeRoute g k ctx r bs) := by
  cases r with
  | here pa =>
    show SameLives s ((s.writeBytes pa bs).mend ctx pa bs.length false)
    exact (SameLives.mend ..).of_contexts_left rfl
  | chip c pa => exact .of_contexts (State.request_contexts ..)
  | host l a => exact .of_contexts rfl

theorem SameLives.storeOut (s : State) (g k : Nat) (r : Route) (e : PageEntry) (va : Nat) (bs : List Byte) :
    SameLives s (s.storeOut g k r e va bs) := by
  have h := (SameLives.charge s e).trans (.writeRoute (s.charge e) g k e.ctx r bs)
  unfold State.storeOut
  dsimp only
  split
  · exact h.of_contexts_right (State.patchCache_contexts ..)
  · exact h

theorem SameLives.blockOut (s : State) (g k : Nat) (r : Route) (e : PageEntry) (va : Nat) (b : Block) :
    SameLives s (s.blockOut g k r e va b) := by
  unfold State.blockOut
  have h := SameLives.charge s e
  cases r with
  | here pa =>
    refine h.trans (.of_contexts_right ?_ (State.putCache_contexts ..))
    exact (SameLives.mend ..).of_contexts_left rfl
  | chip c pa =>
    exact h.of_contexts_right ((State.putCache_contexts ..).trans (State.request_contexts ..))
  | host l a => exact h.of_contexts_right (State.putCache_contexts ..)

theorem SameLives.payOwed (s : State) (g : Nat) (xs : List (Nat × Slot)) : SameLives s (s.payOwed g xs) := by
  induction xs generalizing s with
  | nil => exact .refl s
  | cons x xs ih =>
    rw [State.payOwed]
    refine SameLives.trans ?_ (ih _)
    split
    · exact .storeOut ..
    · exact .blockOut ..
    · exact .refl s

theorem SameLives.payCores (s : State) (gs : List Nat) : SameLives s (s.payCores gs) := by
  induction gs generalizing s with
  | nil => exact .refl s
  | cons g gs ih => exact (SameLives.payOwed s g _).trans (ih _)

theorem SameLives.tlDone (s : State) (ctx n : Nat) : SameLives s (s.tlDone ctx n) := by
  unfold State.tlDone
  split
  · exact .refl s
  · exact .setContext _ _ _ rfl

theorem SameLives.checkGraph (s : State) (g : Nat) : SameLives s (s.checkGraph g) := by
  unfold State.checkGraph
  dsimp only
  split
  · split
    · exact .refl s
    · refine .of_contexts_right ?_ (State.finishPacket_contexts ..)
      exact (SameLives.tlDone ..).of_contexts_left rfl
  · exact .refl s

theorem SameLives.nodeFail (s : State) (g n : Nat) : SameLives s (s.nodeFail g n) := by
  unfold State.nodeFail
  exact (SameLives.checkGraph ..).of_contexts_left rfl

theorem SameLives.nodeDone (s : State) (g n : Nat) : SameLives s (s.nodeDone g n) := by
  unfold State.nodeDone
  exact (SameLives.checkGraph ..).of_contexts_left rfl

theorem SameLives.gangOver (s : State) (l : Nat) (failed : Bool) : SameLives s (s.gangOver l failed) := by
  unfold State.gangOver
  dsimp only
  split
  · exact (SameLives.nodeFail ..).of_contexts_left rfl
  · split
    · split
      · exact (SameLives.checkGraph ..).of_contexts_left rfl
      · exact (SameLives.nodeDone ..).of_contexts_left rfl
    · exact .of_contexts rfl

theorem SameLives.discardGang (s : State) (n : Nat) : SameLives s (s.discardGang n) := by
  unfold State.discardGang
  dsimp only
  refine SameLives.trans ?_ (.gangOver ..)
  split
  · refine .of_contexts_right ?_ (State.freeCluster_contexts ..)
    exact (SameLives.payCores ..).of_contexts_left rfl
  · exact .of_contexts rfl

theorem SameLives.discardGangs (s : State) (ns : List Nat) : SameLives s (s.discardGangs ns) := by
  induction ns generalizing s with
  | nil => exact .refl s
  | cons n ns ih => exact (SameLives.discardGang s n).trans (ih _)

/-- A context that has ended is live no more: what its end sets off makes none live (06 R97). -/
theorem State.endContext_live (s : State) (ctx : Nat) : ((s.endContext ctx).context ctx).live = false := by
  have hset : ((s.setContext ctx { s.context ctx with live := false }).context ctx).live = false := by
    simp [State.context]
  have hrest : SameLives (s.setContext ctx { s.context ctx with live := false }) (s.endContext ctx) := by
    unfold State.endContext
    dsimp only
    refine .of_contexts_right ?_ ((State.dropOf_contexts ..).trans (State.endPackets_contexts ..))
    exact (SameLives.discardGangs ..).of_contexts_left rfl
  rw [hrest.live ctx, hset]

theorem State.lapse_ends_context (s : State) (unit idx : Nat) (hin : (s.lease unit idx).inUse = true)
    (hlive : s.leaseLive (s.lease unit idx) = false) (hl : ∀ pa, (s.lease unit idx).data ≠ .lock pa)
    (hc : (s.lease unit idx).cls = 1) : ((s.lapse unit idx).context (s.lease unit idx).owner).live = false := by
  rw [State.lapse_of_lapsed s unit idx hin hlive hl, if_pos hc]
  exact ((SameLives.of_contexts (State.settleHomes_contexts _)).live _).trans (State.endContext_live _ _)

end Sys2Proof.Machine
end

section
/-!
SUPPORT. Answers of homes: what a slot takes of one, what a home does with a request of another chip (06 R95, R103; 16 R292).
-/
namespace Sys2Proof.Machine

/-- A slot that waits for the reply runs on with it in its log. -/
theorem Slot.answered_of_reply (x : Slot) (id : Nat) (r : Reply) (k : Park) (hlive : x.live = true) (hpark : x.park = some k)
    (hwake : k.wake = .reply) (hask : x.asked = id) :
    x.answered id r = { x with replies := x.replies ++ [r], park := some { k with wake := .till 0, woken := true } } := by
  simp [Slot.answered, hpark, hlive, hask, hwake]

/-- What the chip notes of a reply stands in its records of paths and locks. -/
theorem State.noteReply_eq (s : State) (p : HomeRep) : ∃ x y, s.noteReply p = { s with paths := x, away := y } := by
  unfold State.noteReply
  split
  · exact ⟨s.paths, s.away, rfl⟩
  · split
    · split
      · exact ⟨_, s.away, rfl⟩
      · split
        · exact ⟨s.paths, s.away, rfl⟩
        · exact ⟨_, s.away, rfl⟩
    · split
      · exact ⟨s.paths, _, rfl⟩
      · exact ⟨s.paths, s.away, rfl⟩

@[simp] theorem State.slot_answerSlot (s : State) (g k id : Nat) (r : Reply) :
    (s.answerSlot g k id r).slot g k = (s.slot g k).answered id r := by
  simp [State.answerSlot, State.slot_setSlot]

/-- A decided reply to a slot leaves memory, and answers that slot. -/
theorem State.homeReply_slot (s : State) (core slot : Nat) (p : HomeRep) (hc : core < 1024) (hq : p.queued = false) :
    (s.homeReply core slot p).mem = s.mem ∧
      (s.homeReply core slot p).slot core slot = (s.slot core slot).answered p.id (.home p) := by
  obtain ⟨x, y, hnote⟩ := s.noteReply_eq p
  have hcore : ¬packetOwner 0 ≤ core := by unfold packetOwner; omega
  rw [State.homeReply, if_neg (by simp [hq]), if_neg hcore, hnote, State.slot_answerSlot]
  constructor
  · exact State.emit_mem ..
  · rw [State.thank, State.slot_emit]; rfl

theorem State.answer_remote (s : State) (r : HomeReq) (p : HomeRep) (hr : r.chip ≠ s.chip) :
    s.answer r p = s.emit (.homeReply r.chip r.core r.slot p) := by
  rw [State.answer, if_pos hr]

/-- A request that was decided is answered from the record. -/
theorem State.homeRequest_of_done (s : State) (r : HomeReq) (p : HomeRep) (hr : r.chip ≠ s.chip)
    (hd : s.homeDone.lookup (r.chip, r.id) = some p) :
    s.homeRequest r = s.emit (.homeReply r.chip r.core r.slot p) := by
  rw [State.homeRequest, hd]
  exact State.answer_remote s r p hr

/-- A new request that the home decides: the answer is kept and sent. -/
theorem State.homeRequest_of_decided (s t : State) (r : HomeReq) (p : HomeRep) (hr : r.chip ≠ t.chip)
    (hd : s.homeDone.lookup (r.chip, r.id) = none) (hw : s.waiting = []) (ho : s.homeOp r = (t, some p)) :
    s.homeRequest r =
      { t with homeDone := t.homeDone ++ [((r.chip, r.id), p)] }.emit (.homeReply r.chip r.core r.slot p) := by
  simp [State.homeRequest, hd, hw, ho, State.keepAnswer, State.answer, hr]

theorem State.homeRequest_of_held (s t : State) (r : HomeReq) (hd : s.homeDone.lookup (r.chip, r.id) = none)
    (hw : s.waiting = []) (ho : s.homeOp r = (t, none)) (hr : r.op ≠ .withdraw) : s.homeRequest r = t.heldNotice r := by
  simp [State.homeRequest, hd, hw, ho, hr]

theorem State.homeOp_life (s : State) (r : HomeReq) (h : Word) (hop : r.op = .life h) (hlock : s.lapsedLock = none)
    (hw : s.waiting = []) : s.homeOp r = (s, some (s.lifeHome r h)) := by
  unfold State.homeOp
  rw [State.settleHomes_of_quiet s hlock hw, hop]

/-- A signal below the value that is waited for holds the request. -/
theorem State.homeOp_sigw_held (s : State) (r : HomeReq) (h v x : Word) (ms : List (Nat × Nat)) (l : Lease)
    (hop : r.op = .sigw h v) (hlock : s.lapsedLock = none) (hw : s.waiting = []) (hs : s.syncRecord 3 h = some l)
    (hd : l.data = .svar x ms) (hx : x.toNat < v.toNat) : s.homeOp r = ({ s with waiting := [r] }, none) := by
  have hwait : s.waitAnswer r = none := by
    simp [State.waitAnswer, hop, hs, hd, hx]
  unfold State.homeOp
  rw [State.settleHomes_of_quiet s hlock hw, hop]
  simp [State.holdWait, hwait, hw]

end Sys2Proof.Machine
end

section
/-!
PROOF of the statement on leases and time.
-/
namespace Sys2Proof.Machine

theorem exec_leaseLapse (s : State) (unit idx : Nat) (hu : unit < 12) (hi : idx < 262144) :
    exec (.leaseLapse unit idx) s = .next (s.lapse unit idx) := by
  show execLeaseLapse unit idx s = _
  simp [execLeaseLapse, unitExists, hu, hi]

theorem exec_leaseLapse_noUnit (s : State) (unit idx : Nat) (h : ¬(unit < 12 ∧ idx < 262144)) :
    exec (.leaseLapse unit idx) s = .fault .noSuchUnit := by
  show execLeaseLapse unit idx s = _
  rw [execLeaseLapse, if_neg (by simpa [unitExists] using h)]

theorem exec_revocationApply (s : State) (unit ctx : Nat) (hu : unit < 12) :
    exec (.revocationApply unit ctx) s = .next (s.applyRevocation unit ctx) := by
  show execRevocationApply unit ctx s = _
  simp [execRevocationApply, unitExists, hu]

theorem exec_rangeScrubDone (s : State) (unit idx : Nat) (hu : unit < 12) (hi : idx < 262144) :
    exec (.rangeScrubDone unit idx) s = .next (s.scrubDone unit idx) := by
  show execRangeScrubDone unit idx s = _
  simp [execRangeScrubDone, unitExists, hu, hi]

theorem exec_homeReply (s : State) (core slot : Nat) (p : HomeRep) (hc : core < 1024) (hk : slot < 11) :
    exec (.homeReply core slot p) s = .next (s.homeReply core slot p) := by
  show execHomeReply core slot p s = _
  rw [execHomeReply, if_pos (.inl ⟨hc, hk⟩)]

/-- A path's record whose time is over is discarded, and every other path stays (17 R320). -/
theorem State.pathDiscard_paths (s : State) (h : Word) :
    (∀ x ∈ s.paths, x.h = h → hChip h ≠ s.chip → x.ed + 200 ≤ s.dt → { x with gone := true } ∈ (s.pathDiscard h).paths) ∧
      (∀ x ∈ s.paths, x.h ≠ h → x ∈ (s.pathDiscard h).paths) := by
  constructor
  · rintro x hx rfl hchip hed
    exact List.mem_map.mpr ⟨x, hx, by simp [hchip, hed]⟩
  · intro x hx hne
    exact List.mem_map.mpr ⟨x, hx, by simp [hne]⟩

/-- Settles O49: a lapse at a quiet home is one write of its record, a context's end makes no context live again, a scrub clears
every key of its frames, and homes answer from their records. -/
theorem leasesFollowTime : Obligations.LeasesFollowTime := by
  intro s
  refine ⟨?lapse, ?context, ?live, ?noUnit, ?revocation, ?scrub, ?reply, ?life, ?resend, ?held, ?beacon, ?path⟩
  case lapse =>
    intro unit idx hu hi hin hlive hl hlock hw hc
    refine ⟨_, exec_leaseLapse s unit idx (by omega) hi, ?_⟩
    rw [State.lapse_eq_setLease s unit idx hu hi hin hlive hl hlock hw hc, State.lease_setLease_same]
    exact ⟨rfl, rfl, rfl, .of_mem rfl⟩
  case context =>
    intro unit idx hu hi hin hlive hl hc
    exact ⟨_, exec_leaseLapse s unit idx hu hi, State.lapse_ends_context s unit idx hin hlive hl hc⟩
  case live =>
    intro unit idx hu hi hlive
    rw [exec_leaseLapse s unit idx hu hi, State.lapse_of_live s unit idx hlive]
  case noUnit => exact exec_leaseLapse_noUnit s
  case revocation =>
    intro unit ctx idx hu hi
    refine ⟨_, exec_revocationApply s unit ctx hu, .of_mem rfl, ?_, ?_⟩ <;> rw [State.lease_applyRevocation s unit ctx idx hi]
    · rintro rfl hin
      exact State.leaseLive_revoked (s.applyRevocation unit _) _ hin
    · exact Lease.revoked_other ctx s.dt _
  case scrub =>
    intro unit idx va size page str hu hi hd hin hlive hw
    obtain ⟨hdata, hmem⟩ := State.scrubDone_of_range s unit idx va size page str hd hin hlive hw
    refine ⟨_, exec_rangeScrubDone s unit idx hu hi, hdata, fun e he j hj => ?_⟩
    rw [hmem]
    exact scrubAll_page _ _ _ _ (State.mem_rangeFramesAt s unit idx _ e he) hj
  case reply =>
    intro core slot p k hc hk hlive hpark hwake hask hq
    obtain ⟨hmem, hslot⟩ := State.homeReply_slot s core slot p hc hq
    refine ⟨_, exec_homeReply s core slot p hc hk, .of_mem hmem, ?_⟩
    rw [hslot, Slot.answered_of_reply _ _ _ k hlive hpark hwake hask]
    exact ⟨rfl, rfl⟩
  case life =>
    intro r h hop hr hlock hw hd
    refine ⟨_, rfl, ?_⟩
    rw [State.homeRequest_of_decided s s r _ hr hd hw (State.homeOp_life s r h hop hlock hw)]
    exact ⟨.of_mem (State.emit_mem ..), sent_emit ..⟩
  case resend =>
    intro r p hr hd
    refine ⟨_, rfl, ?_⟩
    rw [State.homeRequest_of_done s r p hr hd]
    exact ⟨.of_mem (State.emit_mem ..), State.emit_leases .., sent_emit ..⟩
  case held =>
    intro r h v x ms l hop hr hlock hw hd hs hsvar hx
    refine ⟨_, rfl, ?_⟩
    rw [State.homeRequest_of_held s _ r hd hw (State.homeOp_sigw_held s r h v x ms l hop hlock hw hs hsvar hx) (by simp [hop]),
      State.heldNotice, if_neg (by simp [lockOf, hop])]
    exact ⟨State.emit_waiting .., sent_emit ..⟩
  case beacon =>
    intro adj
    exact ⟨_, rfl, Nat.min_le_right .., Nat.min_eq_left, rfl, .of_mem rfl⟩
  case path =>
    intro h
    exact ⟨_, rfl, .of_mem rfl, State.pathDiscard_paths s h⟩

end Sys2Proof.Machine
end

section
/-!
SUPPORT. Operations at the homes (06 R94, R106 to R110; 10 R208, R211): what each leaves of the record it names, and what it
answers.
-/
namespace Sys2Proof.Machine

/-! What is sent after a change of a record leaves the leases as they are. -/

@[simp] theorem State.finishPacket_leases (s : State) (k : Nat) (result : Word) (status detail : Nat) :
    (s.finishPacket k result status detail).leases = s.leases := by
  unfold State.finishPacket
  split <;> rfl

@[simp] theorem State.answer_leases (s : State) (r : HomeReq) (p : HomeRep) : (s.answer r p).leases = s.leases := by
  unfold State.answer
  split
  · exact State.emit_leases ..
  · split
    · exact State.finishPacket_leases ..
    · rfl

@[simp] theorem State.settleWaits_leases (s : State) (rs : List HomeReq) : (s.settleWaits rs).leases = s.leases := by
  induction rs generalizing s with
  | nil => rfl
  | cons r rs ih =>
    rw [State.settleWaits]
    split
    · rw [ih, State.answer_leases]
    · exact ih s

@[simp] theorem State.mirrorDue_leases (s : State) (unit idx : Nat) (v : Word) (i : Nat) (m : Nat × Nat) :
    (s.mirrorDue unit idx v i m).leases = s.leases := by
  unfold State.mirrorDue
  split
  · rfl
  · exact State.emit_leases ..

@[simp] theorem State.mirrorAll_leases (s : State) (unit idx : Nat) (v : Word) (i : Nat) (ms : List (Nat × Nat)) :
    (s.mirrorAll unit idx v i ms).leases = s.leases := by
  induction ms generalizing s i with
  | nil => rfl
  | cons m ms ih => rw [State.mirrorAll, ih, State.mirrorDue_leases]

@[simp] theorem State.sendLink_leases (s : State) (chip : Nat) (h : Word) (e : Nat) : (s.sendLink chip h e).leases = s.leases := by
  unfold State.sendLink
  split
  · rfl
  · exact State.emit_leases ..

/-! The record of a handle. -/

theorem State.record_of_leases {s t : State} (h : t.leases = s.leases) (x : Word) : t.record x = s.record x := by
  simp only [State.record, State.lease, h]

@[simp] theorem State.record_setRecord_same (s : State) (h : Word) (l : Lease) : (s.setRecord h l).record h = l :=
  State.lease_setLease_same ..

/-- The generation of a handle stands above its other fields (06 R93). -/
theorem hGen_mkHandle (gen cls die chip idx : Nat) (hg : gen < 2 ^ 16) (hc : cls < 16) (hd : die < 4) (hch : chip < 4096)
    (hi : idx < 2 ^ 30) : hGen (mkHandle gen cls die chip idx) = gen := by
  rw [hGen, mkHandle, BitVec.toNat_ofNat, Nat.mod_eq_of_lt (by omega)]
  omega

/-! renew (06 R106). -/

/-- What renew is refused for (06 R106, 17 R321). -/
def State.RenewRefused (s : State) (r : HomeReq) (h : Word) : Prop :=
  s.staleHere h = true ∨ s.leaseLive (s.record h) = false ∨ hClass h = 1 ∨ (s.record h).owner ≠ s.ownerKey r.chip r.ctx ∨
    s.pathRangeOk (s.record h) = false

theorem State.renewHome_refused (s : State) (r : HomeReq) (h d : Word) (hr : s.RenewRefused r h) :
    s.renewHome r h d = (s, refuse (repTo s r h) 0) := by
  unfold State.renewHome
  exact if_pos (by simpa [State.RenewRefused, or_assoc] using hr)

/-- The renewal of an anchored lease changes nothing and answers its context's end (06 R106). -/
theorem State.renewHome_anchored (s : State) (r : HomeReq) (h d : Word) (hr : ¬s.RenewRefused r h)
    (ha : (s.record h).anchored = true) :
    s.renewHome r h d = (s, { repTo s r h with a := h, e := s.leaseEnd (s.record h) }) := by
  unfold State.renewHome
  dsimp only
  rw [if_neg (by simpa [State.RenewRefused, or_assoc] using hr), if_pos ha]

/-- A renewal writes the new expiry to the record, and answers it: a lease is never shortened (06 R106). -/
theorem State.renewHome_extended (s : State) (r : HomeReq) (h d : Word) (hr : ¬s.RenewRefused r h)
    (ha : (s.record h).anchored = false) :
    let e := max (s.record h).e (s.dt + min d.toNat (maxLease (hClass h)))
    (s.renewHome r h d).2 = { repTo s r h with a := h, e := e } ∧
      (s.renewHome r h d).1.record h = { s.record h with e := e } := by
  unfold State.renewHome
  dsimp only
  rw [if_neg (by simpa [State.RenewRefused, or_assoc] using hr), if_neg (by simp [ha])]
  refine ⟨rfl, ?_⟩
  rw [State.record_of_leases (s := s.setRecord h _), State.record_setRecord_same]
  split
  · exact State.sendLink_leases ..
  · rfl

/-! life and hinfo (06 R107, R110). -/

theorem State.lifeHome_stale (s : State) (r : HomeReq) (h : Word) (hs : s.staleHere h = true) :
    s.lifeHome r h = repTo s r h := by
  rw [State.lifeHome, if_pos hs]

theorem State.lifeHome_current (s : State) (r : HomeReq) (h : Word) (hs : s.staleHere h = false) :
    s.lifeHome r h = { repTo s r h with e := s.leaseEnd (s.record h) } := by
  rw [State.lifeHome, if_neg (by simp [hs])]

theorem State.hinfoHome_stale (s : State) (r : HomeReq) (h : Word) (hs : s.staleHere h = true) :
    s.hinfoHome r h = { repTo s r h with a := hinfoStale } := by
  rw [State.hinfoHome, if_pos hs]

theorem State.hinfoHome_current (s : State) (r : HomeReq) (h : Word) (hs : s.staleHere h = false) :
    s.hinfoHome r h =
      { repTo s r h with
        a := BitVec.ofNat 64 ((if s.leaseLive (s.record h) then (if (s.record h).anchored then 3 else 0) else 1) * 2 ^ 22 +
          (s.record h).cls * 2 ^ 16 + (s.record h).owner % 1024)
        e := s.leaseEnd (s.record h) } := by
  rw [State.hinfoHome, if_neg (by simp [hs])]

/-! anchor (06 R109). -/

theorem State.anchorHome_lapsed (s : State) (r : HomeReq) (h : Word)
    (hl : s.staleHere h = true ∨ s.leaseLive (s.record h) = false) : s.anchorHome r h = (s, lapsed (repTo s r h)) := by
  unfold State.anchorHome
  exact if_pos (by simpa using hl)

/-- A range or a sync variable of the asking context may be anchored (06 R109). -/
def State.MayAnchor (s : State) (r : HomeReq) (h : Word) : Prop :=
  ((s.record h).cls = 2 ∨ (s.record h).cls = 3) ∧ (s.record h).owner = s.ownerKey r.chip r.ctx

theorem State.not_mayAnchor_iff (s : State) (r : HomeReq) (h : Word) :
    ¬s.MayAnchor r h ↔
      ((s.record h).cls ≠ 2 ∧ (s.record h).cls ≠ 3) ∨ (s.record h).owner ≠ s.ownerKey r.chip r.ctx := by
  rw [State.MayAnchor, Classical.not_and_iff_not_or_not, not_or]

theorem State.anchorHome_refused (s : State) (r : HomeReq) (h : Word) (hs : s.staleHere h = false)
    (hl : s.leaseLive (s.record h) = true) (hm : ¬s.MayAnchor r h) : s.anchorHome r h = (s, refuse (repTo s r h) 0) := by
  unfold State.anchorHome
  dsimp only
  rw [if_neg (by simp [hs, hl]), if_pos]
  simp only [Bool.or_eq_true, Bool.and_eq_true, bne_iff_ne]
  exact (s.not_mayAnchor_iff r h).mp hm

/-- An anchored record is left as it is, any other becomes anchored: the end is its context's either way (06 R109). -/
theorem State.anchorHome_anchors (s : State) (r : HomeReq) (h : Word) (hs : s.staleHere h = false)
    (hl : s.leaseLive (s.record h) = true) (hm : s.MayAnchor r h) :
    (s.anchorHome r h).2 = { repTo s r h with e := s.leaseEnd { s.record h with anchored := true } } ∧
      (s.anchorHome r h).1.record h = { s.record h with anchored := true } := by
  unfold State.anchorHome
  dsimp only
  rw [if_neg (by simp [hs, hl]), if_neg]
  · split
    · next ha =>
      have hsame : { s.record h with anchored := true } = s.record h := by rw [← ha]
      rw [hsame]
      exact ⟨rfl, rfl⟩
    · exact ⟨rfl, State.record_setRecord_same ..⟩
  · obtain ⟨hcls, howner⟩ := hm
    rcases hcls with hc | hc <;> simp [hc, howner]

/-! sig and barr (10 R208, R211). -/

theorem State.sigAdd_refused (s : State) (h v : Word) (hs : s.syncRecord 3 h = none) : s.sigAdd h v = none := by
  rw [State.sigAdd, hs]

/-- An addition leaves the sum in the record; the mirrors and the waits that follow leave the record (10 R208). -/
theorem State.sigAdd_svar (s : State) (h v x : Word) (l : Lease) (ms : List (Nat × Nat)) (hs : s.syncRecord 3 h = some l)
    (hd : l.data = .svar x ms) :
    ∃ t, s.sigAdd h v = some (t, x + v) ∧ t.record h = { l with data := .svar (x + v) ms } := by
  simp only [State.sigAdd, hs, hd]
  refine ⟨_, rfl, ?_⟩
  rw [State.record_of_leases (s := s.setRecord h { l with data := .svar (x + v) ms }) (by simp), State.record_setRecord_same]

/-- An arrival is answered with the phase it belongs to; the one that fills the barrier starts the next phase (10 R211). -/
theorem State.barrHome_barrier (s : State) (r : HomeReq) (h : Word) (n k : Nat) (ph : Word) (l : Lease)
    (hs : s.syncRecord 5 h = some l) (hd : l.data = .barrier n k ph) :
    (s.barrHome r h).2 = { repTo s r h with a := ph } ∧
      (s.barrHome r h).1.record h =
        { l with data := if k + 1 = n then .barrier n 0 (ph + 1) else .barrier n (k + 1) ph } := by
  simp only [State.barrHome, hs, hd, true_and]
  rw [State.record_of_leases (State.settleWaits_leases ..), State.record_setRecord_same]
  split <;> rfl

end Sys2Proof.Machine
end

section
/-!
PROOF of the statement on the homes.
-/
namespace Sys2Proof.Machine

/-- Settles O34: each operation at a home is an equation for its branch, the record written there is the one it leaves, and what
it sends afterwards changes no lease. -/
theorem homesFollowTheirRules : Obligations.HomesFollowTheirRules := by
  intro s r h
  refine ⟨?create, ?renew, ?stale, ?current, ?anchor, ?signal, fun v => s.sigAdd_refused h v, ?arrive⟩
  case create =>
    intro cls die idx owner e data hcls hdie hchip hidx hgen
    have hhandle := hGen_mkHandle ((s.lease (unitOf cls die) idx).gen + 1) cls die s.chip idx (by omega) (by omega) hdie
      (by omega) (by omega)
    simp only [State.create, State.lease_setLease_same]
    exact ⟨trivial, trivial, trivial, trivial, hhandle, fun k hk => tget_tput_other _ _ _ hk⟩
  case renew =>
    refine fun d => ⟨fun hr => ?_, fun hs hl hc ho hp => ?_⟩
    · rw [s.renewHome_refused r h d hr]
      exact ⟨rfl, rfl⟩
    · have hr : ¬s.RenewRefused r h := by simp [State.RenewRefused, hs, hl, hc, ho, hp]
      cases ha : (s.record h).anchored with
      | true =>
        rw [s.renewHome_anchored r h d hr ha]
        exact ⟨rfl, rfl, rfl, fun _ => ⟨rfl, rfl⟩, nofun⟩
      | false =>
        obtain ⟨hrep, hrec⟩ := s.renewHome_extended r h d hr ha
        rw [hrec, hrep]
        exact ⟨rfl, rfl, rfl, nofun, fun _ => ⟨rfl, rfl⟩⟩
  case stale =>
    intro hs
    rw [s.lifeHome_stale r h hs, s.hinfoHome_stale r h hs]
    exact ⟨rfl, rfl, rfl⟩
  case current =>
    intro hs
    rw [s.lifeHome_current r h hs, s.hinfoHome_current r h hs]
    exact ⟨rfl, rfl, rfl⟩
  case anchor =>
    refine ⟨fun hl => ?_, fun hs hl hm => ?_, fun hs hl hm => ?_⟩
    · rw [s.anchorHome_lapsed r h hl]
      exact ⟨rfl, rfl⟩
    · obtain ⟨hrep, hrec⟩ := s.anchorHome_anchors r h hs hl hm
      rw [hrec, hrep]
      exact ⟨rfl, rfl, rfl, rfl⟩
    · rw [s.anchorHome_refused r h hs hl ((s.not_mayAnchor_iff r h).mpr hm)]
      exact ⟨rfl, rfl, rfl⟩
  case signal => exact fun v x l ms hs hd => s.sigAdd_svar h v x l ms hs hd
  case arrive =>
    intro n k ph l hs hd
    obtain ⟨hrep, hrec⟩ := s.barrHome_barrier r h n k ph l hs hd
    rw [hrec, hrep]
    exact ⟨rfl, rfl, fun hk => by rw [if_neg hk], fun hk => by rw [if_pos hk]⟩

end Sys2Proof.Machine
end

section
/-!
SUPPORT. Which slot runs, the cores, the time and the chip's number: no access of an instruction changes them.
-/
namespace Sys2Proof.Machine

/-- The same slot runs on the same cores of the same chip at the same time. -/
structure SameRun (s t : State) : Prop where
  curCore : t.curCore = s.curCore
  curSlot : t.curSlot = s.curSlot
  cores   : t.cores = s.cores
  dt      : t.dt = s.dt
  chip    : t.chip = s.chip

theorem SameRun.refl (s : State) : SameRun s s := ⟨rfl, rfl, rfl, rfl, rfl⟩

theorem SameRun.trans {s t u : State} (h : SameRun s t) (k : SameRun t u) : SameRun s u :=
  ⟨k.curCore.trans h.curCore, k.curSlot.trans h.curSlot, k.cores.trans h.cores, k.dt.trans h.dt, k.chip.trans h.chip⟩

theorem SameRun.foldl {α : Type} (f : State → α → State) (hf : ∀ s x, SameRun s (f s x)) (xs : List α) (s : State) :
    SameRun s (xs.foldl f s) := by
  induction xs generalizing s with
  | nil => exact .refl s
  | cons x xs ih => exact (hf s x).trans (ih _)

theorem SameRun.note (s : State) (r : Reply) : SameRun s (s.note r) := ⟨rfl, rfl, rfl, rfl, rfl⟩

theorem SameRun.fillCache (s : State) (d c va : Nat) (b : Block) : SameRun s (s.fillCache d c va b) := ⟨rfl, rfl, rfl, rfl, rfl⟩

theorem SameRun.acquire (s : State) : SameRun s s.acquire := ⟨rfl, rfl, rfl, rfl, rfl⟩

theorem SameRun.charge (s : State) (e : PageEntry) : SameRun s (s.charge e) := by
  unfold State.charge
  dsimp only
  repeat' split
  all_goals exact ⟨rfl, rfl, rfl, rfl, rfl⟩

theorem SameRun.foundFlaw (c : Nat) (s : State) (f : Nat × Bool) : SameRun s (s.foundFlaw c f) := by
  unfold State.foundFlaw State.memoryError State.memoryErrorOf
  dsimp only
  split <;> exact ⟨rfl, rfl, rfl, rfl, rfl⟩

theorem SameRun.sense (s : State) (c k n : Nat) : SameRun s (s.sense c k n) := by
  have h : SameRun s { s with flaws := s.flaws.filter fun f => !(f.2 && onFlaw k n f) } := ⟨rfl, rfl, rfl, rfl, rfl⟩
  exact h.trans (.foldl _ (SameRun.foundFlaw c) ..)

theorem SameRun.countFlaw (s : State) (f : Nat × Bool) : SameRun s (s.countFlaw f) := by
  unfold State.countFlaw
  dsimp only
  split <;> exact ⟨rfl, rfl, rfl, rfl, rfl⟩

theorem SameRun.mend (s : State) (c k n : Nat) (whole : Bool) : SameRun s (s.mend c k n whole) := by
  have h : SameRun s { s with flaws := s.flaws.filter fun f => !(f.2 && coversFlaw k n whole f) } := ⟨rfl, rfl, rfl, rfl, rfl⟩
  refine ((h.trans (.sense _ c k n)).trans ?_).trans (.foldl _ SameRun.countFlaw ..)
  exact ⟨rfl, rfl, rfl, rfl, rfl⟩

theorem SameRun.emit (s : State) (m : OutMsg) : SameRun s (s.emit m) := by
  obtain ⟨_, _, _, _, _, h⟩ := s.emit_eq m
  rw [h]
  exact ⟨rfl, rfl, rfl, rfl, rfl⟩

theorem SameRun.request (s : State) (g k ctx chip pa : Nat) (op : RemoteOp) : SameRun s (s.request g k ctx chip pa op) :=
  (SameRun.emit s _).trans ⟨rfl, rfl, rfl, rfl, rfl⟩

theorem SameRun.writeRoute (s : State) (g k ctx : Nat) (r : Route) (bs : List Byte) : SameRun s (s.writeRoute g k ctx r bs) := by
  cases r with
  | here pa => exact SameRun.trans (t := s.writeBytes pa bs) ⟨rfl, rfl, rfl, rfl, rfl⟩ (.mend ..)
  | chip c pa => exact .request ..
  | host l a => exact ⟨rfl, rfl, rfl, rfl, rfl⟩

theorem SameRun.patchCache (s : State) (d c va : Nat) (bs : List Byte) : SameRun s (s.patchCache d c va bs) := by
  unfold State.patchCache
  dsimp only
  split <;> exact ⟨rfl, rfl, rfl, rfl, rfl⟩

/-! The steps of a load (04 R51). -/

theorem access_sameRun {s t : State} {p : Option (Reason × Resource)} {now : State → State × Reply} {r : Reply}
    (h : s.access p now = .ok (t, r)) (k : SameRun s (now s).1) : SameRun s t := by
  unfold State.access at h
  split at h
  · cases h
  · cases h
    exact .note ..
  · dsimp only at h
    split at h
    · cases h
    · split at h
      · cases h
      · cases h
        exact k.trans (.note ..)

theorem locate_sameRun {s t : State} {a : Word} {size align : Nat} {k : AccKind} {al : Nat → Bool} {o n : Bool} {l : Loc}
    (h : s.locate a size align k al o n = .ok (t, l)) : SameRun s t := by
  unfold State.locate State.touched at h
  repeat' split at h
  all_goals cases h
  all_goals exact .note ..

theorem lineRead_sameRun {s : State} {die va : Nat} {e : PageEntry} {fresh : State → State × Block}
    (k : SameRun s (fresh s).1) : SameRun s (s.lineRead die e va fresh).1 := by
  unfold State.lineRead
  split
  · exact .refl s
  · dsimp only
    split
    · exact k.trans (.fillCache ..)
    · exact k

theorem readRoute_sameRun {s t : State} {r : Route} {e : PageEntry} {va : Nat} {b : Block}
    (h : s.readRoute r e va = .ok (t, b)) : SameRun s t := by
  cases r with
  | here pa =>
    obtain ⟨x, hx, hb⟩ := map_ok h
    cases hb
    exact access_sameRun hx (lineRead_sameRun ((SameRun.charge s e).trans (.sense ..)))
  | host l a =>
    obtain ⟨x, hx, hb⟩ := map_ok h
    cases hb
    exact access_sameRun hx (lineRead_sameRun (.charge s e))
  | chip c pa =>
    unfold State.readRoute at h
    dsimp only at h
    split at h
    · obtain ⟨x, hx, hb⟩ := map_ok h
      cases hb
      exact access_sameRun hx (.refl s)
    · split at h
      · cases h
      · split at h
        · obtain ⟨x, hx, hb⟩ := map_ok h
          cases hb
          exact access_sameRun hx (.refl s)
        · cases h

theorem loadLoc_sameRun {s t : State} {a : Word} {size v : Nat} {l : Loc} (h : s.loadLoc a size l = .ok (t, v)) :
    SameRun s t := by
  cases l with
  | sys n =>
    unfold State.loadLoc at h
    dsimp only at h
    split at h
    · cases h
      exact .note ..
    · obtain ⟨w, -, hw⟩ := map_ok h
      cases hw
      exact .note ..
  | buf win b g off =>
    obtain ⟨x, hx, hb⟩ := map_ok h
    cases hb
    exact access_sameRun hx (.sense ..)
  | glob r e va =>
    obtain ⟨⟨u, b⟩, hr, hb⟩ := bind_ok h
    dsimp only at hb
    split at hb
    · cases hb
    · cases hb
      exact readRoute_sameRun hr

theorem load_sameRun {s t : State} {a : Word} {size v : Nat} (h : s.load a size = .ok (t, v)) : SameRun s t := by
  obtain ⟨⟨u, l⟩, hl, hv⟩ := bind_ok h
  exact (locate_sameRun hl).trans (loadLoc_sameRun hv)

/-- The words of an operand are loads, one after another (06 R102): what every load leaves, they leave. -/
theorem words_leave {R : State → State → Prop} (refl : ∀ s, R s s) (trans : ∀ {s t u}, R s t → R t u → R s u)
    (load : ∀ {s t a v}, s.load a 8 = .ok (t, v) → R s t) {n : Nat} {s u : State} {a : Word} {ws : List Word}
    (h : s.words a n = .ok (u, ws)) : R s u := by
  induction n generalizing s a ws with
  | zero =>
    cases h
    exact refl _
  | succ n ih =>
    obtain ⟨⟨t, v⟩, hl, h⟩ := bind_ok h
    obtain ⟨⟨w, l⟩, hw, h⟩ := bind_ok h
    cases h
    exact trans (load hl) (ih hw)

theorem words_looked {n : Nat} {s u : State} {a : Word} {ws : List Word} (h : s.words a n = .ok (u, ws)) : Looked s u :=
  words_leave Looked.refl Looked.trans load_looked h

theorem words_sameRun {n : Nat} {s u : State} {a : Word} {ws : List Word} (h : s.words a n = .ok (u, ws)) : SameRun s u :=
  words_leave SameRun.refl SameRun.trans load_sameRun h

/-! Trace records (21 R356, R357). -/

/-- A trace record is an access, and a register of the trace unit of its core. -/
theorem State.trace_eq (s : State) (g k bit kind : Nat) (pc v1 v2 : Word) (f : Bool) :
    s.trace g k bit kind pc v1 v2 f = s ∨
      ∃ t w d, SameRun s t ∧ s.trace g k bit kind pc v1 v2 f = t.setCore g { s.core g with twr := w, tdrop := d } := by
  have hdrop : ∃ t w d, SameRun s t ∧ s.setCore g { s.core g with tdrop := (s.core g).tdrop + 1 } =
      t.setCore g { s.core g with twr := w, tdrop := d } := ⟨s, _, _, .refl s, rfl⟩
  unfold State.trace
  dsimp only
  split
  · exact .inl rfl
  · right
    split
    · exact hdrop
    · split
      · exact hdrop
      · split
        · exact ⟨_, _, _, ((SameRun.charge ..).trans (.writeRoute ..)).trans (.patchCache ..), rfl⟩
        · exact hdrop

theorem State.trace_untraced (s : State) (g k bit kind : Nat) (pc v1 v2 : Word) (f : Bool)
    (h : (s.core g).tctl.getLsbD bit = false) : s.trace g k bit kind pc v1 v2 f = s := by
  simp [State.trace, h]

/-- The record of a lease instruction leaves the slot that runs, and the time of its core. -/
theorem State.leaseTrace_cur (s : State) (pc h : Word) :
    (s.leaseTrace pc h).cur = s.cur ∧ (s.leaseTrace pc h).curCoreOf.cycle = s.curCoreOf.cycle := by
  unfold State.leaseTrace
  obtain he | ⟨t, w, d, hrun, he⟩ := s.trace_eq s.curCore s.curSlot 2 3 pc h s.acc (flagF s.flags)
  · rw [he]
    exact ⟨rfl, rfl⟩
  · rw [he, ← hrun.curCore]
    simp [State.cur, State.slot, State.curCoreOf, hrun.curSlot, hrun.curCore]

end Sys2Proof.Machine
end

section
/-!
SUPPORT. An instruction that waits: its slot parks, and nothing else is to be seen (03 R31, R32).
-/
namespace Sys2Proof.Machine
open Sys2Proof.Claims

/-! Of the slot, keepE writes E alone. -/

@[simp] theorem Slot.keepE_acc (x y : Slot) : (x.keepE y).acc = y.acc := by unfold Slot.keepE; split <;> simp
@[simp] theorem Slot.keepE_ptr (x y : Slot) (n : Nat) : (x.keepE y).ptr n = y.ptr n := by unfold Slot.keepE; split <;> simp
@[simp] theorem Slot.keepE_lc (x y : Slot) : (x.keepE y).lc = y.lc := by unfold Slot.keepE; split <;> simp
@[simp] theorem Slot.keepE_vf (x y : Slot) : (x.keepE y).vf = y.vf := by unfold Slot.keepE; split <;> simp
@[simp] theorem Slot.keepE_priv (x y : Slot) : (x.keepE y).priv = y.priv := by unfold Slot.keepE; split <;> simp
@[simp] theorem Slot.keepE_live (x y : Slot) : (x.keepE y).live = y.live := by unfold Slot.keepE; split <;> simp
@[simp] theorem Slot.keepE_pc (x y : Slot) : (x.keepE y).pc = y.pc := by unfold Slot.keepE; split <;> simp
@[simp] theorem Slot.keepE_replies (x y : Slot) : (x.keepE y).replies = y.replies := by unfold Slot.keepE; split <;> simp

/-- Where the flags have not changed, E stands already if it is to be kept. -/
theorem Slot.keepE_flags (x y : Slot) (h : y.flags = x.flags) : (x.keepE y).flags = y.flags := by
  have hor : ∀ f : BitVec 7, f.getLsbD 5 = true → f ||| 32 = f := by decide
  unfold Slot.keepE
  split
  · next he =>
    obtain ⟨-, he⟩ := Bool.and_eq_true_iff.mp he
    rw [Slot.flags_setFlags, h, hor _ he]
  · rfl

theorem Kept.setQueues (s : State) (g : Nat) (q : Table (List Word)) : Kept s (s.setCore g { s.core g with queues := q }) where
  curCore := rfl
  curSlot := rfl
  slots h j _ := by
    simp only [State.slot, State.core_setCore]
    split
    · next e => subst e; rfl
    · rfl
  cores h := by
    rw [State.core_setCore]
    split
    · next e => subst e; rfl
    · rfl
  clusters _ := rfl
  leases := rfl
  entries := rfl
  gangs := rfl

theorem Kept.setRings (s : State) (n : Nat) (q : Table (List Word)) :
    Kept s (s.setCluster n { s.cluster n with rings := q }) where
  curCore := rfl
  curSlot := rfl
  slots _ _ _ := rfl
  cores _ := rfl
  clusters m := by
    rw [State.cluster_setCluster]
    split
    · next e => subst e; rfl
    · rfl
  leases := rfl
  entries := rfl
  gangs := rfl

/-- A rewind gives the queues of the core and the rings of its cluster back what they held, and writes the slot. -/
theorem Kept.rewind {s t : State} (h : Kept s t) : Kept s (s.rewind t) :=
  (((h.trans (.setQueues t s.curCore _)).trans (.setRings _ (clusterOf s.curCore) _)).trans (.setCur _ _)).trans
    (Looked.clear _).kept

/-- The slot as a rewind leaves it but for E: its registers before the instruction, and the log of what it has reached. -/
def State.rewound (s t : State) : Slot :=
  { s.cur with
    replies := t.trail ++ s.cur.replies.drop t.trail.length, ports := t.claims, banks := t.cur.banks
    mark := some (s.cur.mark.getD s.nextId), cbar := t.cur.cbar, lane := t.cur.lane, tok := t.cur.tok, asked := t.cur.asked }

theorem State.cur_rewind (s t : State) : (s.rewind t).cur = t.cur.keepE (s.rewound t) := by
  show (State.setCur _ _).cur = _
  exact State.cur_setCur ..

theorem State.cur_parkCur (s : State) (r : Reason) (res : Resource) (wake : Wake) :
    ∃ p i, (s.parkCur r res wake).cur = { s.cur with park := some p, issued := i } ∧ p.reason = r ∧ p.woken = false :=
  ⟨_, _, State.cur_setCur .., rfl, rfl⟩

/-- An instruction that has only looked, and then waits, leaves its park and its log. -/
theorem waiting_of_looked {s t : State} (h : Looked s t) (r : Reason) (res : Resource) (wake : Wake) :
    Waiting s ((s.rewind t).parkCur r res wake) r ∧
      ((s.rewind t).parkCur r res wake).cur.replies = t.trail ++ s.cur.replies.drop t.trail.length := by
  have hflags : (t.cur.keepE (s.rewound t)).flags = s.cur.flags := Slot.keepE_flags _ _ (by rw [h.cur]; rfl)
  have hkept : Kept s ((s.rewind t).parkCur r res wake) := h.kept.rewind.trans (.setCur _ _)
  have hbytes : SameBytes s ((s.rewind t).parkCur r res wake) := h.bytes
  obtain ⟨p, i, hcur, hr, hw⟩ := (s.rewind t).cur_parkCur r res wake
  rw [State.cur_rewind] at hcur
  have hrest : RestOfSlot s s ((s.rewind t).parkCur r res wake) := by
    unfold RestOfSlot State.acc State.flags State.ptr
    rw [hcur]
    exact ⟨Slot.keepE_acc .., hflags, Slot.keepE_ptr _ _, Slot.keepE_lc .., Slot.keepE_vf .., Slot.keepE_priv ..⟩
  refine ⟨⟨hkept, hbytes, hrest, ?_, ?_, p, ?_, hr, hw⟩, ?_⟩ <;> rw [hcur]
  · exact Slot.keepE_live ..
  · exact Slot.keepE_pc ..
  · exact Slot.keepE_replies ..

/-- An instruction that notes an answer, and waits for it, finds it in its log when it runs again. -/
theorem retire_wait_noted (s : State) (x : Reply) (r : Reason) (res : Resource) (wake : Wake) :
    ∃ u, retire s 4 4 (.error (.wait (s.note x) r res wake)) = .next u ∧ Waiting s u r ∧
      u.cur.replies[s.trail.length]? = some x := by
  obtain ⟨hwait, hlog⟩ := waiting_of_looked (Looked.note s x) r res wake
  refine ⟨_, rfl, hwait, ?_⟩
  rw [State.stopped, hlog]
  simp [State.note]

end Sys2Proof.Machine
end

section
/-!
SUPPORT. An instruction that a home has answered: how far it has come when it goes on with the reply, and how it completes (06 R102,
R103).
-/
namespace Sys2Proof.Machine
open Sys2Proof.Claims

/-! F alone among the flags. -/

theorem setBit_getLsbD_same (f : BitVec 7) (i : Nat) (v : Bool) (hi : i < 7) : (setBit f i v).getLsbD i = v := by
  cases v <;> simp [setBit, hi]

theorem setBit_getLsbD_other (f : BitVec 7) (i j : Nat) (v : Bool) (hj : j < 7) (hij : j ≠ i) :
    (setBit f i v).getLsbD j = f.getLsbD j := by
  cases v <;> simp [setBit, hj] <;> omega

theorem onlyF_of_flags {s u : State} {v : Bool} (h : u.flags = setBit s.flags 4 v) : flagF u.flags = v ∧ OnlyF s u := by
  rw [flagF, OnlyF, h]
  exact ⟨setBit_getLsbD_same _ 4 v (by decide), fun j hj hne => setBit_getLsbD_other _ 4 j v hj hne⟩

/-! What an instruction has left outside its slot. -/

/-- Nothing but the slot, its core's queues and its cluster's rings has changed, and errors of memory have at most been found. -/
structure Outside (s w : State) : Prop where
  kept  : Kept s w
  bytes : SameBytes s w
  flaws : ∀ e ∈ w.flaws, e ∈ s.flaws

theorem Outside.refl (s : State) : Outside s s := ⟨.refl s, .refl s, fun _ h => h⟩

theorem Outside.trans {s v w : State} (h : Outside s v) (k : Outside v w) : Outside s w :=
  ⟨h.kept.trans k.kept, h.bytes.trans h.flaws k.bytes, fun e he => h.flaws e (k.flaws e he)⟩

theorem Looked.outside {s w : State} (h : Looked s w) : Outside s w := ⟨h.kept, h.bytes, h.flaws⟩

theorem Outside.setCur (s : State) (x : Slot) : Outside s (s.setCur x) := ⟨.setCur s x, .of_mem rfl, fun _ h => h⟩

theorem Outside.operand (s : State) (sp : Spec) (i : Int) (size : Nat) : Outside s (s.operand sp i size).1 :=
  ⟨.operand .., .of_mem (State.operand_mem ..), fun e h => by rwa [State.operand_flaws] at h⟩

theorem Outside.complete (s : State) (len delay : Nat) : Outside s (s.complete len delay) :=
  ⟨.complete .., .of_mem (State.complete_mem ..), fun e h => by unfold State.complete at h; split at h <;> exact h⟩

theorem Looked.acquire (s : State) : Looked s s.acquire := .of_fields rfl rfl rfl rfl rfl rfl rfl rfl rfl

/-! The instruction on its way. -/

/-- The instruction of s has come to w and not completed: its operand has left the pointers as at t, a is x and the flags are f. -/
structure Midway (s t w : State) (x : Word) (f : BitVec 7) : Prop where
  outside : Outside s w
  live    : w.cur.live = true
  pc      : w.cur.pc = s.cur.pc
  park    : w.cur.park = s.cur.park
  issued  : w.cur.issued = s.cur.issued
  ptr     : ∀ n, w.ptr n = t.ptr n
  acc     : w.acc = x
  flags   : w.flags = f
  dt      : w.dt = s.dt
  chip    : w.chip = s.chip

theorem Midway.start (s : State) (h : s.cur.live = true) : Midway s s s s.acc s.flags :=
  ⟨.refl s, h, rfl, rfl, rfl, fun _ => rfl, rfl, rfl, rfl, rfl⟩

theorem Midway.operand (s : State) (sp : Spec) (i : Int) (size : Nat) (h : s.cur.live = true) :
    Midway s (s.operand sp i size).1 (s.operand sp i size).1 s.acc s.flags where
  outside := .operand ..
  live := (operand_cur_live ..).trans h
  pc := operand_cur_pc ..
  park := by obtain ⟨n, v, hcur | hcur⟩ := operand_cur s sp i size <;> simp [hcur]
  issued := by obtain ⟨n, v, hcur | hcur⟩ := operand_cur s sp i size <;> simp [hcur]
  ptr _ := rfl
  acc := operand_cur_acc ..
  flags := operand_cur_flags ..
  dt := by cases sp <;> rfl
  chip := by cases sp <;> rfl

theorem Midway.address {s t : State} {sp : Spec} {i : Int} {size : Nat} {a : Word} (hlive : s.cur.live = true)
    (h : s.address sp i size = .ok (t, a)) : Midway s t t s.acc s.flags := by
  unfold State.address at h
  split at h
  · next w hop =>
    cases h
    have ht : t = (s.operand sp i size).1 := by rw [hop]
    rw [ht]
    exact .operand s sp i size hlive
  · cases h

variable {s t w : State} {x : Word} {f : BitVec 7}

/-- Reads of memory, and notes of them, leave an instruction where it is. -/
theorem Midway.looked {v : State} (h : Midway s t w x f) (hl : Looked w v) (hr : SameRun w v) : Midway s t v x f where
  outside := h.outside.trans hl.outside
  live := by rw [hl.cur]; exact h.live
  pc := by rw [hl.cur]; exact h.pc
  park := by rw [hl.cur]; exact h.park
  issued := by rw [hl.cur]; exact h.issued
  ptr n := by rw [State.ptr, hl.cur]; exact h.ptr n
  acc := by rw [State.acc, hl.cur]; exact h.acc
  flags := by rw [State.flags, hl.cur]; exact h.flags
  dt := hr.dt.trans h.dt
  chip := hr.chip.trans h.chip

theorem Midway.note (h : Midway s t w x f) (r : Reply) : Midway s t (w.note r) x f := h.looked (.note w r) (.note w r)

theorem Midway.acquire (h : Midway s t w x f) : Midway s t w.acquire x f := h.looked (.acquire w) (.acquire w)

theorem Midway.setAcc (h : Midway s t w x f) (y : Word) : Midway s t (w.setAcc y) y f where
  outside := h.outside.trans (.setCur ..)
  live := by simpa using h.live
  pc := by simpa using h.pc
  park := by simpa using h.park
  issued := by simpa using h.issued
  ptr n := by simpa using h.ptr n
  acc := State.acc_setAcc ..
  flags := (State.flags_setAcc ..).trans h.flags
  dt := h.dt
  chip := h.chip

theorem Midway.setF (h : Midway s t w x f) (v : Bool) : Midway s t (w.setF v) x (setBit f 4 v) where
  outside := h.outside.trans (.setCur ..)
  live := by simpa [State.setF] using h.live
  pc := by simpa [State.setF] using h.pc
  park := by simpa [State.setF] using h.park
  issued := by simpa [State.setF] using h.issued
  ptr n := by simpa [State.setF] using h.ptr n
  acc := (State.acc_setFlags ..).trans h.acc
  flags := by rw [State.setF, State.flags_setFlags, h.flags]
  dt := h.dt
  chip := h.chip

/-- The life that a reply reports is reckoned from the time and the chip of the instruction (06 R107). -/
theorem Midway.lifeOf (h : Midway s t w x f) (p : HomeRep) : w.lifeOf p = lifeLeft s p := by
  rw [State.lifeOf, lifeLeft, h.dt, h.chip]

theorem Midway.setLife (h : Midway s t w x f) (p : HomeRep) : w.setLife p = w.setAcc (lifeLeft s p) := by
  rw [State.setLife, h.lifeOf]

theorem Midway.setAcc_or_setLife (h : Midway s t w x f) (p : HomeRep) (y : Word) :
    (if p.f then w.setAcc y else w.setLife p) = w.setAcc (if p.f then y else lifeLeft s p) := by
  rw [h.setLife]
  split <;> rfl

/-! Completion. -/

/-- What a completed instruction has written: a, the flags, its pointers as at t, and pc. -/
def EndsAs (s t u : State) (x : Word) (f : BitVec 7) : Prop :=
  u.acc = x ∧ u.flags = f ∧ (∀ n, u.ptr n = t.ptr n) ∧ Passed s u 4

/-- The same where F alone is written of the flags. -/
def EndsWithF (s t u : State) (x : Word) (b : Bool) : Prop :=
  u.acc = x ∧ flagF u.flags = b ∧ OnlyF s u ∧ (∀ n, u.ptr n = t.ptr n) ∧ Passed s u 4

theorem EndsAs.withF {u : State} {b : Bool} (h : EndsAs s t u x (setBit s.flags 4 b)) : EndsWithF s t u x b := by
  obtain ⟨hacc, hflags, hrest⟩ := h
  exact ⟨hacc, (onlyF_of_flags hflags).1, (onlyF_of_flags hflags).2, hrest⟩

/-- An instruction completes in any state that has its slot and its core's time. -/
theorem Midway.endsAs {v : State} (h : Midway s t w x f) (hcur : v.cur = w.cur)
    (hcycle : v.curCoreOf.cycle = w.curCoreOf.cycle) : EndsAs s t (v.complete 4 4) x f := by
  have hdone := complete_cur v 4 4 (by rw [hcur]; exact h.live)
  have hcycle := hcycle.trans h.outside.kept.cycle
  unfold EndsAs State.acc State.flags State.ptr Passed readyAfter
  rw [hdone, hcur, hcycle]
  refine ⟨h.acc, h.flags, h.ptr, ?_, ?_, rfl⟩
  · simp [Slot.done, h.pc]
  · simp [Slot.done, Slot.from, h.park, h.issued]

theorem Midway.retires (h : Midway s t w x f) :
    ∃ u, retire s 4 4 (.ok w) = .next u ∧ Kept s u ∧ SameBytes s u ∧ EndsAs s t u x f :=
  have ho := h.outside.trans (.complete w 4 4)
  ⟨_, rfl, ho.kept, ho.bytes, h.endsAs rfl rfl⟩

theorem Midway.retires_withF {b : Bool} (h : Midway s t w x (setBit s.flags 4 b)) :
    ∃ u, retire s 4 4 (.ok w) = .next u ∧ Kept s u ∧ SameBytes s u ∧ EndsWithF s t u x b := by
  obtain ⟨u, hu, hkept, hbytes, hends⟩ := h.retires
  exact ⟨u, hu, hkept, hbytes, hends.withF⟩

/-- A lease instruction completes with a trace record, where these are made (21 R356). -/
theorem Midway.retires_traced (h : Midway s t w x f) (pc y : Word) :
    ∃ u, retire s 4 4 (.ok (w.leaseTrace pc y)) = .next u ∧ LeaseQuiet s u ∧ EndsAs s t u x f := by
  obtain ⟨hcur, hcycle⟩ := w.leaseTrace_cur pc y
  refine ⟨_, rfl, fun htctl => ?_, h.endsAs hcur hcycle⟩
  have hw : w.curCoreOf.tctl = s.curCoreOf.tctl := by
    have e := congrArg Core.tctl (h.outside.kept.cores s.curCore)
    simpa [State.curCoreOf, h.outside.kept.curCore] using e
  have hquiet : w.leaseTrace pc y = w := State.trace_untraced _ _ _ _ _ _ _ _ _ (by rw [← htctl, ← hw]; rfl)
  have ho := h.outside.trans (.complete w 4 4)
  rw [hquiet]
  exact ⟨ho.kept, ho.bytes⟩

theorem Midway.retires_traced_withF {b : Bool} (h : Midway s t w x (setBit s.flags 4 b)) (pc y : Word) :
    ∃ u, retire s 4 4 (.ok (w.leaseTrace pc y)) = .next u ∧ LeaseQuiet s u ∧ EndsWithF s t u x b := by
  obtain ⟨u, hu, hquiet, hends⟩ := h.retires_traced pc y
  exact ⟨u, hu, hquiet, hends.withF⟩

/-! The call of a home, answered. -/

/-- The log holds a home's reply next, or after the mark of a notice that the request is held (06 R103, 10 R213). -/
def State.HoldsReply (s : State) (p : HomeRep) : Prop :=
  s.recall = some (.home p) ∨ s.recall = some .done ∧ (s.note .done).recall = some (.home p)

theorem State.HoldsReply.recall_isNone {p : HomeRep} (h : s.HoldsReply p) : s.recall.isNone = false := by
  obtain h | ⟨h, -⟩ := h <;> rw [h] <;> rfl

/-- A call that the log answers goes on with the reply (06 R103). -/
theorem Midway.callHome {p : HomeRep} (h : Midway s t w x f) (hp : w.HoldsReply p) :
    ∃ v, Midway s t v x f ∧ ∀ chip op r y, w.callHome chip op r y = .ok (v, p) := by
  obtain hp | ⟨hd, hp⟩ := hp
  · exact ⟨_, h.note (.home p), fun chip op r y => by rw [State.callHome, hp]⟩
  · exact ⟨_, (h.note .done).note (.home p), fun chip op r y => by simp only [State.callHome, hd, hp]⟩

/-- An answered instruction reads its words from the log and ends with the reply (06 R102, R103). -/
theorem homeCalled_of_answered {sp : Spec} {i : Int} {n : Nat} {p : HomeRep} (hlive : s.cur.live = true)
    (h : Answered s t sp i n p) :
    ∃ v, Midway s t v s.acc s.flags ∧ ∀ pre ask r y fin, s.homeCalled sp i n pre ask r y fin = fin v p := by
  obtain ⟨a, u, ws, ha, hw, hp⟩ := h
  have hp : u.HoldsReply p := hp
  obtain ⟨v, hv, hcall⟩ := ((Midway.address hlive ha).looked (words_looked hw) (words_sameRun hw)).callHome hp
  refine ⟨v, hv, fun pre ask r y fin => ?_⟩
  simp [State.homeCalled, ha, hw, hp.recall_isNone, hcall, bind, Except.bind]

/-! A reply that reports a fault raises it (06 R111). -/

theorem faultOf_bind_of_none {p : HomeRep} (h : p.fault = none) (k : Unit → Run) : (faultOf p >>= k) = k () := by
  rw [faultOf, h]
  rfl

theorem endWith_of_none {p : HomeRep} (h : p.fault = none) (fin : State → HomeRep → State) (v : State) :
    endWith fin v p = .ok (fin v p) := faultOf_bind_of_none h _

theorem retire_faultOf {p : HomeRep} {code : Nat} {a : Word} (h : p.fault = some (code, a)) (s : State) (k : Unit → Run) :
    retire s 4 4 (faultOf p >>= k) = .next (s.takeTrap code 0 a s.cur.pc 4 none).clear := by
  rw [faultOf, h]
  rfl

end Sys2Proof.Machine
end

section
/-!
PROOF of the statement on the instructions that ask a home.
-/
namespace Sys2Proof.Machine
open Sys2Proof.Claims

/-! hgen (06 R108). -/

theorem exec_hgen_asks (s : State) (h : s.recall = none) :
    ∃ u, exec .hgen s = .next u ∧ Waiting s u .mem ∧
      u.cur.replies[s.trail.length]? = some (.num (s.ctxHandle (s.ctxOf s.curCore)).toNat) := by
  have hrun : hgenRun s =
      .error (.wait (s.note (.num (s.ctxHandle (s.ctxOf s.curCore)).toNat)) .mem .again s.soon) := by
    simp only [hgenRun, State.access, h]
    rfl
  show ∃ u, retire s 4 4 (hgenRun s) = _ ∧ _
  rw [hrun]
  exact retire_wait_noted ..

theorem exec_hgen_answered (s : State) (n : Nat) (hlive : s.cur.live = true) (h : s.recall = some (.num n)) :
    ∃ u, exec .hgen s = .next u ∧ LeaseQuiet s u ∧ EndsAs s s u (BitVec.ofNat 64 n) s.flags := by
  have hrun : hgenRun s = .ok (((s.note (.num n)).setAcc (BitVec.ofNat 64 n)).leaseTrace s.cur.pc 0) := by
    simp [hgenRun, State.access, h, bind, Except.bind, Reply.toNat]
  obtain ⟨u, hu, hrest⟩ := (((Midway.start s hlive).note (.num n)).setAcc (BitVec.ofNat 64 n)).retires_traced s.cur.pc 0
  exact ⟨u, (congrArg (retire s 4 4) hrun).trans hu, hrest⟩

section
variable {s t : State} {sp : Spec} {i : BitVec 8} {p : HomeRep} (hlive : s.cur.live = true)
include hlive

/-! The lease instructions (06 R104 to R110). -/

theorem exec_grant_answered (h : Answered s t sp i.toInt 2 p) (k : BitVec 5) :
    ∃ u, exec (.grant k sp i) s = .next u ∧ LeaseQuiet s u ∧ EndsWithF s t u p.a p.f := by
  obtain ⟨v, hv, hcall⟩ := homeCalled_of_answered hlive h
  show ∃ u, retire s 4 4 (grantRun s k.toNat sp i.toInt) = _ ∧ _
  rw [grantRun, hcall]
  exact ((hv.setAcc p.a).setF p.f).retires_traced_withF ..

theorem exec_renew_answered (h : Answered s t sp i.toInt 1 p) :
    ∃ u, exec (.renew sp i) s = .next u ∧ LeaseQuiet s u ∧ EndsWithF s t u (if p.f then 0 else lifeLeft s p) p.f := by
  obtain ⟨v, hv, hcall⟩ := homeCalled_of_answered hlive h
  show ∃ u, retire s 4 4 (renewRun s sp i.toInt) = _ ∧ _
  rw [renewRun, hcall, hv.setAcc_or_setLife]
  exact ((hv.setAcc _).setF p.f).retires_traced_withF ..

theorem exec_life_answered (h : Answered s t sp i.toInt 1 p) :
    ∃ u, exec (.life sp i) s = .next u ∧ LeaseQuiet s u ∧ EndsAs s t u (lifeLeft s p) s.flags := by
  obtain ⟨v, hv, hcall⟩ := homeCalled_of_answered hlive h
  show ∃ u, retire s 4 4 (lifeRun s sp i.toInt) = _ ∧ _
  rw [lifeRun, hcall, hv.setLife]
  exact (hv.setAcc _).retires_traced ..

theorem exec_hinfo_answered (h : Answered s t sp i.toInt 1 p) :
    ∃ u, exec (.hinfo sp i) s = .next u ∧ LeaseQuiet s u ∧
      EndsAs s t u (BitVec.ofNat 64 ((lifeLeft s p).toNat / 1000 * 2 ^ 24 + p.a.toNat)) s.flags := by
  obtain ⟨v, hv, hcall⟩ := homeCalled_of_answered hlive h
  show ∃ u, retire s 4 4 (hinfoRun s sp i.toInt) = _ ∧ _
  rw [hinfoRun, hcall, hv.lifeOf]
  exact (hv.setAcc _).retires_traced ..

theorem exec_anchor_answered (h : Answered s t sp i.toInt 1 p) (hf : p.fault = none) :
    ∃ u, exec (.anchor sp i) s = .next u ∧ LeaseQuiet s u ∧ EndsWithF s t u (if p.f then 0 else lifeLeft s p) p.f := by
  obtain ⟨v, hv, hcall⟩ := homeCalled_of_answered hlive h
  show ∃ u, retire s 4 4 (anchorRun s sp i.toInt) = _ ∧ _
  rw [anchorRun, hcall, faultOf_bind_of_none hf, hv.setAcc_or_setLife]
  exact ((hv.setAcc _).setF p.f).retires_traced_withF ..

/-! The instructions on synchronisation objects (10 R208 to R213). -/

/-- The four that give a what the home has answered; the two that waited for a value acquire (11 R221). -/
theorem exec_sync_answered (h : Answered s t sp i.toInt 1 p) (hf : p.fault = none) :
    ∀ j ∈ [Instr.barr sp i, .barw sp i, .sig sp i, .sigw sp i],
      ∃ u, exec j s = .next u ∧ Kept s u ∧ SameBytes s u ∧ EndsAs s t u p.a s.flags := by
  obtain ⟨v, hv, hcall⟩ := homeCalled_of_answered hlive h
  obtain ⟨given, hgiven, hrest⟩ := (hv.setAcc p.a).retires
  obtain ⟨acquired, hacquired, hrest'⟩ := (hv.setAcc p.a).acquire.retires
  intro j hj
  simp only [List.mem_cons, List.not_mem_nil, or_false] at hj
  obtain rfl | rfl | rfl | rfl := hj
  case inl | inr.inr.inl =>
    exact ⟨given, (congrArg (retire s 4 4) ((hcall ..).trans (endWith_of_none hf ..))).trans hgiven, hrest⟩
  case inr.inl | inr.inr.inr =>
    exact ⟨acquired, (congrArg (retire s 4 4) ((hcall ..).trans (endWith_of_none hf ..))).trans hacquired, hrest'⟩

theorem exec_sigm_answered (h : Answered s t sp i.toInt 1 p) (hf : p.fault = none) :
    ∃ u, exec (.sigm sp i) s = .next u ∧ Kept s u ∧ SameBytes s u ∧ EndsWithF s t u s.acc p.f := by
  obtain ⟨v, hv, hcall⟩ := homeCalled_of_answered hlive h
  show ∃ u, retire s 4 4 (sigmRun s sp i.toInt) = _ ∧ _
  rw [sigmRun, hcall, endWith_of_none hf]
  exact (hv.setF p.f).retires_withF

/-- A fault in the reply is raised at the instruction (06 R109, R111; 10 R207). -/
theorem exec_raises_fault (h : Answered s t sp i.toInt 1 p) (code : Nat) (a : Word) (hf : p.fault = some (code, a)) :
    ∀ j ∈ [Instr.anchor sp i, .barr sp i, .barw sp i, .sig sp i, .sigw sp i, .sigm sp i],
      exec j s = .next (s.takeTrap code 0 a s.cur.pc 4 none).clear := by
  obtain ⟨v, -, hcall⟩ := homeCalled_of_answered hlive h
  intro j hj
  simp only [List.mem_cons, List.not_mem_nil, or_false] at hj
  obtain rfl | rfl | rfl | rfl | rfl | rfl := hj
  all_goals exact (congrArg (retire s 4 4) (hcall ..)).trans (retire_faultOf hf s _)

/-- lk with a reply in its log: the handle of the lock and an acquire, or the life of its holder's (10 R213, 11 R230). -/
theorem exec_lk_answered {a : Word} {u : State} {l : Loc} {c : Nat × Nat} (ha : s.address sp i.toInt 8 = .ok (t, a))
    (hl : t.locate a 8 8 .atomic tagG false false = .ok (u, l)) (hc : lockHome s.chip l = some c) (hp : u.HoldsReply p)
    (k : BitVec 1) :
    ∃ u, exec (.lk k sp i) s = .next u ∧ Kept s u ∧ SameBytes s u ∧
      EndsWithF s t u (if p.f then lifeLeft s p else p.a) p.f := by
  have hu := (Midway.address hlive ha).looked (locate_looked hl) (locate_sameRun hl)
  obtain ⟨v, hv, hcall⟩ := hu.callHome hp
  have hrun : lkRun s (k == 1#1) sp i.toInt = .ok (v.lkDone p) := by
    rw [← hu.chip] at hc
    simp [lkRun, ha, hl, hc, hcall, bind, Except.bind]
  show ∃ u, retire s 4 4 (lkRun s (k == 1#1) sp i.toInt) = _ ∧ _
  rw [hrun, State.lkDone, hv.setLife]
  cases p.f with
  | true => exact ((hv.setAcc _).setF true).retires_withF
  | false => exact ((hv.setAcc p.a).setF false).acquire.retires_withF

/-! dmap (16 R312). -/

theorem exec_dmap_answered (h : Answered s t sp i.toInt 3 p) (hf : p.fault = none) :
    ∃ u, exec (.dmap sp i) s = .next u ∧ Kept s u ∧ SameBytes s u ∧
      EndsWithF s t u (if p.f then p.a else lifeLeft s p) p.f := by
  obtain ⟨v, hv, hcall⟩ := homeCalled_of_answered hlive h
  show ∃ u, retire s 4 4 (dmapRun s sp i.toInt) = _ ∧ _
  rw [dmapRun, hcall, faultOf_bind_of_none hf, hv.setAcc_or_setLife]
  exact ((hv.setAcc _).setF p.f).retires_withF

theorem exec_dmap_raises_fault (h : Answered s t sp i.toInt 3 p) (code : Nat) (a : Word) (hf : p.fault = some (code, a)) :
    exec (.dmap sp i) s = .next (s.takeTrap code 0 a s.cur.pc 4 none).clear := by
  obtain ⟨v, -, hcall⟩ := homeCalled_of_answered hlive h
  exact (congrArg (retire s 4 4) (hcall ..)).trans (retire_faultOf hf s _)

end

/-- Settles O33: an answered call leaves its instruction midway in a state that has only looked at memory; each instruction then
writes a and F as its reply says and completes, or raises the reply's fault. -/
theorem homeReplyCompletes : Obligations.HomeReplyCompletes := by
  refine ⟨fun s hlive => ⟨exec_hgen_asks s, fun n hn => ?_⟩,
    fun s t sp i p hlive => ⟨exec_grant_answered hlive, ?one, ?three, ?lock⟩⟩
  · obtain ⟨u, hu, hquiet, hacc, hflags, -, hpassed⟩ := exec_hgen_answered s n hlive hn
    exact ⟨u, hu, hquiet, hacc, hflags, hpassed⟩
  case one =>
    exact fun h => ⟨exec_renew_answered hlive h, exec_life_answered hlive h, exec_hinfo_answered hlive h,
      fun hf => ⟨exec_anchor_answered hlive h hf, exec_sync_answered hlive h hf, exec_sigm_answered hlive h hf⟩,
      exec_raises_fault hlive h⟩
  case three => exact fun h => ⟨exec_dmap_answered hlive h, exec_dmap_raises_fault hlive h⟩
  case lock => exact fun a u l c ha hl hc hp => exec_lk_answered hlive ha hl hc hp

end Sys2Proof.Machine
end

section
/-!
SUPPORT. What an instruction leaves that reads: the block at a place, the words of a descriptor (04 R53, 07 R123, 09 R186).
-/
namespace Sys2Proof.Machine

/-- The instruction has only read: registers, bytes, cores and time are as they were, and no copy has been handed over. -/
structure OnlyRead (s t : State) : Prop where
  looked : Looked s t
  run    : SameRun s t
  copies : t.copies = s.copies
  nextId : t.nextId = s.nextId

theorem OnlyRead.refl (s : State) : OnlyRead s s := ⟨.refl s, .refl s, rfl, rfl⟩

theorem OnlyRead.trans {s t u : State} (h : OnlyRead s t) (k : OnlyRead t u) : OnlyRead s u :=
  ⟨h.looked.trans k.looked, h.run.trans k.run, k.copies.trans h.copies, k.nextId.trans h.nextId⟩

theorem OnlyRead.note (s : State) (r : Reply) : OnlyRead s (s.note r) := ⟨.note s r, .note s r, rfl, rfl⟩

theorem OnlyRead.fillCache (s : State) (d c va : Nat) (b : Block) : OnlyRead s (s.fillCache d c va b) :=
  ⟨.fillCache .., .fillCache .., rfl, rfl⟩

theorem OnlyRead.charge (s : State) (e : PageEntry) : OnlyRead s (s.charge e) := by
  refine ⟨.charge s e, .charge s e, ?_, ?_⟩ <;>
  · unfold State.charge
    dsimp only
    repeat' split
    all_goals rfl

/-- Errors that are found write scales and records of faults. -/
theorem foldl_foundFlaw_work (c : Nat) (fs : List (Nat × Bool)) (s : State) :
    (fs.foldl (State.foundFlaw c) s).copies = s.copies ∧ (fs.foldl (State.foundFlaw c) s).nextId = s.nextId := by
  induction fs generalizing s with
  | nil => exact ⟨rfl, rfl⟩
  | cons f fs ih =>
    have hf : (s.foundFlaw c f).copies = s.copies ∧ (s.foundFlaw c f).nextId = s.nextId := by
      unfold State.foundFlaw State.memoryError State.memoryErrorOf
      dsimp only
      split <;> exact ⟨rfl, rfl⟩
    exact ⟨(ih _).1.trans hf.1, (ih _).2.trans hf.2⟩

theorem OnlyRead.sense (s : State) (c k n : Nat) : OnlyRead s (s.sense c k n) :=
  ⟨.sense .., .sense .., (foldl_foundFlaw_work ..).1, (foldl_foundFlaw_work ..).2⟩

variable {s t : State}

theorem access_onlyRead {p : Option (Reason × Resource)} {now : State → State × Reply} {r : Reply}
    (h : s.access p now = .ok (t, r)) (k : OnlyRead s (now s).1) : OnlyRead s t := by
  unfold State.access at h
  split at h
  · cases h
  · cases h
    exact .note ..
  · dsimp only at h
    split at h
    · cases h
    · split at h
      · cases h
      · cases h
        exact k.trans (.note ..)

theorem once_onlyRead {check : Except Stop Unit} (h : s.once check = .ok t) : OnlyRead s t := by
  unfold State.once at h
  split at h
  · cases h
    exact .note ..
  · obtain ⟨-, -, h⟩ := bind_ok h
    cases h
    exact .note ..

theorem locate_onlyRead {a : Word} {size align : Nat} {k : AccKind} {al : Nat → Bool} {o n : Bool} {l : Loc}
    (h : s.locate a size align k al o n = .ok (t, l)) : OnlyRead s t := by
  unfold State.locate State.touched at h
  repeat' split at h
  all_goals cases h
  all_goals exact .note ..

theorem lineRead_onlyRead {die va : Nat} {e : PageEntry} {fresh : State → State × Block}
    (k : OnlyRead s (fresh s).1) : OnlyRead s (s.lineRead die e va fresh).1 := by
  unfold State.lineRead
  split
  · exact .refl s
  · dsimp only
    split
    · exact k.trans (.fillCache ..)
    · exact k

theorem readRoute_onlyRead {r : Route} {e : PageEntry} {va : Nat} {b : Block}
    (h : s.readRoute r e va = .ok (t, b)) : OnlyRead s t := by
  cases r with
  | here pa =>
    obtain ⟨x, hx, hb⟩ := map_ok h
    cases hb
    exact access_onlyRead hx (lineRead_onlyRead ((OnlyRead.charge s e).trans (.sense ..)))
  | host l a =>
    obtain ⟨x, hx, hb⟩ := map_ok h
    cases hb
    exact access_onlyRead hx (lineRead_onlyRead (.charge s e))
  | chip c pa =>
    unfold State.readRoute at h
    dsimp only at h
    split at h
    · obtain ⟨x, hx, hb⟩ := map_ok h
      cases hb
      exact access_onlyRead hx (.refl s)
    · split at h
      · cases h
      · split at h
        · obtain ⟨x, hx, hb⟩ := map_ok h
          cases hb
          exact access_onlyRead hx (.refl s)
        · cases h

theorem blockLoc_onlyRead {l : Loc} {b : Block} (h : s.blockLoc l = .ok (t, b)) : OnlyRead s t := by
  cases l with
  | sys n => cases h
  | buf win g k off =>
    obtain ⟨x, hx, hb⟩ := map_ok h
    cases hb
    exact access_onlyRead hx (.sense ..)
  | glob r e va => exact readRoute_onlyRead h

theorem loadLoc_onlyRead {a : Word} {size v : Nat} {l : Loc} (h : s.loadLoc a size l = .ok (t, v)) : OnlyRead s t := by
  cases l with
  | sys n =>
    unfold State.loadLoc at h
    dsimp only at h
    split at h
    · cases h
      exact .note ..
    · obtain ⟨w, -, hw⟩ := map_ok h
      cases hw
      exact .note ..
  | buf win b g off =>
    obtain ⟨x, hx, hb⟩ := map_ok h
    cases hb
    exact access_onlyRead hx (.sense ..)
  | glob r e va =>
    obtain ⟨⟨u, b⟩, hr, hb⟩ := bind_ok h
    dsimp only at hb
    split at hb
    · cases hb
    · cases hb
      exact readRoute_onlyRead hr

theorem descLoads_onlyRead {n j : Nat} {a : Word} {bs : List Byte} (h : s.descLoads a j n = .ok (t, bs)) : OnlyRead s t := by
  induction n generalizing s j bs with
  | zero =>
    cases h
    exact .refl _
  | succ n ih =>
    obtain ⟨⟨u, l⟩, hl, h⟩ := bind_ok h
    obtain ⟨⟨v, x⟩, hx, h⟩ := bind_ok h
    obtain ⟨⟨w, r⟩, hr, h⟩ := bind_ok h
    cases h
    exact ((locate_onlyRead hl).trans (loadLoc_onlyRead hx)).trans (ih hr)

/-- The address of an operand leaves the state as its specifier does (03 R34). -/
theorem operand_of_address {sp : Spec} {i : Int} {size : Nat} {a : Word} (h : s.address sp i size = .ok (t, a)) :
    s.operand sp i size = (t, .mem a) := by
  unfold State.address at h
  split at h
  · next hop =>
    cases h
    exact hop
  · cases h

end Sys2Proof.Machine
end

section
/-!
SUPPORT. A whole block written (07 R123, 09 R192), and what it leaves of the slot that runs; a slot that parks with the instruction
half made.
-/
namespace Sys2Proof.Machine
open Sys2Proof.Claims

theorem SameRun.cur {s t : State} (h : SameRun s t) : t.cur = s.cur := by
  simp only [State.cur, State.slot, State.core, h.curCore, h.curSlot, h.cores]

theorem SameRun.curCoreOf {s t : State} (h : SameRun s t) : t.curCoreOf = s.curCoreOf := by
  simp only [State.curCoreOf, State.core, h.curCore, h.cores]

/-! Errors of memory that an access does not meet (09 R191 to R193). -/

theorem State.sense_of_clean (s : State) (c k n : Nat) (h : ∀ f ∈ s.flaws, f.2 = true → onFlaw k n f = false) :
    s.sense c k n = s := by
  have hfound : (s.flaws.filter fun f => f.2 && onFlaw k n f) = [] := by
    simpa [List.filter_eq_nil_iff] using h
  have hrest : (s.flaws.filter fun f => !(f.2 && onFlaw k n f)) = s.flaws := by
    simpa [List.filter_eq_self] using h
  rw [State.sense, hfound, hrest]
  rfl

theorem countFlaw_mem (s : State) (f : Nat × Bool) : (s.countFlaw f).mem = s.mem := by
  unfold State.countFlaw
  dsimp only
  split <;> rfl

theorem foldl_countFlaw_mem (fs : List (Nat × Bool)) (s : State) : (fs.foldl State.countFlaw s).mem = s.mem := by
  induction fs generalizing s with
  | nil => rfl
  | cons f fs ih => rw [List.foldl_cons, ih, countFlaw_mem]

/-- A write that replaces whole every error past correction that it touches merges into none. -/
theorem State.mend_mem_of_covered (s : State) (c k n : Nat) (whole : Bool)
    (h : ∀ f ∈ s.flaws, f.2 = true → onFlaw k n f = true → coversFlaw k n whole f = true) :
    (s.mend c k n whole).mem = s.mem := by
  have hclean : ∀ f ∈ s.flaws.filter fun f => !(f.2 && coversFlaw k n whole f), f.2 = true → onFlaw k n f = false := by
    intro f hf hbad
    obtain ⟨hmem, hout⟩ := List.mem_filter.mp hf
    rw [← Bool.not_eq_true]
    intro hon
    simp [hbad, h f hmem hbad hon] at hout
  unfold State.mend
  rw [State.sense_of_clean _ _ _ _ hclean]
  exact foldl_countFlaw_mem ..

/-! The slot that writes is not among those that its write fires (10 R203). -/

theorem tget_fireSlots_writer (off n k : Nat) (t : Table Slot) :
    tget .reset (fireSlots off n (some k) t) k = tget .reset t k := by
  induction t with
  | nil => rfl
  | cons e t ih =>
    obtain ⟨j, x⟩ := e
    by_cases hk : k = j
    · simp [fireSlots, tget, hk]
    · simpa [fireSlots, tget, hk] using ih

theorem State.fire_cur (s : State) (g off n : Nat) :
    (s.fire g off n (some (s.curCore, s.curSlot))).cur = s.cur := by
  unfold State.fire State.cur State.slot
  by_cases hg : s.curCore = g
  · subst hg
    simp [tget_fireSlots_writer]
  · simp [hg, State.core_setCore]

theorem State.fire_cycle (s : State) (g off n : Nat) (w : Option (Nat × Nat)) :
    (s.fire g off n w).curCoreOf.cycle = s.curCoreOf.cycle := by
  unfold State.fire State.curCoreOf
  by_cases hg : s.curCore = g
  · simp [hg]
  · simp [hg, State.core_setCore]

theorem State.putBuf_cur (s : State) (b g off : Nat) (x : Block) :
    (s.putBuf b g off x).cur = s.cur ∧ (s.putBuf b g off x).curCoreOf.cycle = s.curCoreOf.cycle := by
  have hrun : SameRun s ({ s with mem := putBlock s.mem (bufKey b g off) x }.mend (s.ctxOf s.curCore) (bufKey b g off) 64 true) :=
    SameRun.trans (t := { s with mem := putBlock s.mem (bufKey b g off) x }) ⟨rfl, rfl, rfl, rfl, rfl⟩ (.mend ..)
  have hcycle := congrArg Core.cycle hrun.curCoreOf
  unfold State.putBuf
  dsimp only
  split
  · exact ⟨(State.fire_cur ..).trans hrun.cur, (State.fire_cycle ..).trans hcycle⟩
  · exact ⟨hrun.cur, hcycle⟩

theorem State.putBuf_mem (s : State) (b g off : Nat) (x : Block) (h : WholeErrors s (bufKey b g off)) :
    (s.putBuf b g off x).mem = putBlock s.mem (bufKey b g off) x := by
  have hmem := State.mend_mem_of_covered { s with mem := putBlock s.mem (bufKey b g off) x } (s.ctxOf s.curCore)
    (bufKey b g off) 64 true h
  unfold State.putBuf
  dsimp only
  split <;> exact hmem

/-- A block write at a place that completes is in the log already, or writes a buffer now. -/
theorem putLoc_ok {s t : State} {a : Word} {x : Block} {mark : Bool} {l : Loc} (h : s.putLoc a x mark l = .ok t) :
    (∃ r, t = s.note r) ∨ ∃ b g off, t = (s.putBuf b g off x).note .done := by
  cases l with
  | sys n => cases h
  | buf win b g off =>
    unfold State.putLoc at h
    dsimp only at h
    split at h
    · cases h
    · obtain ⟨y, hy, rfl⟩ := map_ok h
      unfold State.access at hy
      split at hy <;> cases hy
      · exact .inl ⟨_, rfl⟩
      · exact .inr ⟨b, g, off, rfl⟩
  | glob r e va =>
    obtain ⟨y, hy, rfl⟩ := map_ok h
    unfold State.access at hy
    split at hy <;> cases hy
    exact .inl ⟨_, rfl⟩

theorem putLoc_cur {s t : State} {a : Word} {x : Block} {mark : Bool} {l : Loc} (h : s.putLoc a x mark l = .ok t) :
    t.cur = s.cur ∧ t.curCoreOf.cycle = s.curCoreOf.cycle := by
  obtain ⟨r, rfl⟩ | ⟨b, g, off, rfl⟩ := putLoc_ok h
  · exact ⟨rfl, rfl⟩
  · exact s.putBuf_cur b g off x

/-- Outside the watchpoints a block goes to its buffer at once. -/
theorem putLoc_buf {s : State} {win : Bool} {b g off : Nat} (a : Word) (x : Block) (mark : Bool) (hr : s.recall = none)
    (hw : s.strikes b g off 64 = false) : s.putLoc a x mark (.buf win b g off) = .ok ((s.putBuf b g off x).note .done) := by
  simp [State.putLoc, State.access, hw, hr, Except.map]

/-- A block that goes to G is written as its slot parks for the station's answer (04 R53). -/
theorem putLoc_glob {s : State} {r : Route} {e : PageEntry} {va : Nat} (a : Word) (x : Block) (mark : Bool)
    (hr : s.recall = none) :
    s.putLoc a x mark (.glob r e va) =
      .error (.wait ((s.postBlock r e va x mark).note .done) .mem .none ((s.postBlock r e va x mark).note .done).soon) := by
  simp [State.putLoc, State.access, slowMem, hr, Except.map]

/-! A block that is written to its route (09 R175). -/

theorem State.putCache_mem (s : State) (die : Nat) (e : PageEntry) (va : Nat) (b : Block) :
    (s.putCache die e va b).mem = s.mem := by
  unfold State.putCache
  dsimp only
  repeat' split
  all_goals rfl

theorem SameRun.putCache (s : State) (die : Nat) (e : PageEntry) (va : Nat) (b : Block) : SameRun s (s.putCache die e va b) := by
  unfold State.putCache
  dsimp only
  repeat' split
  all_goals exact ⟨rfl, rfl, rfl, rfl, rfl⟩

theorem State.charge_mem (s : State) (e : PageEntry) : (s.charge e).mem = s.mem := by
  unfold State.charge
  dsimp only
  repeat' split
  all_goals rfl

theorem State.charge_flaws (s : State) (e : PageEntry) : (s.charge e).flaws = s.flaws := by
  unfold State.charge
  dsimp only
  repeat' split
  all_goals rfl

theorem SameRun.blockOut (s : State) (g k : Nat) (r : Route) (e : PageEntry) (va : Nat) (x : Block) :
    SameRun s (s.blockOut g k r e va x) := by
  have hcharge := SameRun.charge s e
  cases r with
  | here pa =>
    have hput : SameRun s { s.charge e with mem := putBlock s.mem pa x } := hcharge.trans ⟨rfl, rfl, rfl, rfl, rfl⟩
    exact (hput.trans (.mend ..)).trans (.putCache ..)
  | host l a =>
    have hput : SameRun s ((s.charge e).writeBytes (hostKey l a) x.data) := hcharge.trans ⟨rfl, rfl, rfl, rfl, rfl⟩
    exact hput.trans (.putCache ..)
  | chip c pa => exact (hcharge.trans (.request ..)).trans (.putCache ..)

theorem State.blockOut_mem_here (s : State) (g k pa : Nat) (e : PageEntry) (va : Nat) (x : Block) (h : WholeErrors s pa) :
    (s.blockOut g k (.here pa) e va x).mem = putBlock s.mem pa x := by
  have hclean : WholeErrors { s.charge e with mem := putBlock s.mem pa x } pa := by
    intro f hf
    exact h f (s.charge_flaws e ▸ hf)
  exact (State.putCache_mem ..).trans (State.mend_mem_of_covered _ _ _ _ _ hclean)

theorem State.blockOut_mem_chip (s : State) (g k c pa : Nat) (e : PageEntry) (va : Nat) (x : Block) :
    (s.blockOut g k (.chip c pa) e va x).mem = s.mem := by
  refine (State.putCache_mem ..).trans ?_
  show (State.emit _ _).mem = _
  rw [State.emit_mem, State.charge_mem]

/-- Marking a pseudo-channel leaves memory, and the flags of the slot (11 R224). -/
theorem State.markBank_mem (s : State) (mark : Bool) (e : PageEntry) (r : Route) : (s.markBank mark e r).mem = s.mem := by
  cases r with
  | here pa =>
    unfold State.markBank
    dsimp only
    split <;> rfl
  | chip c pa => rfl
  | host l a => rfl

theorem State.markBank_flags (s : State) (mark : Bool) (e : PageEntry) (r : Route) :
    (s.markBank mark e r).flags = s.flags := by
  cases r with
  | here pa =>
    unfold State.markBank
    dsimp only
    split
    · rw [State.flags, State.cur_setCur]
      rfl
    · rfl
  | chip c pa => rfl
  | host l a => rfl

theorem State.postBlock_flags (s : State) (r : Route) (e : PageEntry) (va : Nat) (x : Block) (mark : Bool) :
    (s.postBlock r e va x mark).flags = s.flags := by
  unfold State.postBlock
  rw [State.markBank_flags, State.flags, (SameRun.blockOut ..).cur]
  rfl

/-! A slot that parks with its instruction half made. -/

theorem State.note_mem (s : State) (r : Reply) : (s.note r).mem = s.mem := rfl

theorem retire_wait (s t : State) (len delay : Nat) (r : Reason) (res : Resource) (wake : Wake) :
    retire s len delay (.error (.wait t r res wake)) = .next ((s.rewind t).parkCur r res wake) := rfl

theorem parked_mem (s t : State) (r : Reason) (res : Resource) (wake : Wake) :
    ((s.rewind t).parkCur r res wake).mem = t.mem := rfl

/-- Whatever the instruction has come to, its slot parks with its registers as before, if no flag has changed on the way. -/
theorem restOfSlot_parked {s t : State} (h : t.flags = s.flags) (r : Reason) (res : Resource) (wake : Wake) :
    RestOfSlot s s ((s.rewind t).parkCur r res wake) := by
  have hflags : (t.cur.keepE (s.rewound t)).flags = s.cur.flags := Slot.keepE_flags _ _ h.symm
  obtain ⟨p, i, hcur, -, -⟩ := (s.rewind t).cur_parkCur r res wake
  rw [State.cur_rewind] at hcur
  unfold RestOfSlot State.acc State.flags State.ptr
  rw [hcur]
  exact ⟨Slot.keepE_acc .., hflags, Slot.keepE_ptr _ _, Slot.keepE_lc .., Slot.keepE_vf .., Slot.keepE_priv ..⟩

theorem parked_slot (s t : State) (r : Reason) (res : Resource) (wake : Wake) :
    ((s.rewind t).parkCur r res wake).cur.pc = s.cur.pc ∧ ((s.rewind t).parkCur r res wake).cur.live = s.cur.live ∧
      ((s.rewind t).parkCur r res wake).cur.replies = t.trail ++ s.cur.replies.drop t.trail.length ∧
      ∃ p, ((s.rewind t).parkCur r res wake).cur.park = some p ∧ p.reason = r ∧ p.woken = false := by
  obtain ⟨p, i, hcur, hr, hw⟩ := (s.rewind t).cur_parkCur r res wake
  rw [State.cur_rewind] at hcur
  rw [hcur]
  exact ⟨Slot.keepE_pc .., Slot.keepE_live .., Slot.keepE_replies .., p, rfl, hr, hw⟩

theorem answering_parked {s t : State} (h : t.flags = s.flags) (res : Resource) (wake : Wake) :
    Answering s ((s.rewind t).parkCur .mem res wake) := by
  obtain ⟨hpc, -, -, p, hp, hr, -⟩ := parked_slot s t .mem res wake
  exact ⟨by rw [hp, Option.map_some, hr], hpc, restOfSlot_parked h ..⟩

/-- An instruction that has stepped its pointers and looked, and then waits, is not to be seen (03 R31). -/
theorem waiting_parked {s t : State} (ho : Outside s t) (h : t.flags = s.flags) (r : Reason) (res : Resource) (wake : Wake) :
    Waiting s ((s.rewind t).parkCur r res wake) r := by
  obtain ⟨hpc, hlive, -, hpark⟩ := parked_slot s t r res wake
  exact ⟨ho.kept.rewind.trans (.setCur _ _), ho.bytes, restOfSlot_parked h .., hlive, hpc, hpark⟩

/-! An instruction that completes with its slot as at w. -/

theorem Outside.retires {s w : State} (h : Outside s w) (hlive : w.cur.live = true) :
    ∃ u, retire s 4 4 (.ok w) = .next u ∧ Kept s u ∧ SameBytes s u ∧ u.cur = w.cur.done s.curCoreOf.cycle 4 4 := by
  have ho := h.trans (.complete w 4 4)
  exact ⟨_, rfl, ho.kept, ho.bytes, by rw [complete_cur w 4 4 hlive, h.kept.cycle]⟩

end Sys2Proof.Machine
end

section
/-!
PROOF of the statement on blocks in global memory.
-/
namespace Sys2Proof.Machine
open Sys2Proof.Claims

variable {s t u w : State} {x : Word} {f : BitVec 7}

theorem Midway.stepPtr (h : Midway s t w x f) (n : Nat) (d : Int) : Midway s (w.stepPtr n d) (w.stepPtr n d) x f where
  outside := h.outside.trans (.setCur ..)
  live := by simpa [State.stepPtr] using h.live
  pc := by simpa [State.stepPtr] using h.pc
  park := by simpa [State.stepPtr] using h.park
  issued := by simpa [State.stepPtr] using h.issued
  ptr _ := rfl
  acc := (State.acc_setPtr ..).trans h.acc
  flags := (State.flags_setPtr ..).trans h.flags
  dt := h.dt
  chip := h.chip

theorem Midway.onlyRead {v : State} (h : Midway s t w x f) (k : OnlyRead w v) : Midway s t v x f := h.looked k.looked k.run

/-- A block that is put ends the instruction: nothing of the slot but pc and its spacing changes (09 R175). -/
theorem Midway.retires_putLoc {z : State} {a : Word} {b : Block} {mark : Bool} {l : Loc} (h : Midway s t w x f)
    (hz : w.putLoc a b mark l = .ok z) :
    ∃ v, retire s 4 4 (w.putLoc a b mark l) = .next v ∧ v.mem = z.mem ∧ EndsAs s t v x f :=
  have ⟨hcur, hcycle⟩ := putLoc_cur hz
  ⟨_, congrArg (retire s 4 4) hz, State.complete_mem .., h.endsAs hcur hcycle⟩

/-- A block that goes to G is written while its slot waits for the answer (09 R175). -/
theorem Midway.parks_putLoc {a : Word} {b : Block} {mark : Bool} {r : Route} {e : PageEntry} {va : Nat}
    (h : Midway s t w x s.flags) (hrec : w.recall = none) :
    ∃ v, retire s 4 4 (w.putLoc a b mark (.glob r e va)) = .next v ∧ Answering s v ∧
      v.mem = (w.blockOut w.curCore w.curSlot r e va b).mem := by
  have hflags : ((w.postBlock r e va b mark).note .done).flags = s.flags := (w.postBlock_flags ..).trans h.flags
  rw [putLoc_glob a b mark hrec, retire_wait]
  refine ⟨_, rfl, answering_parked hflags _ _, ?_⟩
  rw [parked_mem, State.note_mem]
  exact State.markBank_mem ..

/-! gldv and gstv (09 R174, R175). -/

section
variable {sp : Spec} {i : BitVec 13} {a : Word} {q r : State} {l d : Loc} {b : Block} (hlive : s.cur.live = true)
  (ha : s.address sp i.toInt 64 = .ok (t, a))
include ha

theorem exec_gldv_moves (hl : (t.stepPtr 6 (t.stepInt 6)).locate a 64 64 .read tagG false false = .ok (q, l))
    (hd : q.locate (t.ptr 6) 64 64 .write tagLaneWrite false false = .ok (r, d)) (hb : r.blockLoc l = .ok (w, b)) :
    exec (.gldv sp i) s = retire s 4 4 (w.putLoc (t.ptr 6) b false d) := by
  show retire s 4 4 (gldvRun s sp i.toInt) = _
  simp [gldvRun, ha, hl, hd, hb, bind, Except.bind]

theorem exec_gstv_moves (hl : (t.stepPtr 6 (t.stepInt 6)).locate a 64 64 .write tagG false false = .ok (q, l))
    (hd : q.locate (t.ptr 6) 64 64 .read tagLaneRead false false = .ok (r, d)) (hb : r.blockLoc d = .ok (w, b)) :
    exec (.gstv sp i) s = retire s 4 4 (w.putLoc a b true l) := by
  show retire s 4 4 (gstvRun s sp i.toInt) = _
  simp [gstvRun, ha, hl, hd, hb, bind, Except.bind]

include hlive

/-- Both addresses are checked and the block is read: the instruction is midway with both pointers stepped. -/
theorem Midway.blockRead {k k' : AccKind} {al al' : Nat → Bool} {a' : Word} {m : Loc}
    (hl : (t.stepPtr 6 (t.stepInt 6)).locate a 64 64 k al false false = .ok (q, l))
    (hd : q.locate a' 64 64 k' al' false false = .ok (r, d)) (hb : r.blockLoc m = .ok (w, b)) :
    Midway s (t.stepPtr 6 (t.stepInt 6)) w s.acc s.flags :=
  ((Midway.address hlive ha).stepPtr 6 _).onlyRead
    (((locate_onlyRead hl).trans (locate_onlyRead hd)).trans (blockLoc_onlyRead hb))

end

/-! gpref (09 R176). -/

theorem Looked.requestFill (s : State) (fill : Option (Nat × Nat)) (g k ctx chip pa : Nat) (op : RemoteOp) :
    Looked s (s.requestFill fill g k ctx chip pa op) := by
  obtain ⟨_, _, _, _, _, h⟩ := s.emit_eq (.request chip { chip := s.chip, id := s.nextId, ctx := ctx, pa := pa, op := op, tagOk := true })
  unfold State.requestFill
  rw [h]
  exact .of_fields rfl rfl rfl rfl rfl rfl rfl rfl rfl

theorem Looked.fetchAhead (s : State) (r : Route) (e : PageEntry) (va : Nat) : Looked s (s.fetchAhead r e va) := by
  unfold State.fetchAhead
  dsimp only
  split
  · exact .refl s
  · cases r with
    | here pa => exact lineRead_looked (.sense ..)
    | host l a => exact .fillCache ..
    | chip c pa =>
      dsimp only
      split
      · exact .refl s
      · exact .requestFill ..

theorem gprefRun_looked {sp : Spec} {i : Int} {a : Word} (ha : s.address sp i 64 = .ok (t, a)) :
    Looked t (gprefRun s sp i) := by
  unfold gprefRun
  rw [operand_of_address ha]
  dsimp only
  split
  · exact .fetchAhead ..
  · exact .refl t

/-- Settles O26: gldv and gstv reach the write of the block midway with both pointers stepped; a write of a buffer completes, one
of G parks the slot with its registers as before; gpref only looks. -/
theorem blocksMoveThroughGlobalMemory : Obligations.BlocksMoveThroughGlobalMemory := by
  rintro s t u sp i a hlive ha rfl
  refine ⟨fun q r w l d b hl hd hb => ?load, fun q r w l d b hl hd hb => ?store, ?prefetch⟩
  case load =>
    have hw := Midway.blockRead hlive ha hl hd hb
    rw [exec_gldv_moves ha hl hd hb]
    constructor
    · intro z hz
      obtain ⟨v, hv, hmem, hends⟩ := hw.retires_putLoc hz
      exact ⟨v, hv, hmem, hends⟩
    · rintro x b' g off rfl hrec hstrike hwhole
      obtain ⟨v, hv, hmem, -, -, -, hpassed⟩ := hw.retires_putLoc (putLoc_buf (t.ptr 6) b false hrec hstrike)
      exact ⟨v, hv, hmem.trans (w.putBuf_mem b' g off b hwhole), hw.outside.bytes, hpassed⟩
  case store =>
    have hw := Midway.blockRead hlive ha hl hd hb
    rw [exec_gstv_moves ha hl hd hb]
    constructor
    · intro z hz
      obtain ⟨v, hv, hmem, hends⟩ := hw.retires_putLoc hz
      exact ⟨v, hv, hmem, hends⟩
    · rintro x e va rfl hrec
      obtain ⟨v, hv, hanswer, hmem⟩ := hw.parks_putLoc hrec
      refine ⟨v, hv, hanswer, ?_, ?_⟩
      · rintro pa rfl hwhole
        rw [hmem, w.blockOut_mem_here _ _ pa e va b hwhole]
        exact ⟨rfl, hw.outside.bytes⟩
      · rintro c pa rfl
        refine hw.outside.bytes.trans hw.outside.flaws (.of_mem ?_)
        rw [hmem, w.blockOut_mem_chip]
  case prefetch =>
    have hx := gprefRun_looked ha
    have ht := Midway.address hlive ha
    obtain ⟨v, hv, -, hbytes, hcur⟩ := (ht.outside.trans hx.outside).retires (by rw [hx.cur]; exact ht.live)
    exact ⟨v, hv, by rw [hcur, hx.cur], hbytes⟩

end Sys2Proof.Machine
end

section
/-!
PROOF of the statement on copies and tokens.
-/
namespace Sys2Proof.Machine
open Sys2Proof.Claims

/-- No copy is handed over, no number taken and no token of the slot written. -/
structure SameWork (s t : State) : Prop where
  copies : t.copies = s.copies
  nextId : t.nextId = s.nextId
  tok    : t.cur.tok = s.cur.tok

theorem SameWork.trans {s t u : State} (h : SameWork s t) (k : SameWork t u) : SameWork s u :=
  ⟨k.copies.trans h.copies, k.nextId.trans h.nextId, k.tok.trans h.tok⟩

theorem OnlyRead.sameWork {s t : State} (h : OnlyRead s t) : SameWork s t := ⟨h.copies, h.nextId, by rw [h.looked.cur]⟩

theorem SameWork.operand (s : State) (sp : Spec) (i : Int) (size : Nat) : SameWork s (s.operand sp i size).1 where
  copies := by cases sp <;> rfl
  nextId := by cases sp <;> rfl
  tok := by obtain ⟨n, v, h | h⟩ := operand_cur s sp i size <;> simp [h]

theorem SameWork.address {s t : State} {sp : Spec} {i : Int} {size : Nat} {a : Word} (h : s.address sp i size = .ok (t, a)) :
    SameWork s t := by
  have hop := SameWork.operand s sp i size
  rwa [operand_of_address h] at hop

/-- The instruction stands with its descriptor read: midway with the pointers as at t, no copy handed over. -/
structure DescRead (s t v : State) : Prop where
  midway : Midway s t v s.acc s.flags
  work   : SameWork s v

variable {s t v w x y z u : State} {k e n : Nat} {sp : Spec} {i : BitVec 8} {a : Word} {d : List Byte} {replay : Bool}

theorem DescRead.onlyRead (h : DescRead s t v) (k : OnlyRead v w) : DescRead s t w :=
  ⟨h.midway.onlyRead k, h.work.trans k.sameWork⟩

theorem descRead_of_copyRead (hlive : s.cur.live = true) {i : Int} (h : CopyRead s v k sp i a d) : ∃ t, DescRead s t v := by
  obtain ⟨t, u, l, ha, hl, hd, -⟩ := h
  have hread := (locate_onlyRead hl).trans (descLoads_onlyRead hd)
  exact ⟨t, (Midway.address hlive ha).onlyRead hread, (SameWork.address ha).trans hread.sameWork⟩

theorem onlyRead_of_copyEngine (h : CopyEngine v x k d e) : OnlyRead v x := by
  obtain ⟨w, r, hw, -, hx⟩ := h
  exact (once_onlyRead hw).trans (access_onlyRead hx (.refl w))

theorem State.complete_copies (s : State) (len delay : Nat) : (s.complete len delay).copies = s.copies := by
  unfold State.complete
  split <;> rfl

/-! What a slot that parks keeps of the way its instruction has come (09 R186). -/

theorem parked_tok (s t : State) (r : Reason) (res : Resource) (wake : Wake) :
    ((s.rewind t).parkCur r res wake).cur.tok = t.cur.tok := by
  obtain ⟨p, i, hcur, -, -⟩ := (s.rewind t).cur_parkCur r res wake
  rw [hcur, State.cur_rewind]
  unfold Slot.keepE
  split
  · exact Slot.setFlags_tok ..
  · rfl

theorem parked_copies (s t : State) (r : Reason) (res : Resource) (wake : Wake) :
    ((s.rewind t).parkCur r res wake).copies = t.copies := rfl

theorem parked_nextId (s t : State) (r : Reason) (res : Resource) (wake : Wake) :
    ((s.rewind t).parkCur r res wake).nextId = t.nextId := rfl

theorem parked_noted (s t : State) (x : Reply) (r : Reason) (res : Resource) (wake : Wake) :
    ((s.rewind (t.note x)).parkCur r res wake).cur.replies[t.trail.length]? = some x := by
  obtain ⟨-, -, hlog, -⟩ := parked_slot s (t.note x) r res wake
  rw [hlog]
  simp [State.note]

theorem parked_bytes {s t : State} (h : SameBytes s t) (r : Reason) (res : Resource) (wake : Wake) :
    SameBytes s ((s.rewind t).parkCur r res wake) := fun k => by
  rw [SameByte, parked_mem]
  exact h k

/-! cpy and cpyr (09 R186, R187). -/

theorem exec_copy (k : BitVec 3) (sp : Spec) (i : BitVec 8) (s : State) (replay : Bool) :
    exec (if replay then .cpyr k sp i else .cpy k sp i) s = retire s 4 4 (cpyRun s k.toNat sp i.toInt replay) := by
  cases replay <;> rfl

theorem cpyRun_of_copyRead {i : Int} (h : CopyRead s v k sp i a d) :
    cpyRun s k sp i replay =
      (do let w ← v.once (v.tokIdle (tget Tok.idle v.cur.tok k).busy)
          let (x, e) ← w.access none fun x => (x, .num (x.engineFor x.curCore (x.ctxOf x.curCore) (field d 0 8)))
          x.copyAsked k e.toNat d (offOf a) replay) := by
  obtain ⟨t, u, l, ha, hl, hd, -⟩ := h
  simp [cpyRun, ha, hl, hd, bind, Except.bind]

/-- A busy token is waited for before anything is handed over (09 R186). -/
theorem cpyRun_busy {i : Int} (h : CopyRead s v k sp i a d) (hb : (tget Tok.idle v.cur.tok k).busy = true)
    (hr : v.recall = none) : cpyRun s k sp i replay = .error (.wait v .tok .none .poll) := by
  rw [cpyRun_of_copyRead h]
  simp [State.once, State.tokIdle, State.hold, hr, hb, bind, Except.bind]

theorem cpyRun_asks {i : Int} (h : CopyRead s v k sp i a d) (he : CopyEngine v x k d e) :
    cpyRun s k sp i replay = x.copyAsked k e d (offOf a) replay := by
  obtain ⟨w, r, hw, rfl, hx⟩ := he
  rw [cpyRun_of_copyRead h]
  simp [hw, hx, bind, Except.bind]

/-- The copy that an instruction of s hands over (09 R186). -/
def CopyOf (s : State) (k e : Nat) (d : List Byte) (replay : Bool) (c : Copy) : Prop :=
  c.desc = d ∧ c.engine = e ∧ c.replay = replay ∧ c.core = s.curCore ∧ c.slot = s.curSlot ∧ c.tok = k

/-- Lines are dropped, and a copy stands in the table under the next number. -/
def State.handing (w : State) (e : Nat) (c : Copy) : State :=
  { w.dropLines (engDie e) c.ctx with nextId := w.nextId + 1, copies := tput w.copies w.nextId c }

theorem Looked.handing (w : State) (e : Nat) (c : Copy) : Looked w (w.handing e c) :=
  .of_fields rfl rfl rfl rfl rfl rfl rfl rfl rfl

theorem SameRun.handing (w : State) (e : Nat) (c : Copy) : SameRun w (w.handing e c) := ⟨rfl, rfl, rfl, rfl, rfl⟩

/-- The hand-over adds the copy, and makes its token busy (09 R186). -/
theorem copyTaken_eq (w : State) (k e : Nat) (d : List Byte) (at_ : Nat) (replay : Bool) (guest : Option Nat) :
    ∃ c q, w.copyTaken k e d at_ replay guest = (w.handing e c).setCur { (w.handing e c).cur with tok := q } ∧
      CopyOf w k e d replay c ∧ (tget Tok.idle q k).busy = true := by
  refine ⟨_, tput w.cur.tok k { tget Tok.idle w.cur.tok k with busy := true, desc := at_, crec := field d 0x10 4 }, rfl, ?_, ?_⟩
  · exact ⟨rfl, rfl, rfl, rfl, rfl, rfl⟩
  · rw [tget_tput_same]

theorem Midway.setTok {b : BitVec 7} {c : Word} (h : Midway s t w c b) (q : Table Tok) :
    Midway s t (w.setCur { w.cur with tok := q }) c b where
  outside := h.outside.trans (.setCur ..)
  live := by simpa using h.live
  pc := by simpa using h.pc
  park := by simpa using h.park
  issued := by simpa using h.issued
  ptr n := (congrArg (Slot.ptr · n) (State.cur_setCur ..)).trans (h.ptr n)
  acc := (congrArg Slot.acc (State.cur_setCur ..)).trans h.acc
  flags := (congrArg Slot.flags (State.cur_setCur ..)).trans h.flags
  dt := h.dt
  chip := h.chip

theorem Midway.copyTaken {b : BitVec 7} {c : Word} (h : Midway s t w c b) (k e : Nat) (d : List Byte) (at_ : Nat) (replay : Bool)
    (guest : Option Nat) : Midway s t (w.copyTaken k e d at_ replay guest) c b := by
  obtain ⟨c, q, heq, -, -⟩ := copyTaken_eq w k e d at_ replay guest
  rw [heq]
  exact (h.looked (.handing w e c) (.handing w e c)).setTok q

/-- An answered descriptor writes F, and takes the copy where another chip's engine has room (09 R186, R187). -/
theorem copyAsked_ok {at_ : Nat} (h : x.copyAsked k e d at_ replay = .ok z) :
    ∃ r b, z = (x.note r).setF b ∨ ∃ g, z = ((x.note r).copyTaken k e d at_ replay g).setF b := by
  unfold State.copyAsked at h
  split at h
  · obtain ⟨⟨y, r⟩, hy, h⟩ := bind_ok h
    cases h
    unfold State.access at hy
    split at hy <;> cases hy
    exact ⟨_, _, .inl rfl⟩
  · split at h
    · next r hr =>
      dsimp only at h
      split at h <;> cases h
      · next rep =>
        split
        · exact ⟨_, _, .inr ⟨_, rfl⟩⟩
        · exact ⟨_, _, .inl rfl⟩
      · exact ⟨_, _, .inl rfl⟩
    · cases h

theorem Midway.copyAsked {at_ : Nat} (h : Midway s t x s.acc s.flags) (hz : x.copyAsked k e d at_ replay = .ok z) :
    ∃ b, Midway s t z s.acc (setBit s.flags 4 b) := by
  obtain ⟨r, b, rfl | ⟨g, rfl⟩⟩ := copyAsked_ok hz
  · exact ⟨b, (h.note r).setF b⟩
  · exact ⟨b, ((h.note r).copyTaken ..).setF b⟩

/-- The log holds the engine's answer (09 R186, R187). -/
theorem copyAsked_answered {at_ : Nat} (he : engChip e = x.chip) (hr : x.recall = some (.num n)) :
    x.copyAsked k e d at_ replay = .ok ((x.note (.num n)).setF (n != 0)) := by
  simp [State.copyAsked, State.access, he, hr, bind, Except.bind, Reply.toNat]

theorem copyAsked_taken {at_ : Nat} (he : engChip e = x.chip) (hr : x.recall = none) (hroom : x.engineRoom e = true) :
    x.copyAsked k e d at_ replay =
      .error (.wait ((x.copyTaken k e d at_ replay none).note (.num 0)) .mem .none
        ((x.copyTaken k e d at_ replay none).note (.num 0)).soon) := by
  simp [State.copyAsked, State.access, slowMem, he, hr, hroom, bind, Except.bind]

theorem copyAsked_refused {at_ : Nat} (he : engChip e = x.chip) (hr : x.recall = none) (hroom : x.engineRoom e = false) :
    x.copyAsked k e d at_ replay = .error (.wait (x.note (.num 1)) .mem .none (x.note (.num 1)).soon) := by
  simp [State.copyAsked, State.access, slowMem, he, hr, hroom, bind, Except.bind]

section
variable (hlive : s.cur.live = true) (h : CopyRead s v k sp i.toInt a d) (he : CopyEngine v x k d e)
include hlive h he

/-- At the hand-over nothing is to be seen but stepped pointers. -/
theorem descRead_of_copyEngine : ∃ t, DescRead s t x := by
  obtain ⟨t, ht⟩ := descRead_of_copyRead hlive h
  exact ⟨t, ht.onlyRead (onlyRead_of_copyEngine he)⟩

theorem retire_copy_completes (hz : x.copyAsked k e d (offOf a) replay = .ok z) :
    ∃ u, retire s 4 4 (cpyRun s k sp i.toInt replay) = .next u ∧ u.copies = z.copies ∧ u.acc = s.acc ∧
      flagF u.flags = flagF z.flags ∧ Passed s u 4 := by
  obtain ⟨t, ht⟩ := descRead_of_copyEngine hlive h he
  obtain ⟨b, hmid⟩ := ht.midway.copyAsked hz
  obtain ⟨hacc, hflags, -, hpassed⟩ := hmid.endsAs rfl rfl
  rw [cpyRun_asks h he, hz]
  exact ⟨_, rfl, State.complete_copies .., hacc, by rw [hflags, hmid.flags], hpassed⟩

theorem retire_copy_answered (hchip : engChip e = s.chip) (hr : x.recall = some (.num n)) :
    ∃ u, retire s 4 4 (cpyRun s k sp i.toInt replay) = .next u ∧ u.copies = s.copies ∧ flagF u.flags = (n != 0) ∧
      SameBytes s u ∧ Passed s u 4 := by
  obtain ⟨t, ht⟩ := descRead_of_copyEngine hlive h he
  have hmid := (ht.midway.note (.num n)).setF (n != 0)
  obtain ⟨-, hflags, -, hpassed⟩ := hmid.endsAs rfl rfl
  rw [cpyRun_asks h he, copyAsked_answered (hchip.trans ht.midway.chip.symm) hr]
  exact ⟨_, rfl, (State.complete_copies ..).trans ht.work.copies, by rw [hflags]; exact setBit_getLsbD_same _ 4 _ (by decide),
    (hmid.outside.trans (.complete ..)).bytes, hpassed⟩

theorem retire_copy_taken (hchip : engChip e = s.chip) (hr : x.recall = none) (hroom : x.engineRoom e = true) :
    ∃ u c, retire s 4 4 (cpyRun s k sp i.toInt replay) = .next u ∧ Answering s u ∧ SameBytes s u ∧
      (tget Tok.idle u.cur.tok k).busy = true ∧ u.nextId = s.nextId + 1 ∧ u.copies = tput s.copies s.nextId c ∧
      CopyOf s k e d replay c ∧ u.cur.replies[x.trail.length]? = some (.num 0) := by
  obtain ⟨t, ht⟩ := descRead_of_copyEngine hlive h he
  obtain ⟨c, q, heq, hcopy, hbusy⟩ := copyTaken_eq x k e d (offOf a) replay none
  have hmid := (ht.midway.copyTaken k e d (offOf a) replay none).note (.num 0)
  rw [cpyRun_asks h he, copyAsked_taken (hchip.trans ht.midway.chip.symm) hr hroom, retire_wait]
  refine ⟨_, c, rfl, answering_parked hmid.flags _ _, parked_bytes hmid.outside.bytes _ _ _, ?_, ?_, ?_, ?_, parked_noted ..⟩
  · rw [parked_tok, (OnlyRead.note ..).looked.cur, heq, State.cur_setCur]
    exact hbusy
  · rw [parked_nextId, (OnlyRead.note ..).nextId, heq, ← ht.work.nextId]
    rfl
  · rw [parked_copies, (OnlyRead.note ..).copies, heq, ← ht.work.nextId, ← ht.work.copies]
    rfl
  · rwa [CopyOf, ht.midway.outside.kept.curCore, ht.midway.outside.kept.curSlot] at hcopy

theorem retire_copy_refused (hchip : engChip e = s.chip) (hr : x.recall = none) (hroom : x.engineRoom e = false) :
    ∃ u, retire s 4 4 (cpyRun s k sp i.toInt replay) = .next u ∧ Answering s u ∧ SameBytes s u ∧ u.copies = s.copies ∧
      u.cur.tok = s.cur.tok ∧ u.cur.replies[x.trail.length]? = some (.num 1) := by
  obtain ⟨t, ht⟩ := descRead_of_copyEngine hlive h he
  have hmid := ht.midway.note (.num 1)
  rw [cpyRun_asks h he, copyAsked_refused (hchip.trans ht.midway.chip.symm) hr hroom, retire_wait]
  refine ⟨_, rfl, answering_parked hmid.flags _ _, parked_bytes hmid.outside.bytes _ _ _, ?_, ?_, parked_noted ..⟩
  · exact ht.work.copies
  · rw [parked_tok]
    exact ht.work.tok

end

/-! wtok, ttok and tokr (09 R188). -/

theorem Outside.setFlags (s : State) (f : BitVec 7) : Outside s (s.setFlags f) := .setCur ..

theorem Midway.setFlags {c : Word} {f : BitVec 7} (h : Midway s t w c f) (g : BitVec 7) : Midway s t (w.setFlags g) c g where
  outside := h.outside.trans (.setCur ..)
  live := by simpa using h.live
  pc := by simpa using h.pc
  park := by simpa using h.park
  issued := by simpa using h.issued
  ptr n := by simpa using h.ptr n
  acc := (State.acc_setFlags ..).trans h.acc
  flags := State.flags_setFlags ..
  dt := h.dt
  chip := h.chip

theorem retire_tokIdle (s : State) (f : Unit → Run) :
    retire s 4 4 (s.tokIdle true >>= f) = .next ((s.rewind s).parkCur .tok .none .poll) := rfl

/-- A token that is waited for is busy. -/
theorem anyBusy_iff (s : State) (m : BitVec 8) :
    ((List.range 8).any fun k => m.toNat / 2 ^ k % 2 == 1 && (tget Tok.idle s.cur.tok k).busy) = true ↔
      ∃ k < 8, m.getLsbD k = true ∧ (tget Tok.idle s.cur.tok k).busy = true := by
  simp [List.any_eq_true, BitVec.getLsbD, Nat.testBit_eq_decide_div_mod_eq]

theorem wtok_busy (s : State) (m : BitVec 8)
    (h : ∃ k < 8, m.getLsbD k = true ∧ (tget Tok.idle s.cur.tok k).busy = true) :
    ∃ u, exec (.wtok m) s = .next u ∧ Waiting s u .tok := by
  refine ⟨_, ?_, waiting_parked (.refl s) rfl .tok .none .poll⟩
  show retire s 4 4 (wtokRun s m.toNat) = _
  rw [wtokRun, (anyBusy_iff s m).mpr h, retire_tokIdle]

theorem Looked.acquireUnless (s : State) (c : Prop) [Decidable c] : Looked s (if c then s else s.acquire) := by
  split
  · exact .refl s
  · exact .acquire s

theorem wtok_idle (s : State) (m : BitVec 8) (hlive : s.cur.live = true)
    (h : ∀ k < 8, m.getLsbD k = true → (tget Tok.idle s.cur.tok k).busy = false) :
    ∃ u, exec (.wtok m) s = .next u ∧ u.cur = s.cur.done s.curCoreOf.cycle 4 4 ∧ Kept s u ∧ SameBytes s u := by
  have hidle : ((List.range 8).any fun k => m.toNat / 2 ^ k % 2 == 1 && (tget Tok.idle s.cur.tok k).busy) = false := by
    rw [← Bool.not_eq_true, anyBusy_iff]
    rintro ⟨k, hk, hm, hb⟩
    simp [h k hk hm] at hb
  have hrun : wtokRun s m.toNat = .ok (if m.toNat = 0 then s else s.acquire) := by
    rw [wtokRun, hidle]
    rfl
  have hlooked := Looked.acquireUnless s (m.toNat = 0)
  obtain ⟨u, hu, hkept, hbytes, hcur⟩ := hlooked.outside.retires (by rwa [hlooked.cur])
  exact ⟨u, (congrArg (retire s 4 4) hrun).trans hu, by rw [hcur, hlooked.cur], hkept, hbytes⟩

/-- The four flags written one after another, V first cleared (04 R47). -/
theorem setBits_eq_withZNCV (f : BitVec 7) (z n c : Bool) :
    setBit (setBit (setBit (setBit f 0 z) 1 n) 2 c) 3 false = withZNCV f z n c false := by
  revert f z n c
  decide

theorem ttok_tells (s : State) (k : BitVec 3) (hlive : s.cur.live = true) :
    let t := tget Tok.idle s.cur.tok k.toNat
    ∃ u, exec (.ttok k) s = .next u ∧ Kept s u ∧ SameBytes s u ∧
      u.cur = (s.cur.setFlags (withZNCV s.flags (!t.busy) (!t.busy && t.status != 0) (!t.busy && t.status == 2) false)).done
        s.curCoreOf.cycle 4 4 := by
  intro t
  obtain ⟨f, hf⟩ : ∃ f, f = withZNCV s.flags (!t.busy) (!t.busy && t.status != 0) (!t.busy && t.status == 2) false := ⟨_, rfl⟩
  have hrun : exec (.ttok k) s = retire s 4 4 (.ok ((if t.busy then s else s.acquire).setFlags f)) := by
    rw [hf, ← setBits_eq_withZNCV]
    rfl
  have hlooked := Looked.acquireUnless s (t.busy = true)
  obtain ⟨u, hu, hkept, hbytes, hcur⟩ :=
    (hlooked.outside.trans (.setFlags _ f)).retires (by simpa [hlooked.cur] using hlive)
  exact ⟨u, hrun.trans hu, hkept, hbytes, by rw [hcur, State.cur_setFlags, hlooked.cur, hf]⟩

theorem tokr_busy (s : State) (k : BitVec 3) (h : (tget Tok.idle s.cur.tok k.toNat).busy = true) :
    ∃ u, exec (.tokr k) s = .next u ∧ Waiting s u .tok := by
  refine ⟨_, ?_, waiting_parked (.refl s) rfl .tok .none .poll⟩
  show retire s 4 4 (tokrRun s k.toNat) = _
  rw [tokrRun, h, retire_tokIdle]

/-- tokr reads what the copy has moved into a, with Z of it and N clear (09 R188). -/
theorem tokr_idle (s : State) (k : BitVec 3) (hlive : s.cur.live = true)
    (h : (tget Tok.idle s.cur.tok k.toNat).busy = false) :
    let m := (tget Tok.idle s.cur.tok k.toNat).moved
    ∃ u, exec (.tokr k) s = .next u ∧ Kept s u ∧ SameBytes s u ∧ EndsAs s s u m (setBit (setBit s.flags 0 (m == 0)) 1 false) := by
  intro m
  have hrun : tokrRun s k.toNat = .ok ((s.acquire.setAcc m).setFlags (setBit (setBit s.flags 0 (m == 0)) 1 false)) := by
    rw [tokrRun, h]
    rfl
  obtain ⟨u, hu, hrest⟩ :=
    (((Midway.start s hlive).acquire.setAcc m).setFlags (setBit (setBit s.flags 0 (m == 0)) 1 false)).retires
  exact ⟨u, (congrArg (retire s 4 4) hrun).trans hu, hrest⟩

/-- Settles O27: until the hand-over cpy only looks; the engine's answer writes F, a copy that is taken enters the table and makes
its token busy as the slot parks; a busy token parks the slot unseen, an idle one is told or read. -/
theorem copiesAndTokens : Obligations.CopiesAndTokens := by
  intro s hlive
  refine ⟨fun k sp i v a d replay h => ⟨?busy, fun x e he => ?_⟩, fun m => wtok_idle s m hlive,
    fun m k hk hm hb => wtok_busy s m ⟨k, hk, hm, hb⟩, fun k => ttok_tells s k hlive, fun k hb => ?_, tokr_busy s⟩
  case busy =>
    intro hb hr
    obtain ⟨t, ht⟩ := descRead_of_copyRead hlive h
    rw [exec_copy, cpyRun_busy h hb hr, retire_wait]
    exact ⟨_, rfl, waiting_parked ht.midway.outside ht.midway.flags ..⟩
  · rw [exec_copy]
    refine ⟨fun z => retire_copy_completes hlive h he, fun n => retire_copy_answered hlive h he, fun hchip hr hroom => ?_,
      retire_copy_refused hlive h he⟩
    obtain ⟨u, c, hu, hanswer, hbytes, hbusy, hnext, hcopies, ⟨hd, heng, hrep, hcore, hslot, htok⟩, hlog⟩ :=
      retire_copy_taken hlive h he hchip hr hroom
    exact ⟨u, c, hu, hanswer, hbytes, hbusy, hnext, hcopies, hd, heng, hrep, hcore, hslot, htok, hlog⟩
  · obtain ⟨u, hu, hkept, hbytes, hacc, hflags, -⟩ := tokr_idle s k hlive hb
    refine ⟨u, hu, hkept, hbytes, hacc, ?_⟩
    rw [hflags]
    simp only [flagN, flagZ, flagC, flagV]
    refine ⟨setBit_getLsbD_same _ 1 _ (by decide), ?_, ?_, ?_⟩
    · rw [setBit_getLsbD_other _ 1 0 _ (by decide) (by decide), setBit_getLsbD_same _ 0 _ (by decide)]
    · rw [setBit_getLsbD_other _ 1 2 _ (by decide) (by decide), setBit_getLsbD_other _ 0 2 _ (by decide) (by decide)]
    · rw [setBit_getLsbD_other _ 1 3 _ (by decide) (by decide), setBit_getLsbD_other _ 0 3 _ (by decide) (by decide)]

end Sys2Proof.Machine
end

section
/-!
SUPPORT. Errors of memory that a write or the patrol meets (09 R191 to R193); what a reply changes beside its slot (04 R53; 16 R292).
-/
namespace Sys2Proof.Machine
open Sys2Proof.Claims

/-! What a write leaves that meets errors of memory. -/

theorem Looked.filterFlaws (s : State) (p : Nat × Bool → Bool) : Looked s { s with flaws := s.flaws.filter p } :=
  ⟨.of_fields rfl rfl rfl rfl rfl rfl rfl, rfl, .of_mem rfl, fun _ h => (List.mem_filter.mp h).1⟩

theorem Looked.countFlaw (s : State) (f : Nat × Bool) : Looked s (s.countFlaw f) := by
  unfold State.countFlaw
  dsimp only
  split
  · exact .of_fields rfl rfl rfl rfl rfl rfl rfl rfl rfl
  · exact .refl s

theorem Looked.foldl_countFlaw (fs : List (Nat × Bool)) (s : State) : Looked s (fs.foldl State.countFlaw s) := by
  induction fs generalizing s with
  | nil => exact .refl s
  | cons f fs ih => exact (Looked.countFlaw s f).trans (ih _)

theorem Looked.mend (s : State) (c k n : Nat) (whole : Bool) : Looked s (s.mend c k n whole) :=
  ((Looked.filterFlaws s _).trans (.sense ..)).trans ((Looked.filterFlaws _ _).trans (.foldl_countFlaw ..))

theorem flawSize_pos (k : Nat) : 0 < flawSize k := by
  unfold flawSize
  split <;> decide

theorem onFlaw_of_coversFlaw {k n : Nat} {whole : Bool} {f : Nat × Bool} (h : coversFlaw k n whole f = true) :
    onFlaw k n f = true := by
  have hpos := flawSize_pos f.1
  simp only [coversFlaw, onFlaw, Bool.and_eq_true, decide_eq_true_eq] at h ⊢
  omega

theorem onFlaw_self (f : Nat × Bool) (n : Nat) (hn : 0 < n) : onFlaw f.1 n f = true := by
  have hpos := flawSize_pos f.1
  simp only [onFlaw, Bool.and_eq_true, decide_eq_true_eq]
  omega

/-- A write that touches no error changes nothing but what it writes. -/
theorem State.mend_of_clean (s : State) (c k n : Nat) (whole : Bool) (h : ∀ f ∈ s.flaws, onFlaw k n f = false) :
    s.mend c k n whole = s := by
  have hcover : (s.flaws.filter fun f => !(f.2 && coversFlaw k n whole f)) = s.flaws := by
    refine List.filter_eq_self.mpr fun f hf => ?_
    have hnot : coversFlaw k n whole f = false := by
      rw [← Bool.not_eq_true]
      intro hc
      have hon := h f hf
      rw [onFlaw_of_coversFlaw hc] at hon
      cases hon
    simp [hnot]
  have hon : s.flaws.filter (onFlaw k n) = [] := List.filter_eq_nil_iff.mpr fun f hf => by simp [h f hf]
  have hoff : (s.flaws.filter fun f => !onFlaw k n f) = s.flaws := List.filter_eq_self.mpr fun f hf => by simp [h f hf]
  have hsense : s.sense c k n = s := s.sense_of_clean c k n fun f hf _ => h f hf
  unfold State.mend
  dsimp only
  rw [hcover]
  show List.foldl State.countFlaw { s.sense c k n with flaws := _ } ((s.sense c k n).flaws.filter _) = s
  rw [hsense, hon, hoff]
  rfl

/-- The scale of a block in which an error is found becomes 255, and stays it (09 R191). -/
theorem foldl_foundFlaw_scale (c : Nat) (fs : List (Nat × Bool)) (f : Nat × Bool) (hf : f ∈ fs) (s : State) :
    mget (fs.foldl (State.foundFlaw c) s).mem (scaleKey f.1) = 255 := by
  induction fs generalizing s with
  | nil => cases hf
  | cons g fs ih =>
    obtain rfl | hf := List.mem_cons.mp hf
    · have hnow : mget (s.foundFlaw c f).mem (scaleKey f.1) = 255 := by
        unfold State.foundFlaw State.memoryError State.memoryErrorOf
        dsimp only
        split <;> exact mget_mput_same ..
      obtain ⟨-, -, -, hrest⟩ := foundFlaw_all c fs (s.foundFlaw c f)
      obtain h | ⟨-, h⟩ := hrest (scaleKey f.1)
      · exact h.trans hnow
      · exact h
    · exact ih hf _

theorem State.sense_flaws (s : State) (c k n : Nat) :
    (s.sense c k n).flaws = s.flaws.filter fun f => !(f.2 && onFlaw k n f) := by
  obtain ⟨-, -, h, -⟩ := foundFlaw_all c (s.flaws.filter fun f => f.2 && onFlaw k n f)
    { s with flaws := s.flaws.filter fun f => !(f.2 && onFlaw k n f) }
  exact h

/-- A read finds an error past correction: its block is poisoned, and the error stands no more (09 R191). -/
theorem State.sense_finds (s : State) (c k n : Nat) (f : Nat × Bool) (hf : f ∈ s.flaws) (hbad : f.2 = true)
    (hon : onFlaw k n f = true) : mget (s.sense c k n).mem (scaleKey f.1) = 255 ∧ f ∉ (s.sense c k n).flaws := by
  constructor
  · exact foldl_foundFlaw_scale c _ f (List.mem_filter.mpr ⟨hf, by simp [hbad, hon]⟩) _
  · rw [State.sense_flaws, List.mem_filter]
    simp [hbad, hon]

/-- Looking leaves a poisoned block poisoned. -/
theorem Looked.keeps255 {s t : State} (h : Looked s t) {k : Nat} (hk : mget s.mem k = 255) : mget t.mem k = 255 := by
  obtain h | ⟨-, h⟩ := h.bytes k
  · exact h.trans hk
  · exact h

theorem State.memoryError_eq (s : State) (ctx k : Nat) (h : ctx < 1024) : ∃ bs, s.memoryError ctx k = s.faultRecord ctx bs := by
  unfold State.memoryError State.memoryErrorOf
  dsimp only
  rw [if_pos h]
  exact ⟨_, rfl⟩

theorem State.context_faultRecord (s : State) (ctx : Nat) (bs : List Byte) :
    ((s.faultRecord ctx bs).context ctx).fq.staged = (s.context ctx).fq.staged ++ [bs] := by
  simp [State.faultRecord, State.context]

/-! What a reply changes beside its slot. -/

/-- Memory and the cores are as they were, and no request is new. -/
structure Aside (s t : State) : Prop where
  mem    : t.mem = s.mem
  cores  : t.cores = s.cores
  remote : ∀ x ∈ t.remote, ∃ y ∈ s.remote, y.id = x.id

theorem Aside.of_fields {s t : State} (hm : t.mem = s.mem) (hc : t.cores = s.cores) (hr : t.remote = s.remote) : Aside s t :=
  ⟨hm, hc, fun x hx => ⟨x, hr ▸ hx, rfl⟩⟩

theorem Aside.refl (s : State) : Aside s s := .of_fields rfl rfl rfl

theorem Aside.trans {s t u : State} (h : Aside s t) (k : Aside t u) : Aside s u where
  mem := k.mem.trans h.mem
  cores := k.cores.trans h.cores
  remote x hx :=
    have ⟨y, hy, hxy⟩ := k.remote x hx
    have ⟨z, hz, hyz⟩ := h.remote y hy
    ⟨z, hz, hyz.trans hxy⟩

theorem Aside.slot {s t : State} (h : Aside s t) (g k : Nat) : t.slot g k = s.slot g k := by
  simp only [State.slot, State.core, h.cores]

theorem Aside.thank (s : State) (chip id : Nat) : Aside s (s.thank chip id) := by
  unfold State.thank
  obtain ⟨_, _, _, _, _, h⟩ := s.emit_eq (.ack chip
    { chip := s.chip, path := 0, seq := id, marked := false, refused := false, handle := 0, e := 0, reason := 0 })
  rw [h]
  exact .of_fields rfl rfl rfl

theorem Aside.memoryErrorOf (s : State) (ctx chip k : Nat) : Aside s (s.memoryErrorOf ctx chip k) := by
  unfold State.memoryErrorOf
  dsimp only
  split
  · exact .of_fields rfl rfl rfl
  · exact .refl s

theorem Aside.cancelFills (s : State) (hit : RemoteOut → Bool) : Aside s (s.cancelFills hit) := by
  refine ⟨rfl, rfl, fun x hx => ?_⟩
  obtain ⟨y, hy, rfl⟩ := List.mem_map.mp hx
  refine ⟨y, hy, ?_⟩
  split <;> rfl

theorem Aside.fillLineOf (s : State) (q : RemoteOut) (b : Block) : Aside s (s.fillLineOf q b) := by
  unfold State.fillLineOf
  split
  · exact .cancelFills ..
  · split
    · exact .of_fields rfl rfl rfl
    · exact .refl s

theorem Aside.spoil (s : State) (q : RemoteOut) (r : MemRep) : Aside s (s.spoil q r) := by
  unfold State.spoil
  split
  · exact .refl s
  · split
    · exact .of_fields rfl rfl rfl
    · exact .refl s

/-- A reply for a slot that waits for it is handed to that slot, whatever it answers (04 R53, 09 R177). -/
theorem State.deliver_slot (s : State) (q : RemoteOut) (r : MemRep) (hc : q.core < 1024) (hk : q.slot < 11)
    (hw : (s.slot q.core q.slot).awaits q.id = true) :
    ∃ t, Aside s t ∧ s.deliver q r = t.answerSlot q.core q.slot q.id (.mem q.chip q.pa r) := by
  have hslot : q.core < 1024 ∧ q.slot < 16 := ⟨hc, by omega⟩
  have hspoil := Aside.spoil s q r
  cases hop : q.op with
  | read n => exact ⟨_, .fillLineOf s q r.block, by simp [State.deliver, hop, isCopy, hslot]⟩
  | copy e d => exact ⟨_, hspoil, by simp [State.deliver, hop, isCopy, State.placeAnswer, hc, hspoil.slot, hw]⟩
  | _ => exact ⟨_, hspoil, by simp [State.deliver, hop, isCopy, hslot]⟩

end Sys2Proof.Machine
end

section
/-!
PROOF of the statement on stations, migrations and memory controllers.
-/
namespace Sys2Proof.Machine
open Sys2Proof.Claims

/-! Stations (09 R170 to R172). -/

/-- The accesses of a page in mode 4 after which its notification is due (09 R172). -/
def threshold (e : PageEntry) : Nat := if pteThr e.pte = 0 then 256 else 2 ^ pteThr e.pte

/-- An access below the threshold is counted, and nothing else happens (09 R172). -/
theorem State.charge_below (s : State) (e : PageEntry) (hm : pteMode e.pte = 4)
    (hn : countOf s.counted e.ctx e.va + 1 < threshold e) :
    ∃ l, s.charge e = { s with counted := (e.ctx, e.va, countOf s.counted e.ctx e.va + 1) :: l } := by
  unfold State.charge
  rw [if_pos hm]
  show ∃ l, (if threshold e ≤ _ then s else if _ = threshold e then _ else _) = _
  rw [if_neg (by omega), if_neg (by omega)]
  exact ⟨_, rfl⟩

theorem countOf_cons_same (ctx va n : Nat) (l : List (Nat × Nat × Nat)) : countOf ((ctx, va, n) :: l) ctx va = n := by
  simp [countOf]

theorem exec_stationAccess (s : State) (r : StationReq) (h : r.die < 4) :
    exec (.stationAccess r) s = .next (s.stationAccess r) := by
  show execStationAccess r s = _
  rw [execStationAccess, if_pos h]

/-- An accepted access of a page that is not in mode 3 asks for no line (09 R169). -/
theorem State.stationAccess_go (s : State) (r : StationReq) (route : Route) (e : PageEntry)
    (hv : s.verdict r.ctx r.va false r.kind = .go route e) (hm : pteMode e.pte ≠ 3) : s.stationAccess r = s.charge e := by
  cases route <;> simp [State.stationAccess, hv, hm]

theorem State.stationAccess_refuse (s : State) (r : StationReq) (c : Nat)
    (hv : s.verdict r.ctx r.va false r.kind = .refuse c) : s.stationAccess r = s := by
  simp [State.stationAccess, hv]

/-! The migration agent (09 R173). -/

theorem mem_setEntry (s : State) (e : PageEntry) (pte : Word) (h : e ∈ s.entries) :
    { e with pte := pte } ∈ (s.setEntry e pte).entries :=
  List.mem_map.mpr ⟨e, h, by simp⟩

theorem mem_of_entry {s : State} {ctx va : Nat} {e : PageEntry} (h : s.entry ctx va = some e) : e ∈ s.entries :=
  List.mem_of_find?_eq_some h

theorem State.putLines_entries (s : State) (ctx base : Nat) (bs : List Block) :
    (s.putLines ctx base bs).entries = s.entries := by
  induction bs generalizing s base with
  | nil => rfl
  | cons b bs ih => exact (ih _ _).trans (Looked.mend ..).kept.entries

section
variable {s : State} {ctx va frame : Nat} {e : PageEntry}

theorem migrates_of_mem (hdue : ∃ m ∈ s.migrations, m.1 = ctx ∧ m.2.1 = e.va ∧ s.dt < m.2.2 + 2000000) :
    (s.migrations.any fun m => m.1 == ctx && m.2.1 == e.va && s.dt < m.2.2 + 2000000) = true := by
  obtain ⟨m, hm, hctx, hva, hdt⟩ := hdue
  exact List.any_eq_true.mpr ⟨m, hm, by simp [hctx, hva, hdt]⟩

theorem no_write_out (c base size : Nat) (hremote : ∀ r ∈ s.remote, ¬(r.chip = c ∧ opWrites r.op = true)) :
    (s.remote.any fun r => r.chip == c && base ≤ r.pa && r.pa < base + size && opWrites r.op) = false := by
  refine List.any_eq_false.mpr fun r hr => ?_
  simp only [Bool.and_eq_true, beq_iff_eq]
  rintro ⟨⟨⟨hc, -⟩, -⟩, hw⟩
  exact hremote r hr ⟨hc, hw⟩

/-- A page of this chip is read for the copy: its lines are at hand with the errors that are found (09 R173, R191). -/
theorem pageLines_sensed {bs : List Block} {c base n : Nat} (size : Nat) (hlines : s.pageLines c base n = some bs) :
    ∃ u bs', (if c = s.chip then s.sense ctx base size else s) = u ∧ u.entries = s.entries ∧ u.pageLines c base n = some bs' := by
  by_cases hc : c = s.chip
  · exact ⟨_, _, if_pos hc, (Looked.sense ..).kept.entries, if_pos (hc.trans (SameRun.sense ..).chip.symm)⟩
  · exact ⟨_, bs, if_neg hc, rfl, hlines⟩

variable (h : MigratablePage s ctx va frame e)
include h

theorem not_refused_of_migratable :
    ¬(pteMode e.pte ≠ 4 ∨ (!e.live s) = true ∨ s.pteBad e.pte = true ∨ frame * 4096 % pteSize e.pte ≠ 0 ∨
      hbmSize < frame * 4096 + pteSize e.pte) := by
  obtain ⟨-, hmode, hlive, hbad, halign, hfit⟩ := h
  simp [hmode, hlive, hbad, halign, hfit]

/-- The first step sets WB (09 R173). -/
theorem migrate_begins (hwb : pteWb e.pte = false) :
    s.migrate ctx va frame =
      { s.setEntry e (e.pte ||| (1#64 <<< 47)) with migrations := s.migrations ++ [(ctx, e.va, s.dt)] } := by
  unfold State.migrate
  rw [h.1]
  dsimp only
  rw [if_neg (not_refused_of_migratable h), if_pos (by simp [hwb])]

/-- The last step copies the page, switches its entry, and forgets that it was under way (09 R173). -/
theorem migrate_switches {bs : List Block} (hwb : pteWb e.pte = true)
    (hdue : ∃ m ∈ s.migrations, m.1 = ctx ∧ m.2.1 = e.va ∧ s.dt < m.2.2 + 2000000)
    (hremote : ∀ r ∈ s.remote, ¬(r.chip = ptePeer e.pte ∧ opWrites r.op = true))
    (hplaced : s.writePlaced (inRange ctx e.va (e.va + pteSize e.pte)) = false)
    (hlines : s.pageLines (ptePeer e.pte) (pteFrame e.pte * 4096) (pteSize e.pte / 64) = some bs) :
    ∃ t : State, t.entries = s.entries ∧
      s.migrate ctx va frame =
        ((t.setEntry e (BitVec.ofNat 64 (s.chip * 2 ^ 52 + 2 ^ 48 + frame % 2 ^ 34 * 2 ^ 12 + e.pte.toNat % 2 ^ 12))).entryChanged
          ctx e.va (pteSize e.pte)).dropLinesOf := by
  obtain ⟨u, bs', hu, hentries, hlines'⟩ := pageLines_sensed (ctx := ctx) (pteSize e.pte) hlines
  have hwaits : ((s.remote.any fun r => r.chip == ptePeer e.pte && pteFrame e.pte * 4096 ≤ r.pa &&
      r.pa < pteFrame e.pte * 4096 + pteSize e.pte && opWrites r.op) ||
        s.writePlaced (inRange ctx e.va (e.va + pteSize e.pte))) = false := by
    rw [no_write_out _ _ _ hremote, hplaced]
    rfl
  refine ⟨_, (State.putLines_entries u ctx (frame * 4096) bs').trans hentries, ?_⟩
  unfold State.migrate
  rw [h.1]
  dsimp only
  rw [if_neg (not_refused_of_migratable h), if_neg (by simp [hwb]), if_neg (by simp [migrates_of_mem hdue]),
    if_neg (by simp [hwaits]), hu, hlines']

end

/-- A page is not empty: a change of its entry ends what was under way for its first address. -/
theorem not_mem_entryChanged (s : State) (ctx va size : Nat) (hsize : 0 < size) :
    ∀ m ∈ (s.entryChanged ctx va size).migrations, ¬(m.1 = ctx ∧ m.2.1 = va) := by
  rintro m hm ⟨hctx, hva⟩
  have hout := (List.mem_filter.mp hm).2
  simp [hctx, hva, hsize] at hout

theorem pteSize_pos (e : Word) : 0 < pteSize e := by
  unfold pteSize sizeOfCode
  repeat' split
  all_goals decide

/-- 2 ms after WB was set the agent clears it, and gives up (09 R173). -/
theorem migrationTimeout_gives_up {s : State} {ctx va t : Nat} {e : PageEntry}
    (hm : (s.migrations.find? fun m => m.1 == ctx && m.2.1 == va) = some (ctx, va, t)) (ht : t + 2000000 ≤ s.dt)
    (hentry : s.entry ctx va = some e) (hva : e.va = va) (hmode : pteMode e.pte = 4) :
    s.migrationTimeout ctx va =
      ({ s with migrations := s.migrations.filter fun x => !(x.1 == ctx && x.2.1 == va) }.dropLinesOf).setEntry e
        (e.pte &&& ~~~(1#64 <<< 47)) := by
  have hentry' : ({ s with migrations := s.migrations.filter fun x => !(x.1 == ctx && x.2.1 == va) }.dropLinesOf).entry ctx va =
      some e := hentry
  unfold State.migrationTimeout
  rw [hm]
  dsimp only
  rw [if_neg (by omega), hentry']
  dsimp only
  rw [if_pos ⟨hva, hmode⟩]

/-! The patrol (09 R191). -/

theorem exec_patrolScrub (s : State) (line : Nat) (err : LineError) (h : line < hbmSize / 64) :
    exec (.patrolScrub line err) s = .next (s.patrol line err) := by
  show execPatrolScrub line err s = _
  rw [execPatrolScrub, if_pos h]

theorem exec_patrolScrub_noLine (s : State) (line : Nat) (err : LineError) (h : hbmSize / 64 ≤ line) :
    exec (.patrolScrub line err) s = .fault .noSuchUnit := by
  show execPatrolScrub line err s = _
  rw [execPatrolScrub, if_neg (Nat.not_lt.mpr h)]

/-- The patrol leaves a line as it is on which no error stands. -/
theorem patrol_of_clean (s : State) (line : Nat) (h : ∀ f ∈ s.flaws, onFlaw (64 * line) 64 f = false) :
    s.patrol line .none = s ∧ s.patrol line .corrected = s.countFlaw (64 * line, false) := by
  have hsense := s.sense_of_clean 1024 (64 * line) 64 fun f hf _ => h f hf
  have hmend := s.mend_of_clean 1024 (64 * line) 64 false h
  constructor
  · show (s.sense ..).mend .. = s
    rw [hsense, hmend]
  · show ((s.sense ..).mend ..).countFlaw _ = _
    rw [hsense, hmend]

theorem countFlaw_corrected (s : State) (f : Nat × Bool) (h : f.1 < hbmSize) :
    tget 0 (s.countFlaw f).corrected (2 * dieOfPa f.1 + bankOf f.1 % 128 / 64) =
      tget 0 s.corrected (2 * dieOfPa f.1 + bankOf f.1 % 128 / 64) + 1 := by
  unfold State.countFlaw
  dsimp only
  rw [if_pos h]
  exact tget_tput_same ..

/-- The patrol finds an error past correction that stands on its line: the block is poisoned, the error gone (09 R191). -/
theorem patrol_finds (s : State) (line : Nat) (f : Nat × Bool) (hf : f ∈ s.flaws) (hbad : f.2 = true) (hk : f.1 = 64 * line) :
    poisoned (s.patrol line .none).mem (64 * line) = true ∧ f ∉ (s.patrol line .none).flaws ∧
      SameBytes s (s.patrol line .none) := by
  have hsense : Looked s (s.sense 1024 (64 * line) 64) := .sense ..
  have hmend : Looked (s.sense 1024 (64 * line) 64) (s.patrol line .none) := .mend ..
  obtain ⟨hscale, hgone⟩ := s.sense_finds 1024 (64 * line) 64 f hf hbad (hk ▸ onFlaw_self f 64 (by decide))
  rw [hk] at hscale
  refine ⟨?_, fun hin => hgone (hmend.flaws f hin), (hsense.trans hmend).bytes⟩
  rw [poisoned, hmend.keeps255 hscale]
  rfl

/-- An error past correction that the patrol meets poisons its line, and is reported to the context (09 R191). -/
theorem patrol_uncorrectable (s : State) (line ctx : Nat) (h : ctx < 1024) :
    let u := s.patrol line (.uncorrectable ctx)
    u.mem = mput s.mem (scaleKey (64 * line)) 255 ∧
      (u.context ctx).fq.staged.length = (s.context ctx).fq.staged.length + 1 := by
  obtain ⟨bs, hbs⟩ := State.memoryError_eq
    { { s with flaws := s.flaws.filter fun f => !onFlaw (64 * line) 64 f } with mem := mput s.mem (scaleKey (64 * line)) 255 }
    ctx (64 * line) h
  show (State.memoryError _ _ _).mem = _ ∧ ((State.memoryError _ _ _).context ctx).fq.staged.length = _
  rw [hbs, State.context_faultRecord, List.length_append]
  exact ⟨rfl, rfl⟩

/-! Replies (04 R53; 16 R292). -/

theorem exec_memoryReply (s : State) (core slot : Nat) (r : MemRep) (hc : core < 1024) (hk : slot < 11) :
    exec (.memoryReply core slot r) s = .next (s.memoryReply r) := by
  show execMemoryReply core slot r s = _
  rw [execMemoryReply, if_pos (.inl ⟨hc, hk⟩)]

/-- The answer to a request that stands frees it, and goes to the slot that waits for it (16 R292). -/
theorem memoryReply_to_slot {s : State} {r : MemRep} {q : RemoteOut} (hq : (s.remote.find? fun x => x.id == r.id) = some q)
    (htag : r.tagOk = true) (herr : r.remoteError = none) (hc : q.core < 1024) (hk : q.slot < 11)
    (hw : (s.slot q.core q.slot).awaits q.id = true) :
    ∃ t, Aside { s with remote := s.remote.filter fun x => x.id != r.id } t ∧
      s.memoryReply r = t.answerSlot q.core q.slot q.id (.mem q.chip q.pa r) := by
  obtain ⟨u, hu⟩ : ∃ u, (if isAtomic q.op then { s with remote := s.remote.filter fun x => x.id != r.id }.thank q.chip q.id
      else { s with remote := s.remote.filter fun x => x.id != r.id }) = u := ⟨_, rfl⟩
  obtain ⟨v, hv⟩ : ∃ v, (if r.flawed then u.memoryErrorOf q.ctx q.chip q.pa else u) = v := ⟨_, rfl⟩
  have hau : Aside { s with remote := s.remote.filter fun x => x.id != r.id } u := by
    rw [← hu]
    split
    · exact .thank ..
    · exact .refl _
  have hav : Aside u v := by
    rw [← hv]
    split
    · exact .memoryErrorOf ..
    · exact .refl _
  obtain ⟨t, ht, hdeliver⟩ := v.deliver_slot q r hc hk (by rw [(hau.trans hav).slot]; exact hw)
  refine ⟨t, (hau.trans hav).trans ht, ?_⟩
  rw [← hdeliver, ← hv, ← hu]
  unfold State.memoryReply
  rw [hq]
  dsimp only
  rw [if_neg (by simp [htag]), herr]

/-- Settles O50: a counted access, both steps of a migration and its timeout are equations for their branches; the patrol finds
errors as any read does; a reply changes nothing but its requests beside the slot it answers. -/
theorem stationsAndControllers : Obligations.StationsAndControllers := by
  intro s
  refine ⟨?counts, ?refuses, ?begins, ?switches, ?timeout, ?patrol, exec_patrolScrub_noLine s, ?reply⟩
  case counts =>
    intro r route e hdie hv hmode hbelow
    obtain ⟨l, hl⟩ := s.charge_below e hmode hbelow
    refine ⟨_, exec_stationAccess s r hdie, ?_⟩
    rw [s.stationAccess_go r route e hv (by omega), hl]
    exact ⟨countOf_cons_same .., .of_mem rfl, rfl⟩
  case refuses =>
    intro r c hdie hv
    rw [exec_stationAccess s r hdie, s.stationAccess_refuse r c hv]
  case begins =>
    intro ctx va frame e h hwb
    refine ⟨_, rfl, ?_⟩
    rw [migrate_begins h hwb]
    exact ⟨.of_mem rfl, List.mem_append_right _ (List.mem_singleton_self _), mem_setEntry s e _ (mem_of_entry h.1)⟩
  case switches =>
    intro ctx va frame e bs h hwb hdue hremote hplaced hlines
    obtain ⟨t, hentries, ht⟩ := migrate_switches h hwb hdue hremote hplaced hlines
    refine ⟨_, rfl, ?_⟩
    rw [ht]
    exact ⟨not_mem_entryChanged _ ctx e.va _ (pteSize_pos e.pte), mem_setEntry t e _ (hentries ▸ mem_of_entry h.1)⟩
  case timeout =>
    intro ctx va t e hm ht hentry hva hmode
    refine ⟨_, rfl, ?_⟩
    rw [migrationTimeout_gives_up hm ht hentry hva hmode]
    refine ⟨.of_mem rfl, mem_setEntry _ e _ (mem_of_entry hentry), fun m hin hmine => ?_⟩
    have hout := (List.mem_filter.mp hin).2
    simp [hmine.1, hmine.2] at hout
  case patrol =>
    intro line hline
    refine ⟨fun hclean => ?_, fun f hf hbad hk => ⟨_, exec_patrolScrub s line .none hline, patrol_finds s line f hf hbad hk⟩,
      fun ctx hctx => ?_⟩
    · obtain ⟨hnone, hcorrected⟩ := patrol_of_clean s line hclean
      refine ⟨by rw [exec_patrolScrub s line .none hline, hnone], _, exec_patrolScrub s line .corrected hline, ?_⟩
      rw [hcorrected]
      exact ⟨(Looked.countFlaw ..).bytes, countFlaw_corrected s (64 * line, false) (by simp only [hbmSize] at hline ⊢; omega)⟩
    · obtain ⟨hmem, hstaged⟩ := patrol_uncorrectable s line ctx hctx
      refine ⟨_, exec_patrolScrub s line _ hline, ?_, ?_, hstaged⟩ <;> rw [hmem]
      · rw [poisoned, mget_mput_same]
        rfl
      · intro k hk
        rw [mget_mput, if_neg hk]
  case reply =>
    rintro core slot r q k hc hk hq htag herr rfl rfl hlive hpark hwake hasked
    have hid : q.id = r.id := by simpa using List.find?_some hq
    have hwaits : (s.slot q.core q.slot).awaits q.id = true := by simp [Slot.awaits, hlive, hpark, hasked, hid]
    obtain ⟨t, ht, heq⟩ := memoryReply_to_slot hq htag herr hc hk hwaits
    have hslot : t.slot q.core q.slot = s.slot q.core q.slot := ht.slot ..
    refine ⟨_, exec_memoryReply s _ _ r hc hk, ?_⟩
    rw [heq]
    refine ⟨.of_mem ht.mem, fun x hx => ?_, ?_⟩
    · obtain ⟨y, hy, hyx⟩ := ht.remote x hx
      rw [← hyx]
      simpa using (List.mem_filter.mp hy).2
    · rw [State.slot_answerSlot, hslot, Slot.answered_of_reply _ _ _ k hlive hpark hwake (hasked.trans hid.symm)]
      exact ⟨rfl, rfl⟩

end Sys2Proof.Machine
end
